-- ==== Sys2Proof/Word.lean ====
section
/-! DEFINITION. The words of the machine and the plain containers its state is made of. -/
namespace Sys2Proof

/-- A 64-bit value: a scalar or handle register, a port, an address while it is computed. -/
abbrev Word := BitVec 64

/-- One byte. -/
abbrev Byte := BitVec 8

/-- A vector value: 64 lanes of 32 bits, lane 0 in the low bits (R14, R209). -/
abbrev VReg := BitVec 2048

/-- A table keyed by numbers: a list of key and value, keys strictly rising. -/
abbrev Tab (α : Type) := List (Nat × α)

namespace Tab

/-- The entry of a key, if the table holds one. -/
def find? {α : Type} : Tab α → Nat → Option α
  | [], _ => none
  | (k, v) :: t, n => if k = n then some v else find? t n

/-- The entry of a key, or a default. -/
def getD {α : Type} (t : Tab α) (n : Nat) (d : α) : α := (find? t n).getD d

/-- Put an entry, keeping the keys rising. -/
def put {α : Type} : Tab α → Nat → α → Tab α
  | [], n, x => [(n, x)]
  | (k, v) :: t, n, x =>
    if n < k then (n, x) :: (k, v) :: t
    else if n = k then (n, x) :: t
    else (k, v) :: put t n x

/-- Take an entry away. -/
def erase {α : Type} : Tab α → Nat → Tab α
  | [], _ => []
  | (k, v) :: t, n => if k = n then erase t n else (k, v) :: erase t n

/-- The keys rise strictly. -/
def sorted {α : Type} : Tab α → Bool
  | [] => true
  | [_] => true
  | (a, _) :: (b, y) :: t => decide (a < b) && sorted ((b, y) :: t)

/-- Change the entry of a key that stands in the table; an absent key changes nothing. -/
def upd {α : Type} : Tab α → Nat → (α → α) → Tab α
  | [], _, _ => []
  | (k, v) :: t, n, f => if k = n then (k, f v) :: t else (k, v) :: upd t n f

end Tab

/-- The list with element `n` replaced; a list that is too short is left as it is. -/
def setAt {α : Type} : List α → Nat → α → List α
  | [], _, _ => []
  | _ :: t, 0, y => y :: t
  | x :: t, n + 1, y => x :: setAt t n y

/-- Element `n` of a list, or a default. -/
def nth {α : Type} (d : α) : List α → Nat → α
  | [], _ => d
  | x :: _, 0 => x
  | _ :: t, n + 1 => nth d t n

/-- The numbers `a, a+1, …, a+n-1`. -/
def upto (a : Nat) : Nat → List Nat
  | 0 => []
  | n + 1 => a :: upto (a + 1) n

/-- A bundle (R26): its 64-bit header and its eight 24-bit slot words. -/
structure Bundle where
  hdr : BitVec 64
  w0 : BitVec 24
  w1 : BitVec 24
  w2 : BitVec 24
  w3 : BitVec 24
  w4 : BitVec 24
  w5 : BitVec 24
  w6 : BitVec 24
  w7 : BitVec 24
  deriving DecidableEq, Repr

/-- One partition of Basecamp's plan (R161): its clusters, HARD, RPRIO and share, and the 2 MiB regions of memory that
the plan grants it (R399). -/
structure PlanPart where
  part : Nat
  clusters : List Nat
  hard : Bool
  rprio : Nat
  share : Nat := 6
  mem : List Nat := []
  deriving DecidableEq, Repr

/-- Basecamp's plan (R161, R165, R383, R391): its partitions, for each die the owned slot-table cells by row · 64 + lane,
the package's number and the packages of the fabric, and the period of the quiescence wave in package cycles. -/
structure Plan where
  parts : List PlanPart := []
  cells : List (Tab Nat) := []
  pkg : Nat := 0
  joined : List Nat := [0]
  period : Nat := 2400
  deriving DecidableEq, Repr

end Sys2Proof
end

