-- ==== Sys2Proof/Config.lean ====
section
/-! DEFINITION. What the spec leaves to the part: the free values, each a constant with no body, so that nothing proved
here can lean on the value the part would give. -/
namespace Sys2Proof.Config

/-- Byte `addr` of storage that event number `gen` left unspecified (R116, R266, R449, log 1). -/
opaque freeByte : Nat → Nat → Byte

/-- The free words of the machine, taken in turn by the state's counter (log 2). -/
opaque freeWord : Nat → Word

/-- The number of the Stolpin switch at the far end of port `n` (R387, log 41). -/
opaque peerSwitch : Nat → Nat

/-- The Kalzider image key, whose hash is fused into the hub (R444): a point of P-256. -/
opaque imageKey : Nat × Nat

/-- SHA-256 of the boot ROM, and DIGEST of the image with which the module was delivered (R451). -/
opaque romDigest : List Byte
opaque factoryDigest : List Byte

/-- The bytes of a partition plan, over which R451 hashes. -/
opaque planBytes : Plan → List Byte

end Sys2Proof.Config
end

