-- ==== Sys2Proof/Machine/Opcodes.lean ====
section
/-! DEFINITION. The opcode map (R48): the 256 operations a trigger can start, their codes and their legal slots. -/
namespace Sys2Proof.Machine

/-- The operations of the opcode map, in the map's order. -/
inductive Op where
  | add | sub | addw | subw | mul | mulh | mulhu | mulw
  | div | divu | rem | remu | and | or | xor | andn
  | sll | srl | sra | rol | clz | ctz | popc | brev
  | min | max | minu | maxu | abs | neg | adds | subs
  | ceq | cne | clt | cltu | cle | cleu | ctst | cbit
  | sel | ext | extu | ins | lea | lea2 | movk | crc
  | pand | por | pxor | pnot | pandn | pmov | pget | pall
  | chkeq | chkp | rdspec | wrspec | rand | mix | bswap | nop
  | faddD | fsubD | fmulD | ffmaD | fdivD | fsqrtD | fminD | fmaxD
  | faddS | fsubS | fmulS | ffmaS | fdivS | fsqrtS | fminS | fmaxS
  | fceqD | fcltD | fcleD | fceqS | fcltS | fcleS | fclass | fcvtSD
  | fcvtDS | fcvtDL | fcvtLD | fcvtSW | fcvtWS | fcvtBfS | fcvtSBf | frnd
  | ldB | ldH | ldW | ldD | ldsB | ldsH | ldsW | stB
  | stH | stW | stD | vld | vst | vgath | vscat | ldr
  | amo | cas | qincb | qincw | qdecp | qaddl | ctradd | ctrwait
  | ctrrd | barinit | barv | barw | fence | tlook | tset | bnd
  | vadd | vsub | vmul | vfma | vfms | vmin | vmax | vabs
  | vneg | vdiv | vsqrt | vrcp | vrsq | vexp2 | vlog2 | vsincos
  | vcmul | vconj | vbfly | vand | vor | vxor | vshl | vshr
  | vceq | vclt | vcle | vsel | vcvt | vperm | vshuf | vbcast
  | vredadd | vredmax | vredmin | vscan | vidx | vextr | vinsr | vqop
  | vqpop | vchk | vdot | vclamp | vrnd | vmovq | vpack | vunpk
  | mma | mmag | mzero | mldc | mstc | mcvt | tidw | tidr
  | cbld | mseq | mstat | mwin | macc | mtrn | mchk | mscale
  | cpset | cpgo | cpstat | cpabrt | cpkey | bussel | msg | rwr
  | ramo | rred | wquiet | jobr | pstart | psig | pstat | cpfence
  | br | bri | call | ret | loop | lpost | lrun | lsplit
  | tend | tgrp | sys | trap | twait | rdv | ropen | rjoin
  | rvote | rabort | rleave | rstat | epop | epush | estat | estop
  | cancel | launch | sleep | prio | sched | dbg | wdog | hint
  | eret | snap | snapr | segrew | inj | fcsr | tlbi | faultq
  | park | unpark | dump | fwshare | slotw | keyop | idle | ill
  deriving DecidableEq, Repr

/-- Row 0 of the opcode map. -/
def opRow0 : List Op := [.add, .sub, .addw, .subw, .mul, .mulh, .mulhu, .mulw, .div, .divu, .rem, .remu, .and, .or, .xor, .andn]

/-- Row 1 of the opcode map. -/
def opRow1 : List Op := [.sll, .srl, .sra, .rol, .clz, .ctz, .popc, .brev, .min, .max, .minu, .maxu, .abs, .neg, .adds, .subs]

/-- Row 2 of the opcode map. -/
def opRow2 : List Op := [.ceq, .cne, .clt, .cltu, .cle, .cleu, .ctst, .cbit, .sel, .ext, .extu, .ins, .lea, .lea2, .movk, .crc]

/-- Row 3 of the opcode map. -/
def opRow3 : List Op := [.pand, .por, .pxor, .pnot, .pandn, .pmov, .pget, .pall, .chkeq, .chkp, .rdspec, .wrspec, .rand, .mix, .bswap, .nop]

/-- Row 4 of the opcode map. -/
def opRow4 : List Op := [.faddD, .fsubD, .fmulD, .ffmaD, .fdivD, .fsqrtD, .fminD, .fmaxD, .faddS, .fsubS, .fmulS, .ffmaS, .fdivS, .fsqrtS, .fminS, .fmaxS]

/-- Row 5 of the opcode map. -/
def opRow5 : List Op := [.fceqD, .fcltD, .fcleD, .fceqS, .fcltS, .fcleS, .fclass, .fcvtSD, .fcvtDS, .fcvtDL, .fcvtLD, .fcvtSW, .fcvtWS, .fcvtBfS, .fcvtSBf, .frnd]

/-- Row 6 of the opcode map. -/
def opRow6 : List Op := [.ldB, .ldH, .ldW, .ldD, .ldsB, .ldsH, .ldsW, .stB, .stH, .stW, .stD, .vld, .vst, .vgath, .vscat, .ldr]

/-- Row 7 of the opcode map. -/
def opRow7 : List Op := [.amo, .cas, .qincb, .qincw, .qdecp, .qaddl, .ctradd, .ctrwait, .ctrrd, .barinit, .barv, .barw, .fence, .tlook, .tset, .bnd]

/-- Row 8 of the opcode map. -/
def opRow8 : List Op := [.vadd, .vsub, .vmul, .vfma, .vfms, .vmin, .vmax, .vabs, .vneg, .vdiv, .vsqrt, .vrcp, .vrsq, .vexp2, .vlog2, .vsincos]

/-- Row 9 of the opcode map. -/
def opRow9 : List Op := [.vcmul, .vconj, .vbfly, .vand, .vor, .vxor, .vshl, .vshr, .vceq, .vclt, .vcle, .vsel, .vcvt, .vperm, .vshuf, .vbcast]

/-- Row A of the opcode map. -/
def opRowA : List Op := [.vredadd, .vredmax, .vredmin, .vscan, .vidx, .vextr, .vinsr, .vqop, .vqpop, .vchk, .vdot, .vclamp, .vrnd, .vmovq, .vpack, .vunpk]

/-- Row B of the opcode map. -/
def opRowB : List Op := [.mma, .mmag, .mzero, .mldc, .mstc, .mcvt, .tidw, .tidr, .cbld, .mseq, .mstat, .mwin, .macc, .mtrn, .mchk, .mscale]

/-- Row C of the opcode map. -/
def opRowC : List Op := [.cpset, .cpgo, .cpstat, .cpabrt, .cpkey, .bussel, .msg, .rwr, .ramo, .rred, .wquiet, .jobr, .pstart, .psig, .pstat, .cpfence]

/-- Row D of the opcode map. -/
def opRowD : List Op := [.br, .bri, .call, .ret, .loop, .lpost, .lrun, .lsplit, .tend, .tgrp, .sys, .trap, .twait, .rdv, .ropen, .rjoin]

/-- Row E of the opcode map. -/
def opRowE : List Op := [.rvote, .rabort, .rleave, .rstat, .epop, .epush, .estat, .estop, .cancel, .launch, .sleep, .prio, .sched, .dbg, .wdog, .hint]

/-- Row F of the opcode map. -/
def opRowF : List Op := [.eret, .snap, .snapr, .segrew, .inj, .fcsr, .tlbi, .faultq, .park, .unpark, .dump, .fwshare, .slotw, .keyop, .idle, .ill]

/-- The rows of the opcode map in order. -/
def opRows : List (List Op) := [opRow0, opRow1, opRow2, opRow3, opRow4, opRow5, opRow6, opRow7, opRow8, opRow9, opRowA, opRowB, opRowC, opRowD, opRowE, opRowF]

/-- The operation of an opcode byte (R48: all 256 values are assigned). -/
def Op.ofCode (n : Nat) : Op := nth .ill (nth [] opRows (n / 16)) (n % 16)

/-- The opcode byte of an operation (R48). -/
def Op.code : Op → Nat
  | .add => 0x00
  | .sub => 0x01
  | .addw => 0x02
  | .subw => 0x03
  | .mul => 0x04
  | .mulh => 0x05
  | .mulhu => 0x06
  | .mulw => 0x07
  | .div => 0x08
  | .divu => 0x09
  | .rem => 0x0A
  | .remu => 0x0B
  | .and => 0x0C
  | .or => 0x0D
  | .xor => 0x0E
  | .andn => 0x0F
  | .sll => 0x10
  | .srl => 0x11
  | .sra => 0x12
  | .rol => 0x13
  | .clz => 0x14
  | .ctz => 0x15
  | .popc => 0x16
  | .brev => 0x17
  | .min => 0x18
  | .max => 0x19
  | .minu => 0x1A
  | .maxu => 0x1B
  | .abs => 0x1C
  | .neg => 0x1D
  | .adds => 0x1E
  | .subs => 0x1F
  | .ceq => 0x20
  | .cne => 0x21
  | .clt => 0x22
  | .cltu => 0x23
  | .cle => 0x24
  | .cleu => 0x25
  | .ctst => 0x26
  | .cbit => 0x27
  | .sel => 0x28
  | .ext => 0x29
  | .extu => 0x2A
  | .ins => 0x2B
  | .lea => 0x2C
  | .lea2 => 0x2D
  | .movk => 0x2E
  | .crc => 0x2F
  | .pand => 0x30
  | .por => 0x31
  | .pxor => 0x32
  | .pnot => 0x33
  | .pandn => 0x34
  | .pmov => 0x35
  | .pget => 0x36
  | .pall => 0x37
  | .chkeq => 0x38
  | .chkp => 0x39
  | .rdspec => 0x3A
  | .wrspec => 0x3B
  | .rand => 0x3C
  | .mix => 0x3D
  | .bswap => 0x3E
  | .nop => 0x3F
  | .faddD => 0x40
  | .fsubD => 0x41
  | .fmulD => 0x42
  | .ffmaD => 0x43
  | .fdivD => 0x44
  | .fsqrtD => 0x45
  | .fminD => 0x46
  | .fmaxD => 0x47
  | .faddS => 0x48
  | .fsubS => 0x49
  | .fmulS => 0x4A
  | .ffmaS => 0x4B
  | .fdivS => 0x4C
  | .fsqrtS => 0x4D
  | .fminS => 0x4E
  | .fmaxS => 0x4F
  | .fceqD => 0x50
  | .fcltD => 0x51
  | .fcleD => 0x52
  | .fceqS => 0x53
  | .fcltS => 0x54
  | .fcleS => 0x55
  | .fclass => 0x56
  | .fcvtSD => 0x57
  | .fcvtDS => 0x58
  | .fcvtDL => 0x59
  | .fcvtLD => 0x5A
  | .fcvtSW => 0x5B
  | .fcvtWS => 0x5C
  | .fcvtBfS => 0x5D
  | .fcvtSBf => 0x5E
  | .frnd => 0x5F
  | .ldB => 0x60
  | .ldH => 0x61
  | .ldW => 0x62
  | .ldD => 0x63
  | .ldsB => 0x64
  | .ldsH => 0x65
  | .ldsW => 0x66
  | .stB => 0x67
  | .stH => 0x68
  | .stW => 0x69
  | .stD => 0x6A
  | .vld => 0x6B
  | .vst => 0x6C
  | .vgath => 0x6D
  | .vscat => 0x6E
  | .ldr => 0x6F
  | .amo => 0x70
  | .cas => 0x71
  | .qincb => 0x72
  | .qincw => 0x73
  | .qdecp => 0x74
  | .qaddl => 0x75
  | .ctradd => 0x76
  | .ctrwait => 0x77
  | .ctrrd => 0x78
  | .barinit => 0x79
  | .barv => 0x7A
  | .barw => 0x7B
  | .fence => 0x7C
  | .tlook => 0x7D
  | .tset => 0x7E
  | .bnd => 0x7F
  | .vadd => 0x80
  | .vsub => 0x81
  | .vmul => 0x82
  | .vfma => 0x83
  | .vfms => 0x84
  | .vmin => 0x85
  | .vmax => 0x86
  | .vabs => 0x87
  | .vneg => 0x88
  | .vdiv => 0x89
  | .vsqrt => 0x8A
  | .vrcp => 0x8B
  | .vrsq => 0x8C
  | .vexp2 => 0x8D
  | .vlog2 => 0x8E
  | .vsincos => 0x8F
  | .vcmul => 0x90
  | .vconj => 0x91
  | .vbfly => 0x92
  | .vand => 0x93
  | .vor => 0x94
  | .vxor => 0x95
  | .vshl => 0x96
  | .vshr => 0x97
  | .vceq => 0x98
  | .vclt => 0x99
  | .vcle => 0x9A
  | .vsel => 0x9B
  | .vcvt => 0x9C
  | .vperm => 0x9D
  | .vshuf => 0x9E
  | .vbcast => 0x9F
  | .vredadd => 0xA0
  | .vredmax => 0xA1
  | .vredmin => 0xA2
  | .vscan => 0xA3
  | .vidx => 0xA4
  | .vextr => 0xA5
  | .vinsr => 0xA6
  | .vqop => 0xA7
  | .vqpop => 0xA8
  | .vchk => 0xA9
  | .vdot => 0xAA
  | .vclamp => 0xAB
  | .vrnd => 0xAC
  | .vmovq => 0xAD
  | .vpack => 0xAE
  | .vunpk => 0xAF
  | .mma => 0xB0
  | .mmag => 0xB1
  | .mzero => 0xB2
  | .mldc => 0xB3
  | .mstc => 0xB4
  | .mcvt => 0xB5
  | .tidw => 0xB6
  | .tidr => 0xB7
  | .cbld => 0xB8
  | .mseq => 0xB9
  | .mstat => 0xBA
  | .mwin => 0xBB
  | .macc => 0xBC
  | .mtrn => 0xBD
  | .mchk => 0xBE
  | .mscale => 0xBF
  | .cpset => 0xC0
  | .cpgo => 0xC1
  | .cpstat => 0xC2
  | .cpabrt => 0xC3
  | .cpkey => 0xC4
  | .bussel => 0xC5
  | .msg => 0xC6
  | .rwr => 0xC7
  | .ramo => 0xC8
  | .rred => 0xC9
  | .wquiet => 0xCA
  | .jobr => 0xCB
  | .pstart => 0xCC
  | .psig => 0xCD
  | .pstat => 0xCE
  | .cpfence => 0xCF
  | .br => 0xD0
  | .bri => 0xD1
  | .call => 0xD2
  | .ret => 0xD3
  | .loop => 0xD4
  | .lpost => 0xD5
  | .lrun => 0xD6
  | .lsplit => 0xD7
  | .tend => 0xD8
  | .tgrp => 0xD9
  | .sys => 0xDA
  | .trap => 0xDB
  | .twait => 0xDC
  | .rdv => 0xDD
  | .ropen => 0xDE
  | .rjoin => 0xDF
  | .rvote => 0xE0
  | .rabort => 0xE1
  | .rleave => 0xE2
  | .rstat => 0xE3
  | .epop => 0xE4
  | .epush => 0xE5
  | .estat => 0xE6
  | .estop => 0xE7
  | .cancel => 0xE8
  | .launch => 0xE9
  | .sleep => 0xEA
  | .prio => 0xEB
  | .sched => 0xEC
  | .dbg => 0xED
  | .wdog => 0xEE
  | .hint => 0xEF
  | .eret => 0xF0
  | .snap => 0xF1
  | .snapr => 0xF2
  | .segrew => 0xF3
  | .inj => 0xF4
  | .fcsr => 0xF5
  | .tlbi => 0xF6
  | .faultq => 0xF7
  | .park => 0xF8
  | .unpark => 0xF9
  | .dump => 0xFA
  | .fwshare => 0xFB
  | .slotw => 0xFC
  | .keyop => 0xFD
  | .idle => 0xFE
  | .ill => 0xFF

/-- The slots in which an opcode is a legal trigger (last column of R48). -/
def Op.legalIn (o : Op) (k : Nat) : Bool :=
  let h := o.code / 16
  if h < 6 then k = 0 || k = 1
  else if h < 8 then k = 2
  else if h < 0xB then k = 3 || k = 4
  else if h < 0xC then k = 5
  else if h < 0xD then k = 6
  else k = 7

/-- The slot in which the model issues a trigger that stands alone: the lowest legal one. -/
def Op.homeSlot (o : Op) : Nat :=
  let h := o.code / 16
  if h < 6 then 0 else if h < 8 then 2 else if h < 0xB then 3 else if h < 0xC then 5 else if h < 0xD then 6 else 7

/-- Opcodes 0xF0 to 0xFE trap PRIVILEGED in the user context (R49). -/
def Op.privileged (o : Op) : Bool := decide (0xF0 ≤ o.code) && decide (o.code ≤ 0xFE)

theorem Op.ofCode_code (o : Op) : Op.ofCode o.code = o := by cases o <;> rfl

end Sys2Proof.Machine
end

