-- ==== Sys2Proof/Machine/Rv32.lean ====
section
/-! DEFINITION. RV32IM, the published instruction set that the porters run (R305): its instructions, their words, and
what each does to the registers and the pc. Memory is the scratchpad, read and written by Machine/PorterOps.lean. -/
namespace Sys2Proof.Machine

/-- The instructions of RV32IM. `f` is funct3; `alt` is bit 30 of the word (SUB, SRA). -/
inductive Rv where
  | lui (rd : BitVec 5) (imm : BitVec 32)
  | auipc (rd : BitVec 5) (imm : BitVec 32)
  | jal (rd : BitVec 5) (off : BitVec 32)
  | jalr (rd rs1 : BitVec 5) (off : BitVec 32)
  | branch (f : Nat) (rs1 rs2 : BitVec 5) (off : BitVec 32)
  | load (f : Nat) (rd rs1 : BitVec 5) (off : BitVec 32)
  | store (f : Nat) (rs1 rs2 : BitVec 5) (off : BitVec 32)
  | opImm (f : Nat) (alt : Bool) (rd rs1 : BitVec 5) (imm : BitVec 32)
  | op (f : Nat) (alt : Bool) (rd rs1 rs2 : BitVec 5)
  | mulDiv (f : Nat) (rd rs1 rs2 : BitVec 5)
  | fence
  | ecall
  | ebreak
  deriving DecidableEq, Repr

/-- The field of `w` bits at bit `lo`. -/
def Rv.fld (n lo w : Nat) : Nat := n / 2 ^ lo % 2 ^ w

/-- A number of `w` bits as a signed one. -/
def Rv.sext (w n : Nat) : BitVec 32 := BitVec.ofInt 32 (if n < 2 ^ (w - 1) then (n : Int) else (n : Int) - 2 ^ w)

/-- The RV32IM instruction of a word; none for every other word. -/
def Rv32.decode (w : BitVec 32) : Option Rv :=
  let n := w.toNat
  let f := Rv.fld n
  let rd := BitVec.ofNat 5 (f 7 5)
  let rs1 := BitVec.ofNat 5 (f 15 5)
  let rs2 := BitVec.ofNat 5 (f 20 5)
  let f3 := f 12 3
  let f7 := f 25 7
  let immI := Rv.sext 12 (f 20 12)
  let immS := Rv.sext 12 (f 25 7 * 32 + f 7 5)
  let immB := Rv.sext 13 (f 31 1 * 4096 + f 7 1 * 2048 + f 25 6 * 32 + f 8 4 * 2)
  let immU := BitVec.ofNat 32 (f 12 20 * 4096)
  let immJ := Rv.sext 21 (f 31 1 * 2 ^ 20 + f 12 8 * 4096 + f 20 1 * 2048 + f 21 10 * 2)
  match f 0 7 with
  | 0x37 => some (.lui rd immU)
  | 0x17 => some (.auipc rd immU)
  | 0x6F => some (.jal rd immJ)
  | 0x67 => if f3 = 0 then some (.jalr rd rs1 immI) else none
  | 0x63 => if f3 = 2 ∨ f3 = 3 then none else some (.branch f3 rs1 rs2 immB)
  | 0x03 => if f3 = 3 ∨ f3 = 6 ∨ f3 = 7 then none else some (.load f3 rd rs1 immI)
  | 0x23 => if f3 > 2 then none else some (.store f3 rs1 rs2 immS)
  | 0x13 =>
    if f3 = 1 then (if f7 = 0 then some (.opImm 1 false rd rs1 immI) else none)
    else if f3 = 5 then
      (if f7 = 0 then some (.opImm 5 false rd rs1 immI) else if f7 = 0x20 then some (.opImm 5 true rd rs1 immI) else none)
    else some (.opImm f3 false rd rs1 immI)
  | 0x33 =>
    if f7 = 1 then some (.mulDiv f3 rd rs1 rs2)
    else if f7 = 0 then some (.op f3 false rd rs1 rs2)
    else if f7 = 0x20 ∧ (f3 = 0 ∨ f3 = 5) then some (.op f3 true rd rs1 rs2)
    else none
  | 0x0F => if f3 = 0 then some .fence else none
  | 0x73 => if n = 0x73 then some .ecall else if n = 0x100073 then some .ebreak else none
  | _ => none

/-- Whether a word is an instruction of RV32IM. -/
def Rv32.legal (w : BitVec 32) : Bool := (Rv32.decode w).isSome

/-- The operation of OP and OP-IMM with funct3 `f`. -/
def Rv.alu (f : Nat) (alt : Bool) (a b : BitVec 32) : BitVec 32 :=
  match f with
  | 0 => if alt then a - b else a + b
  | 1 => a <<< (b.toNat % 32)
  | 2 => if a.slt b then 1 else 0
  | 3 => if a.ult b then 1 else 0
  | 4 => a ^^^ b
  | 5 => if alt then a.sshiftRight (b.toNat % 32) else a >>> (b.toNat % 32)
  | 6 => a ||| b
  | _ => a &&& b

/-- The operation of the M extension with funct3 `f`; the results of a division by zero and of the overflowing division
are those that the published set states. -/
def Rv.muldiv (f : Nat) (a b : BitVec 32) : BitVec 32 :=
  match f with
  | 0 => a * b
  | 1 => BitVec.ofInt 32 (a.toInt * b.toInt / 2 ^ 32)
  | 2 => BitVec.ofInt 32 (a.toInt * (b.toNat : Int) / 2 ^ 32)
  | 3 => BitVec.ofNat 32 (a.toNat * b.toNat / 2 ^ 32)
  | 4 => if b = 0 then BitVec.allOnes 32 else BitVec.ofInt 32 (Int.tdiv a.toInt b.toInt)
  | 5 => if b = 0 then BitVec.allOnes 32 else BitVec.ofNat 32 (a.toNat / b.toNat)
  | 6 => if b = 0 then a else BitVec.ofInt 32 (Int.tmod a.toInt b.toInt)
  | _ => if b = 0 then a else BitVec.ofNat 32 (a.toNat % b.toNat)

/-- The condition of a branch with funct3 `f`. -/
def Rv.taken (f : Nat) (a b : BitVec 32) : Bool :=
  match f with
  | 0 => decide (a = b)
  | 1 => decide (a ≠ b)
  | 4 => a.slt b
  | 5 => !a.slt b
  | 6 => a.ult b
  | _ => !a.ult b

end Sys2Proof.Machine
end

