-- ==== Sys2Proof/Syntax.lean ====
section
/-! DEFINITION. The instructions: one constructor for each row of the spec's table of operations and events.

A move (R28) carries its guard `g`, its E bit `e` and its source `s`; its destination is the constructor. A host or
porter instruction (R91, R307) carries the register fields that its row names: `d` rd, `s` rs1, `t` rs2, and for a
porter `a` rs1, `b` rs2. A step that has no word carries what tells it apart: a core `c`, a die `d`, a pair or
partition `p`, a cluster `cl`, a hart `h`, a launch `l`, a continuation `k` (the address of its block), an operation
number `id`, a port `n`, a message `seq`, or what came from outside. The moves stand last, since Lean's compiled code
can build only the first 244 constructors of a type: what the machine itself builds stands before them. -/
namespace Sys2Proof

/-- The operations and events of the part. -/
inductive Instr where
  /-- BUNDLE_ISSUE (R24). -/
  | bundleIssue (b : Bundle)
  /-- RESULT_LANDING (R39). -/
  | resultLanding (c : Nat)
  /-- DELIVERY_LANDING (R40). -/
  | deliveryLanding (c id : Nat)
  /-- ARRIVAL_ON_RETIRE (R343). -/
  | arrivalOnRetire (c : Nat)
  /-- SEGMENT_COMMIT (R429). -/
  | segmentCommit (c : Nat)
  /-- REWIND_DONE (R431). -/
  | rewindDone (c : Nat)
  /-- ARRAY_OP_COMPLETE (R233). -/
  | arrayOpComplete (p : Nat)
  /-- MSEQ_STEP_START (R241). -/
  | mseqStepStart (c : Nat)
  /-- IDLE_WAKE (R180). -/
  | idleWake (c : Nat)
  /-- SHARE_CHANGE_EFFECT (R178). -/
  | shareChangeEffect (p : Nat)
  /-- SLOT_CELL_EFFECT (R179). -/
  | slotCellEffect (d cell : Nat)
  /-- CJOIN_TIMEOUT (R94). -/
  | cjoinTimeout (h : Nat)
  /-- CONT_PARK (R84). -/
  | contPark (k : Nat)
  /-- CONT_UNPARK (R85). -/
  | contUnpark (k : Nat)
  /-- KILL_DONE (R89). -/
  | killDone (k : Nat)
  /-- ATTENTION_RETRY (R86). -/
  | attentionRetry (p : Nat)
  /-- FAULT_STEERING_WRITE (R161). -/
  | faultSteeringWrite (p : Nat) (v : Word)
  /-- CHECKPOINT_INTERVAL (R453). -/
  | checkpointInterval
  /-- CHECKPOINT_COMPLETE (R90). -/
  | checkpointComplete
  /-- PKT_NOP (R104). -/
  | pktNop (k : Nat)
  /-- PKT_LAUNCH (R109). -/
  | pktLaunch (k : Nat)
  /-- PKT_WAIT (R110). -/
  | pktWait (k : Nat)
  /-- PKT_SIGNAL (R111). -/
  | pktSignal (k : Nat)
  /-- PKT_PRED (R110). -/
  | pktPred (k : Nat)
  /-- PKT_LOOP (R112). -/
  | pktLoop (k : Nat)
  /-- PKT_CALL (R114). -/
  | pktCall (k : Nat)
  /-- PKT_RETURN (R114). -/
  | pktReturn (k : Nat)
  /-- PKT_FFENCE (R107). -/
  | pktFfence (k : Nat)
  /-- PKT_MARK (R117). -/
  | pktMark (k : Nat)
  /-- PKT_COPY (R116). -/
  | pktCopy (k : Nat)
  /-- PKT_BIND (R116). -/
  | pktBind (k : Nat)
  /-- PKT_UNKNOWN (R103). -/
  | pktUnknown (k : Nat)
  /-- IMPLICIT_RETURN (R114). -/
  | implicitReturn (k : Nat)
  /-- STREAM_WINDOW_REFILL (R107). -/
  | streamWindowRefill (k : Nat)
  /-- FFENCE_REFILL (R309). -/
  | ffenceRefill (k : Nat)
  /-- WAIT_SATISFIED (R110). -/
  | waitSatisfied (k : Nat)
  /-- WAIT_PACKET_TIMEOUT (R110). -/
  | waitPacketTimeout (k : Nat)
  /-- COPY_PACKET_COMPLETE (R116). -/
  | copyPacketComplete (k : Nat)
  /-- COPY_PACKET_FAULT (R457). -/
  | copyPacketFault (k : Nat)
  /-- SYS_COMPLETION (R122). -/
  | sysCompletion (k : Nat)
  /-- SYS_REISSUE (R122). -/
  | sysReissue (c : Nat)
  /-- LAUNCH_PLACE (R155). -/
  | launchPlace (p : Nat)
  /-- PRIORITY_AGING (R154). -/
  | priorityAging (l : Nat)
  /-- TEAM_START (R160). -/
  | teamStart (l : Nat)
  /-- CORE_RESUME (R168). -/
  | coreResume (c : Nat)
  /-- QUANTUM_EXPIRY (R158). -/
  | quantumExpiry (l : Nat)
  /-- IMAGE_SAVED (R170). -/
  | imageSaved (c : Nat)
  /-- CLUSTER_RECLAIM (R162). -/
  | clusterReclaim (cl : Nat)
  /-- RECLAIM_RETRY (R171). -/
  | reclaimRetry (cl : Nat)
  /-- CLUSTER_RETURN (R163). -/
  | clusterReturn (cl : Nat)
  /-- LAUNCH_DRAINED (R153). -/
  | launchDrained (l : Nat)
  /-- SCOUT_PROBE (R133). -/
  | scoutProbe (c : Nat)
  /-- STEAL_ARRIVAL (R133). -/
  | stealArrival (c : Nat)
  /-- TWAIT_TIMEOUT (R143). -/
  | twaitTimeout (c : Nat)
  /-- WATCHDOG_EXPIRY (R146). -/
  | watchdogExpiry (c : Nat)
  /-- RENDEZVOUS_RELEASE (R145). -/
  | rendezvousRelease (cl : Nat)
  /-- RENDEZVOUS_TIMEOUT (R145). -/
  | rendezvousTimeout (c : Nat)
  /-- SHARE_VIOLATION (R436). -/
  | shareViolation (c : Nat)
  /-- PARTITION_PLAN_APPLY (R161). -/
  | partitionPlanApply (plan : Plan)
  /-- PARTITION_RESET (R162). -/
  | partitionReset (p : Nat)
  /-- DEBUG_HOLD (R173). -/
  | debugHold (c : Nat)
  /-- DEBUG_STEP (R173). -/
  | debugStep (c : Nat)
  /-- DEBUG_RELEASE (R173). -/
  | debugRelease (c : Nat)
  /-- GLOBAL_REQUEST_ACCEPT (R164). -/
  | globalRequestAccept (c id : Nat)
  /-- STORE_PERFORM (R271). -/
  | storePerform (c id : Nat)
  /-- PAGE_WALK (R262). -/
  | pageWalk (c : Nat)
  /-- OWNERSHIP_TRANSFER_START (R261). -/
  | ownershipTransferStart (r : Nat)
  /-- OWNERSHIP_WRITEBACK_COMPLETE (R261). -/
  | ownershipWritebackComplete (r : Nat)
  /-- OWNERSHIP_TIMEOUT (R261). -/
  | ownershipTimeout (c : Nat)
  /-- DIE_CACHE_WRITEBACK (R325). -/
  | dieCacheWriteback (d line : Nat)
  /-- GATED_UNIT_WAKE (R269). -/
  | gatedUnitWake (c : Nat)
  /-- SHOOTDOWN_GO (R264). -/
  | shootdownGo (v : Word)
  /-- SHOOTDOWN_COMPLETE (R264). -/
  | shootdownComplete
  /-- TRANSFER_START (R291). -/
  | transferStart (c ch id : Nat)
  /-- TRANSFER_COMPLETE (R291). -/
  | transferComplete (c ch id : Nat)
  /-- TRANSFER_ELEMENT_FAULT (R292). -/
  | transferElementFault (c ch id : Nat)
  /-- TRANSFER_DATA_FAULT (R291). -/
  | transferDataFault (c ch id : Nat)
  /-- PORTER_ECALL (R305). -/
  | porterEcall (c side : Nat)
  /-- PORTER_EXCEPTION (R305). -/
  | porterException (c side : Nat)
  /-- PORTER_FAULT (R306). -/
  | porterFault (c side : Nat)
  /-- PORTER_BLOCK_COMPLETE (R307). -/
  | porterBlockComplete (c side : Nat)
  /-- PORTER_WAKE (R307). -/
  | porterWake (c side : Nat)
  /-- WAIT_LIMIT_EXPIRY (R359). -/
  | waitLimitExpiry (c id : Nat)
  /-- BARRIER_BANK_SERVICE (R358). -/
  | barrierBankService (c : Nat)
  /-- REGION_DIRECTORY_ACCESS (R370). -/
  | regionDirectoryAccess (c id : Nat)
  /-- REGION_JOIN (R369). -/
  | regionJoin (slot m : Nat)
  /-- REGION_LEAVE (R369). -/
  | regionLeave (slot m : Nat)
  /-- REGION_VOTE (R369). -/
  | regionVote (slot m : Nat)
  /-- REGION_ABORT (R369). -/
  | regionAbort (slot m : Nat)
  /-- REGION_LOCKS_HELD (R371). -/
  | regionLocksHeld (slot : Nat)
  /-- REGION_LINES_WRITTEN (R369). -/
  | regionLinesWritten (slot : Nat)
  /-- REGION_ENTRIES_DISCARDED (R369). -/
  | regionEntriesDiscarded (slot : Nat)
  /-- REGION_FREED (R369). -/
  | regionFreed (slot : Nat)
  /-- REGION_OUTCOME_DELIVERY (R372). -/
  | regionOutcomeDelivery (slot m : Nat)
  /-- PORT_TRAIN (R385). -/
  | portTrain (n : Nat)
  /-- PORT_TRAINED (R385). -/
  | portTrained (n lanes : Nat)
  /-- PORT_TRAINING_TIMEOUT (R385). -/
  | portTrainingTimeout (n : Nat)
  /-- LANE_LOST (R385). -/
  | laneLost (n : Nat)
  /-- FLIT_RECEIVE (R384). -/
  | flitReceive (n : Nat) (good : Bool) (words : List Word)
  /-- RETRY_EXHAUSTED (R384). -/
  | retryExhausted (n : Nat)
  /-- MSG_ARRIVAL (R404). -/
  | msgArrival (seq : Nat)
  /-- HELD_MESSAGE_RETRY (R404). -/
  | heldMessageRetry (seq : Nat)
  /-- RWR_ARRIVAL (R405). -/
  | rwrArrival (seq : Nat)
  /-- RAMO_ARRIVAL (R405). -/
  | ramoArrival (seq : Nat)
  /-- RAMO_REPLY (R405). -/
  | ramoReply (c id : Nat) (v : Word) (lost : Bool)
  /-- REDUCTION_CONTRIBUTION (R396). -/
  | reductionContribution (seq : Nat)
  /-- WAVE_START (R391). -/
  | waveStart
  /-- WAVE_PASS_END (R391). -/
  | wavePassEnd (others : List (Nat × Nat × Nat × Nat))
  /-- WQUIET_TIMEOUT (R406). -/
  | wquietTimeout (c : Nat)
  /-- REDUCTION_WINDOW_WRITE (R395). -/
  | reductionWindowWrite (w off : Nat) (v : Word)
  /-- WINDOW_INSTALLED (R395). -/
  | windowInstalled (w : Nat)
  /-- LANDING_WINDOW_WRITE (R399). -/
  | landingWindowWrite (p w off : Nat) (v : Word)
  /-- PCIE_PEER_WRITE (R400). -/
  | pciePeerWrite (port fn w off : Nat) (bytes : List Byte)
  /-- PCIE_WINDOW_READ (R400). -/
  | pcieWindowRead (port fn w off n : Nat)
  /-- PCIE_DOORBELL_WRITE (R401). -/
  | pcieDoorbellWrite (port fn off : Nat) (bytes : List Byte)
  /-- PCIE_DOORBELL_READ (R401). -/
  | pcieDoorbellRead (port fn w : Nat)
  /-- PCIE_FLR (R398). -/
  | pcieFlr (port fn : Nat)
  /-- PCIE_DPC_CONTAINMENT (R398). -/
  | pcieDpcContainment (port : Nat)
  /-- PCIE_LINK_TRAINING (R398). -/
  | pcieLinkTraining (port : Nat)
  /-- PLDM_REQUEST_UPDATE (R445). -/
  | pldmRequestUpdate
  /-- IMAGE_TRANSFER_COMPLETE (R445). -/
  | imageTransferComplete (bytes : List Byte)
  /-- PLDM_APPLY_COMPLETE (R445). -/
  | pldmApplyComplete
  /-- PLDM_ACTIVATE_FIRMWARE (R445). -/
  | pldmActivateFirmware
  /-- PLDM_CANCEL_UPDATE (R445). -/
  | pldmCancelUpdate
  /-- LANTERN_IMAGE_SWITCH (R446). -/
  | lanternImageSwitch (c : Nat)
  /-- POWER_ON (R452). -/
  | powerOn
  /-- SPDM_GET_MEASUREMENTS (R451). -/
  | spdmGetMeasurements
  /-- SPDM_KEY_INSTALL (R448). -/
  | spdmKeyInstall (p cls : Nat) (bits : BitVec 256)
  /-- THROTTLE_WINDOW (R454). -/
  | throttleWindow (watts : Nat)
  /-- THERMAL_TRIP (R455). -/
  | thermalTrip (d : Nat)
  /-- REGISTER_WRITE (R5). -/
  | registerWrite (off : Nat) (v : Word)
  /-- PORTER_RV32IM_INSTRUCTION (R305). -/
  | porterRv32imInstruction (w : BitVec 32)
  /-- PCIE_DPC_RELEASE (R398). -/
  | pcieDpcRelease (port : Nat)
  /-- HOST_STORE (R263). -/
  | hostStore (pa : Nat) (bytes : List Byte)
  /-- LOAD_PERFORM (R271). -/
  | loadPerform (c id : Nat)
  /-- IMAGE_TRANSFER_ABORTED (R445). -/
  | imageTransferAborted
  /-- CPOST (R93). -/
  | cpost (d s : BitVec 5)
  /-- CJOIN (R94). -/
  | cjoin (t s d : BitVec 5)
  /-- CQUERY (R95). -/
  | cquery (d s : BitVec 5)
  /-- CKILL (R96). -/
  | ckill (d : BitVec 5)
  /-- CCREATE (R97). -/
  | ccreate (t s d : BitVec 5)
  /-- CFREE (R97). -/
  | cfree (d s : BitVec 5)
  /-- CBIND (R80). -/
  | cbind (d s : BitVec 5)
  /-- CSAVE (R97). -/
  | csave (d s : BitVec 5)
  /-- CLOAD (R97). -/
  | cload (d s : BitVec 5)
  /-- CRESUME (R97). -/
  | cresume (t s d : BitVec 5)
  /-- CADOPT (R97). -/
  | cadopt (d s : BitVec 5)
  /-- CCKPT (R97). -/
  | cckpt (d s : BitVec 5)
  /-- PLD (R307). -/
  | pld (b a d : BitVec 5)
  /-- PST (R307). -/
  | pst (b a d : BitVec 5)
  /-- PLDS (R307). -/
  | plds (a d : BitVec 5)
  /-- PGATH (R307). -/
  | pgath (b a d : BitVec 5)
  /-- PCTR (R307). -/
  | pctr (b a d : BitVec 5)
  /-- PWAIT (R307). -/
  | pwait (b a d : BitVec 5)
  /-- PTOK (R307). -/
  | ptok (b a d : BitVec 5)
  /-- PSIGW (R307). -/
  | psigw (d : BitVec 5)
  /-- PFENCE (R307). -/
  | pfence (d : BitVec 5)
  /-- MOVE_REGISTER (R31). -/
  | moveRegister (g : BitVec 3) (e : Bool) (s : BitVec 10) (r : BitVec 8)
  /-- MOVE_PORT (R31). -/
  | movePort (g : BitVec 3) (e : Bool) (s : BitVec 10) (u : BitVec 3) (p : BitVec 5)
  /-- DISCARD (R31). -/
  | discard (g : BitVec 3) (e : Bool) (s : BitVec 10)
  /-- BUSDRIVE (R302). -/
  | busdrive (g : BitVec 3) (e : Bool) (s : BitVec 10)
  /-- BUSLAND (R302). -/
  | busland (g : BitVec 3) (e : Bool) (s : BitVec 10)
  /-- EMPTY_MOVE (R29). -/
  | emptyMove
  /-- ADD (R184). -/
  | add (g : BitVec 3) (e : Bool) (s : BitVec 10)
  /-- SUB (R184). -/
  | sub (g : BitVec 3) (e : Bool) (s : BitVec 10)
  /-- ADDW (R184). -/
  | addw (g : BitVec 3) (e : Bool) (s : BitVec 10)
  /-- SUBW (R184). -/
  | subw (g : BitVec 3) (e : Bool) (s : BitVec 10)
  /-- MUL (R185). -/
  | mul (g : BitVec 3) (e : Bool) (s : BitVec 10)
  /-- MULH (R185). -/
  | mulh (g : BitVec 3) (e : Bool) (s : BitVec 10)
  /-- MULHU (R185). -/
  | mulhu (g : BitVec 3) (e : Bool) (s : BitVec 10)
  /-- MULW (R185). -/
  | mulw (g : BitVec 3) (e : Bool) (s : BitVec 10)
  /-- DIV (R186). -/
  | div (g : BitVec 3) (e : Bool) (s : BitVec 10)
  /-- DIVU (R186). -/
  | divu (g : BitVec 3) (e : Bool) (s : BitVec 10)
  /-- REM (R186). -/
  | rem (g : BitVec 3) (e : Bool) (s : BitVec 10)
  /-- REMU (R186). -/
  | remu (g : BitVec 3) (e : Bool) (s : BitVec 10)
  /-- AND (R187). -/
  | and (g : BitVec 3) (e : Bool) (s : BitVec 10)
  /-- OR (R187). -/
  | or (g : BitVec 3) (e : Bool) (s : BitVec 10)
  /-- XOR (R187). -/
  | xor (g : BitVec 3) (e : Bool) (s : BitVec 10)
  /-- ANDN (R187). -/
  | andn (g : BitVec 3) (e : Bool) (s : BitVec 10)
  /-- SLL (R187). -/
  | sll (g : BitVec 3) (e : Bool) (s : BitVec 10)
  /-- SRL (R187). -/
  | srl (g : BitVec 3) (e : Bool) (s : BitVec 10)
  /-- SRA (R187). -/
  | sra (g : BitVec 3) (e : Bool) (s : BitVec 10)
  /-- ROL (R187). -/
  | rol (g : BitVec 3) (e : Bool) (s : BitVec 10)
  /-- CLZ (R188). -/
  | clz (g : BitVec 3) (e : Bool) (s : BitVec 10)
  /-- CTZ (R188). -/
  | ctz (g : BitVec 3) (e : Bool) (s : BitVec 10)
  /-- POPC (R188). -/
  | popc (g : BitVec 3) (e : Bool) (s : BitVec 10)
  /-- BREV (R188). -/
  | brev (g : BitVec 3) (e : Bool) (s : BitVec 10)
  /-- MIN (R189). -/
  | min (g : BitVec 3) (e : Bool) (s : BitVec 10)
  /-- MAX (R189). -/
  | max (g : BitVec 3) (e : Bool) (s : BitVec 10)
  /-- MINU (R189). -/
  | minu (g : BitVec 3) (e : Bool) (s : BitVec 10)
  /-- MAXU (R189). -/
  | maxu (g : BitVec 3) (e : Bool) (s : BitVec 10)
  /-- ABS (R189). -/
  | abs (g : BitVec 3) (e : Bool) (s : BitVec 10)
  /-- NEG (R189). -/
  | neg (g : BitVec 3) (e : Bool) (s : BitVec 10)
  /-- ADDS (R184). -/
  | adds (g : BitVec 3) (e : Bool) (s : BitVec 10)
  /-- SUBS (R184). -/
  | subs (g : BitVec 3) (e : Bool) (s : BitVec 10)
  /-- CEQ (R190). -/
  | ceq (g : BitVec 3) (e : Bool) (s : BitVec 10)
  /-- CNE (R190). -/
  | cne (g : BitVec 3) (e : Bool) (s : BitVec 10)
  /-- CLT (R190). -/
  | clt (g : BitVec 3) (e : Bool) (s : BitVec 10)
  /-- CLTU (R190). -/
  | cltu (g : BitVec 3) (e : Bool) (s : BitVec 10)
  /-- CLE (R190). -/
  | cle (g : BitVec 3) (e : Bool) (s : BitVec 10)
  /-- CLEU (R190). -/
  | cleu (g : BitVec 3) (e : Bool) (s : BitVec 10)
  /-- CTST (R190). -/
  | ctst (g : BitVec 3) (e : Bool) (s : BitVec 10)
  /-- CBIT (R190). -/
  | cbit (g : BitVec 3) (e : Bool) (s : BitVec 10)
  /-- SEL (R191). -/
  | sel (g : BitVec 3) (e : Bool) (s : BitVec 10)
  /-- EXT (R192). -/
  | ext (g : BitVec 3) (e : Bool) (s : BitVec 10)
  /-- EXTU (R192). -/
  | extu (g : BitVec 3) (e : Bool) (s : BitVec 10)
  /-- INS (R192). -/
  | ins (g : BitVec 3) (e : Bool) (s : BitVec 10)
  /-- LEA (R193). -/
  | lea (g : BitVec 3) (e : Bool) (s : BitVec 10)
  /-- LEA2 (R193). -/
  | lea2 (g : BitVec 3) (e : Bool) (s : BitVec 10)
  /-- MOVK (R193). -/
  | movk (g : BitVec 3) (e : Bool) (s : BitVec 10)
  /-- CRC (R198). -/
  | crc (g : BitVec 3) (e : Bool) (s : BitVec 10)
  /-- PAND (R194). -/
  | pand (g : BitVec 3) (e : Bool) (s : BitVec 10)
  /-- POR (R194). -/
  | por (g : BitVec 3) (e : Bool) (s : BitVec 10)
  /-- PXOR (R194). -/
  | pxor (g : BitVec 3) (e : Bool) (s : BitVec 10)
  /-- PNOT (R194). -/
  | pnot (g : BitVec 3) (e : Bool) (s : BitVec 10)
  /-- PANDN (R194). -/
  | pandn (g : BitVec 3) (e : Bool) (s : BitVec 10)
  /-- PMOV (R194). -/
  | pmov (g : BitVec 3) (e : Bool) (s : BitVec 10)
  /-- PGET (R194). -/
  | pget (g : BitVec 3) (e : Bool) (s : BitVec 10)
  /-- PALL (R194). -/
  | pall (g : BitVec 3) (e : Bool) (s : BitVec 10)
  /-- CHKEQ (R195). -/
  | chkeq (g : BitVec 3) (e : Bool) (s : BitVec 10)
  /-- CHKP (R195). -/
  | chkp (g : BitVec 3) (e : Bool) (s : BitVec 10)
  /-- RDSPEC (R196). -/
  | rdspec (g : BitVec 3) (e : Bool) (s : BitVec 10)
  /-- WRSPEC (R196). -/
  | wrspec (g : BitVec 3) (e : Bool) (s : BitVec 10)
  /-- RAND (R197). -/
  | rand (g : BitVec 3) (e : Bool) (s : BitVec 10)
  /-- MIX (R198). -/
  | mix (g : BitVec 3) (e : Bool) (s : BitVec 10)
  /-- BSWAP (R198). -/
  | bswap (g : BitVec 3) (e : Bool) (s : BitVec 10)
  /-- NOP (R199). -/
  | nop (g : BitVec 3) (e : Bool) (s : BitVec 10)
  /-- FADD_D (R201). -/
  | faddD (g : BitVec 3) (e : Bool) (s : BitVec 10)
  /-- FSUB_D (R201). -/
  | fsubD (g : BitVec 3) (e : Bool) (s : BitVec 10)
  /-- FMUL_D (R201). -/
  | fmulD (g : BitVec 3) (e : Bool) (s : BitVec 10)
  /-- FFMA_D (R201). -/
  | ffmaD (g : BitVec 3) (e : Bool) (s : BitVec 10)
  /-- FDIV_D (R201). -/
  | fdivD (g : BitVec 3) (e : Bool) (s : BitVec 10)
  /-- FSQRT_D (R201). -/
  | fsqrtD (g : BitVec 3) (e : Bool) (s : BitVec 10)
  /-- FMIN_D (R202). -/
  | fminD (g : BitVec 3) (e : Bool) (s : BitVec 10)
  /-- FMAX_D (R202). -/
  | fmaxD (g : BitVec 3) (e : Bool) (s : BitVec 10)
  /-- FADD_S (R201). -/
  | faddS (g : BitVec 3) (e : Bool) (s : BitVec 10)
  /-- FSUB_S (R201). -/
  | fsubS (g : BitVec 3) (e : Bool) (s : BitVec 10)
  /-- FMUL_S (R201). -/
  | fmulS (g : BitVec 3) (e : Bool) (s : BitVec 10)
  /-- FFMA_S (R201). -/
  | ffmaS (g : BitVec 3) (e : Bool) (s : BitVec 10)
  /-- FDIV_S (R201). -/
  | fdivS (g : BitVec 3) (e : Bool) (s : BitVec 10)
  /-- FSQRT_S (R201). -/
  | fsqrtS (g : BitVec 3) (e : Bool) (s : BitVec 10)
  /-- FMIN_S (R202). -/
  | fminS (g : BitVec 3) (e : Bool) (s : BitVec 10)
  /-- FMAX_S (R202). -/
  | fmaxS (g : BitVec 3) (e : Bool) (s : BitVec 10)
  /-- FCEQ_D (R203). -/
  | fceqD (g : BitVec 3) (e : Bool) (s : BitVec 10)
  /-- FCLT_D (R203). -/
  | fcltD (g : BitVec 3) (e : Bool) (s : BitVec 10)
  /-- FCLE_D (R203). -/
  | fcleD (g : BitVec 3) (e : Bool) (s : BitVec 10)
  /-- FCEQ_S (R203). -/
  | fceqS (g : BitVec 3) (e : Bool) (s : BitVec 10)
  /-- FCLT_S (R203). -/
  | fcltS (g : BitVec 3) (e : Bool) (s : BitVec 10)
  /-- FCLE_S (R203). -/
  | fcleS (g : BitVec 3) (e : Bool) (s : BitVec 10)
  /-- FCLASS (R204). -/
  | fclass (g : BitVec 3) (e : Bool) (s : BitVec 10)
  /-- FCVT_S_D (R205). -/
  | fcvtSD (g : BitVec 3) (e : Bool) (s : BitVec 10)
  /-- FCVT_D_S (R205). -/
  | fcvtDS (g : BitVec 3) (e : Bool) (s : BitVec 10)
  /-- FCVT_D_L (R205). -/
  | fcvtDL (g : BitVec 3) (e : Bool) (s : BitVec 10)
  /-- FCVT_L_D (R205). -/
  | fcvtLD (g : BitVec 3) (e : Bool) (s : BitVec 10)
  /-- FCVT_S_W (R205). -/
  | fcvtSW (g : BitVec 3) (e : Bool) (s : BitVec 10)
  /-- FCVT_W_S (R205). -/
  | fcvtWS (g : BitVec 3) (e : Bool) (s : BitVec 10)
  /-- FCVT_BF_S (R205). -/
  | fcvtBfS (g : BitVec 3) (e : Bool) (s : BitVec 10)
  /-- FCVT_S_BF (R205). -/
  | fcvtSBf (g : BitVec 3) (e : Bool) (s : BitVec 10)
  /-- FRND (R206). -/
  | frnd (g : BitVec 3) (e : Bool) (s : BitVec 10)
  /-- LD_B (R274). -/
  | ldB (g : BitVec 3) (e : Bool) (s : BitVec 10)
  /-- LD_H (R274). -/
  | ldH (g : BitVec 3) (e : Bool) (s : BitVec 10)
  /-- LD_W (R274). -/
  | ldW (g : BitVec 3) (e : Bool) (s : BitVec 10)
  /-- LD_D (R274). -/
  | ldD (g : BitVec 3) (e : Bool) (s : BitVec 10)
  /-- LDS_B (R274). -/
  | ldsB (g : BitVec 3) (e : Bool) (s : BitVec 10)
  /-- LDS_H (R274). -/
  | ldsH (g : BitVec 3) (e : Bool) (s : BitVec 10)
  /-- LDS_W (R274). -/
  | ldsW (g : BitVec 3) (e : Bool) (s : BitVec 10)
  /-- ST_B (R275). -/
  | stB (g : BitVec 3) (e : Bool) (s : BitVec 10)
  /-- ST_H (R275). -/
  | stH (g : BitVec 3) (e : Bool) (s : BitVec 10)
  /-- ST_W (R275). -/
  | stW (g : BitVec 3) (e : Bool) (s : BitVec 10)
  /-- ST_D (R275). -/
  | stD (g : BitVec 3) (e : Bool) (s : BitVec 10)
  /-- VLD (R276). -/
  | vld (g : BitVec 3) (e : Bool) (s : BitVec 10)
  /-- VST (R276). -/
  | vst (g : BitVec 3) (e : Bool) (s : BitVec 10)
  /-- VGATH (R277). -/
  | vgath (g : BitVec 3) (e : Bool) (s : BitVec 10)
  /-- VSCAT (R277). -/
  | vscat (g : BitVec 3) (e : Bool) (s : BitVec 10)
  /-- LDR (R278). -/
  | ldr (g : BitVec 3) (e : Bool) (s : BitVec 10)
  /-- AMO (R349). -/
  | amo (g : BitVec 3) (e : Bool) (s : BitVec 10)
  /-- CAS (R350). -/
  | cas (g : BitVec 3) (e : Bool) (s : BitVec 10)
  /-- QINCB (R351). -/
  | qincb (g : BitVec 3) (e : Bool) (s : BitVec 10)
  /-- QINCW (R351). -/
  | qincw (g : BitVec 3) (e : Bool) (s : BitVec 10)
  /-- QDECP (R351). -/
  | qdecp (g : BitVec 3) (e : Bool) (s : BitVec 10)
  /-- QADDL (R351). -/
  | qaddl (g : BitVec 3) (e : Bool) (s : BitVec 10)
  /-- CTRADD (R352). -/
  | ctradd (g : BitVec 3) (e : Bool) (s : BitVec 10)
  /-- CTRWAIT (R353). -/
  | ctrwait (g : BitVec 3) (e : Bool) (s : BitVec 10)
  /-- CTRRD (R354). -/
  | ctrrd (g : BitVec 3) (e : Bool) (s : BitVec 10)
  /-- BARINIT (R355). -/
  | barinit (g : BitVec 3) (e : Bool) (s : BitVec 10)
  /-- BARV (R356). -/
  | barv (g : BitVec 3) (e : Bool) (s : BitVec 10)
  /-- BARW (R357). -/
  | barw (g : BitVec 3) (e : Bool) (s : BitVec 10)
  /-- FENCE (R279). -/
  | fence (g : BitVec 3) (e : Bool) (s : BitVec 10)
  /-- TLOOK (R280). -/
  | tlook (g : BitVec 3) (e : Bool) (s : BitVec 10)
  /-- TSET (R280). -/
  | tset (g : BitVec 3) (e : Bool) (s : BitVec 10)
  /-- BND (R282). -/
  | bnd (g : BitVec 3) (e : Bool) (s : BitVec 10)
  /-- VADD (R214). -/
  | vadd (g : BitVec 3) (e : Bool) (s : BitVec 10)
  /-- VSUB (R214). -/
  | vsub (g : BitVec 3) (e : Bool) (s : BitVec 10)
  /-- VMUL (R214). -/
  | vmul (g : BitVec 3) (e : Bool) (s : BitVec 10)
  /-- VFMA (R214). -/
  | vfma (g : BitVec 3) (e : Bool) (s : BitVec 10)
  /-- VFMS (R214). -/
  | vfms (g : BitVec 3) (e : Bool) (s : BitVec 10)
  /-- VMIN (R214). -/
  | vmin (g : BitVec 3) (e : Bool) (s : BitVec 10)
  /-- VMAX (R214). -/
  | vmax (g : BitVec 3) (e : Bool) (s : BitVec 10)
  /-- VABS (R214). -/
  | vabs (g : BitVec 3) (e : Bool) (s : BitVec 10)
  /-- VNEG (R214). -/
  | vneg (g : BitVec 3) (e : Bool) (s : BitVec 10)
  /-- VDIV (R214). -/
  | vdiv (g : BitVec 3) (e : Bool) (s : BitVec 10)
  /-- VSQRT (R214). -/
  | vsqrt (g : BitVec 3) (e : Bool) (s : BitVec 10)
  /-- VRCP (R214). -/
  | vrcp (g : BitVec 3) (e : Bool) (s : BitVec 10)
  /-- VRSQ (R214). -/
  | vrsq (g : BitVec 3) (e : Bool) (s : BitVec 10)
  /-- VEXP2 (R215). -/
  | vexp2 (g : BitVec 3) (e : Bool) (s : BitVec 10)
  /-- VLOG2 (R215). -/
  | vlog2 (g : BitVec 3) (e : Bool) (s : BitVec 10)
  /-- VSINCOS (R215). -/
  | vsincos (g : BitVec 3) (e : Bool) (s : BitVec 10)
  /-- VCMUL (R216). -/
  | vcmul (g : BitVec 3) (e : Bool) (s : BitVec 10)
  /-- VCONJ (R216). -/
  | vconj (g : BitVec 3) (e : Bool) (s : BitVec 10)
  /-- VBFLY (R216). -/
  | vbfly (g : BitVec 3) (e : Bool) (s : BitVec 10)
  /-- VAND (R217). -/
  | vand (g : BitVec 3) (e : Bool) (s : BitVec 10)
  /-- VOR (R217). -/
  | vor (g : BitVec 3) (e : Bool) (s : BitVec 10)
  /-- VXOR (R217). -/
  | vxor (g : BitVec 3) (e : Bool) (s : BitVec 10)
  /-- VSHL (R217). -/
  | vshl (g : BitVec 3) (e : Bool) (s : BitVec 10)
  /-- VSHR (R217). -/
  | vshr (g : BitVec 3) (e : Bool) (s : BitVec 10)
  /-- VCEQ (R218). -/
  | vceq (g : BitVec 3) (e : Bool) (s : BitVec 10)
  /-- VCLT (R218). -/
  | vclt (g : BitVec 3) (e : Bool) (s : BitVec 10)
  /-- VCLE (R218). -/
  | vcle (g : BitVec 3) (e : Bool) (s : BitVec 10)
  /-- VSEL (R218). -/
  | vsel (g : BitVec 3) (e : Bool) (s : BitVec 10)
  /-- VCVT (R219). -/
  | vcvt (g : BitVec 3) (e : Bool) (s : BitVec 10)
  /-- VPERM (R220). -/
  | vperm (g : BitVec 3) (e : Bool) (s : BitVec 10)
  /-- VSHUF (R220). -/
  | vshuf (g : BitVec 3) (e : Bool) (s : BitVec 10)
  /-- VBCAST (R220). -/
  | vbcast (g : BitVec 3) (e : Bool) (s : BitVec 10)
  /-- VREDADD (R221). -/
  | vredadd (g : BitVec 3) (e : Bool) (s : BitVec 10)
  /-- VREDMAX (R221). -/
  | vredmax (g : BitVec 3) (e : Bool) (s : BitVec 10)
  /-- VREDMIN (R221). -/
  | vredmin (g : BitVec 3) (e : Bool) (s : BitVec 10)
  /-- VSCAN (R221). -/
  | vscan (g : BitVec 3) (e : Bool) (s : BitVec 10)
  /-- VIDX (R222). -/
  | vidx (g : BitVec 3) (e : Bool) (s : BitVec 10)
  /-- VEXTR (R222). -/
  | vextr (g : BitVec 3) (e : Bool) (s : BitVec 10)
  /-- VINSR (R222). -/
  | vinsr (g : BitVec 3) (e : Bool) (s : BitVec 10)
  /-- VQOP (R223). -/
  | vqop (g : BitVec 3) (e : Bool) (s : BitVec 10)
  /-- VQPOP (R223). -/
  | vqpop (g : BitVec 3) (e : Bool) (s : BitVec 10)
  /-- VCHK (R224). -/
  | vchk (g : BitVec 3) (e : Bool) (s : BitVec 10)
  /-- VDOT (R225). -/
  | vdot (g : BitVec 3) (e : Bool) (s : BitVec 10)
  /-- VCLAMP (R225). -/
  | vclamp (g : BitVec 3) (e : Bool) (s : BitVec 10)
  /-- VRND (R219). -/
  | vrnd (g : BitVec 3) (e : Bool) (s : BitVec 10)
  /-- VMOVQ (R223). -/
  | vmovq (g : BitVec 3) (e : Bool) (s : BitVec 10)
  /-- VPACK (R219). -/
  | vpack (g : BitVec 3) (e : Bool) (s : BitVec 10)
  /-- VUNPK (R219). -/
  | vunpk (g : BitVec 3) (e : Bool) (s : BitVec 10)
  /-- MMA (R240). -/
  | mma (g : BitVec 3) (e : Bool) (s : BitVec 10)
  /-- MMAG (R240). -/
  | mmag (g : BitVec 3) (e : Bool) (s : BitVec 10)
  /-- MZERO (R242). -/
  | mzero (g : BitVec 3) (e : Bool) (s : BitVec 10)
  /-- MLDC (R243). -/
  | mldc (g : BitVec 3) (e : Bool) (s : BitVec 10)
  /-- MSTC (R243). -/
  | mstc (g : BitVec 3) (e : Bool) (s : BitVec 10)
  /-- MCVT (R244). -/
  | mcvt (g : BitVec 3) (e : Bool) (s : BitVec 10)
  /-- TIDW (R248). -/
  | tidw (g : BitVec 3) (e : Bool) (s : BitVec 10)
  /-- TIDR (R248). -/
  | tidr (g : BitVec 3) (e : Bool) (s : BitVec 10)
  /-- CBLD (R249). -/
  | cbld (g : BitVec 3) (e : Bool) (s : BitVec 10)
  /-- MSEQ (R241). -/
  | mseq (g : BitVec 3) (e : Bool) (s : BitVec 10)
  /-- MSTAT (R247). -/
  | mstat (g : BitVec 3) (e : Bool) (s : BitVec 10)
  /-- MWIN (R250). -/
  | mwin (g : BitVec 3) (e : Bool) (s : BitVec 10)
  /-- MACC (R245). -/
  | macc (g : BitVec 3) (e : Bool) (s : BitVec 10)
  /-- MTRN (R245). -/
  | mtrn (g : BitVec 3) (e : Bool) (s : BitVec 10)
  /-- MCHK (R246). -/
  | mchk (g : BitVec 3) (e : Bool) (s : BitVec 10)
  /-- MSCALE (R245). -/
  | mscale (g : BitVec 3) (e : Bool) (s : BitVec 10)
  /-- CPSET (R296). -/
  | cpset (g : BitVec 3) (e : Bool) (s : BitVec 10)
  /-- CPGO (R297). -/
  | cpgo (g : BitVec 3) (e : Bool) (s : BitVec 10)
  /-- CPSTAT (R298). -/
  | cpstat (g : BitVec 3) (e : Bool) (s : BitVec 10)
  /-- CPABRT (R299). -/
  | cpabrt (g : BitVec 3) (e : Bool) (s : BitVec 10)
  /-- CPKEY (R301). -/
  | cpkey (g : BitVec 3) (e : Bool) (s : BitVec 10)
  /-- BUSSEL (R304). -/
  | bussel (g : BitVec 3) (e : Bool) (s : BitVec 10)
  /-- MSG (R404). -/
  | msg (g : BitVec 3) (e : Bool) (s : BitVec 10)
  /-- RWR (R405). -/
  | rwr (g : BitVec 3) (e : Bool) (s : BitVec 10)
  /-- RAMO (R405). -/
  | ramo (g : BitVec 3) (e : Bool) (s : BitVec 10)
  /-- RRED (R405). -/
  | rred (g : BitVec 3) (e : Bool) (s : BitVec 10)
  /-- WQUIET (R406). -/
  | wquiet (g : BitVec 3) (e : Bool) (s : BitVec 10)
  /-- JOBR (R407). -/
  | jobr (g : BitVec 3) (e : Bool) (s : BitVec 10)
  /-- PSTART (R308). -/
  | pstart (g : BitVec 3) (e : Bool) (s : BitVec 10)
  /-- PSIG (R308). -/
  | psig (g : BitVec 3) (e : Bool) (s : BitVec 10)
  /-- PSTAT (R308). -/
  | pstat (g : BitVec 3) (e : Bool) (s : BitVec 10)
  /-- CPFENCE (R300). -/
  | cpfence (g : BitVec 3) (e : Bool) (s : BitVec 10)
  /-- BR (R138). -/
  | br (g : BitVec 3) (e : Bool) (s : BitVec 10)
  /-- BRI (R138). -/
  | bri (g : BitVec 3) (e : Bool) (s : BitVec 10)
  /-- CALL (R139). -/
  | call (g : BitVec 3) (e : Bool) (s : BitVec 10)
  /-- RET (R139). -/
  | ret (g : BitVec 3) (e : Bool) (s : BitVec 10)
  /-- LOOP (R140). -/
  | loop (g : BitVec 3) (e : Bool) (s : BitVec 10)
  /-- LPOST (R141). -/
  | lpost (g : BitVec 3) (e : Bool) (s : BitVec 10)
  /-- LRUN (R141). -/
  | lrun (g : BitVec 3) (e : Bool) (s : BitVec 10)
  /-- LSPLIT (R142). -/
  | lsplit (g : BitVec 3) (e : Bool) (s : BitVec 10)
  /-- TEND (R143). -/
  | tend (g : BitVec 3) (e : Bool) (s : BitVec 10)
  /-- TGRP (R144). -/
  | tgrp (g : BitVec 3) (e : Bool) (s : BitVec 10)
  /-- SYS (R122). -/
  | sys (g : BitVec 3) (e : Bool) (s : BitVec 10)
  /-- TRAP (R146). -/
  | trap (g : BitVec 3) (e : Bool) (s : BitVec 10)
  /-- TWAIT (R143). -/
  | twait (g : BitVec 3) (e : Bool) (s : BitVec 10)
  /-- RDV (R145). -/
  | rdv (g : BitVec 3) (e : Bool) (s : BitVec 10)
  /-- ROPEN (R377). -/
  | ropen (g : BitVec 3) (e : Bool) (s : BitVec 10)
  /-- RJOIN (R378). -/
  | rjoin (g : BitVec 3) (e : Bool) (s : BitVec 10)
  /-- RVOTE (R379). -/
  | rvote (g : BitVec 3) (e : Bool) (s : BitVec 10)
  /-- RABORT (R380). -/
  | rabort (g : BitVec 3) (e : Bool) (s : BitVec 10)
  /-- RLEAVE (R381). -/
  | rleave (g : BitVec 3) (e : Bool) (s : BitVec 10)
  /-- RSTAT (R382). -/
  | rstat (g : BitVec 3) (e : Bool) (s : BitVec 10)
  /-- EPOP (R421). -/
  | epop (g : BitVec 3) (e : Bool) (s : BitVec 10)
  /-- EPUSH (R422). -/
  | epush (g : BitVec 3) (e : Bool) (s : BitVec 10)
  /-- ESTAT (R423). -/
  | estat (g : BitVec 3) (e : Bool) (s : BitVec 10)
  /-- ESTOP (R424). -/
  | estop (g : BitVec 3) (e : Bool) (s : BitVec 10)
  /-- CANCEL (R148). -/
  | cancel (g : BitVec 3) (e : Bool) (s : BitVec 10)
  /-- LAUNCH (R149). -/
  | launch (g : BitVec 3) (e : Bool) (s : BitVec 10)
  /-- SLEEP (R147). -/
  | sleep (g : BitVec 3) (e : Bool) (s : BitVec 10)
  /-- PRIO (R147). -/
  | prio (g : BitVec 3) (e : Bool) (s : BitVec 10)
  /-- SCHED (R175). -/
  | sched (g : BitVec 3) (e : Bool) (s : BitVec 10)
  /-- DBG (R146). -/
  | dbg (g : BitVec 3) (e : Bool) (s : BitVec 10)
  /-- WDOG (R146). -/
  | wdog (g : BitVec 3) (e : Bool) (s : BitVec 10)
  /-- HINT (R147). -/
  | hint (g : BitVec 3) (e : Bool) (s : BitVec 10)
  /-- ERET (R438). -/
  | eret (g : BitVec 3) (e : Bool) (s : BitVec 10)
  /-- SNAP (R176). -/
  | snap (g : BitVec 3) (e : Bool) (s : BitVec 10)
  /-- SNAPR (R176). -/
  | snapr (g : BitVec 3) (e : Bool) (s : BitVec 10)
  /-- SEGREW (R439). -/
  | segrew (g : BitVec 3) (e : Bool) (s : BitVec 10)
  /-- INJ (R440). -/
  | inj (g : BitVec 3) (e : Bool) (s : BitVec 10)
  /-- FCSR (R441). -/
  | fcsr (g : BitVec 3) (e : Bool) (s : BitVec 10)
  /-- TLBI (R283). -/
  | tlbi (g : BitVec 3) (e : Bool) (s : BitVec 10)
  /-- FAULTQ (R442). -/
  | faultq (g : BitVec 3) (e : Bool) (s : BitVec 10)
  /-- PARK (R177). -/
  | park (g : BitVec 3) (e : Bool) (s : BitVec 10)
  /-- UNPARK (R177). -/
  | unpark (g : BitVec 3) (e : Bool) (s : BitVec 10)
  /-- DUMP (R443). -/
  | dump (g : BitVec 3) (e : Bool) (s : BitVec 10)
  /-- FWSHARE (R178). -/
  | fwshare (g : BitVec 3) (e : Bool) (s : BitVec 10)
  /-- SLOTW (R179). -/
  | slotw (g : BitVec 3) (e : Bool) (s : BitVec 10)
  /-- KEYOP (R450). -/
  | keyop (g : BitVec 3) (e : Bool) (s : BitVec 10)
  /-- IDLE (R180). -/
  | idle (g : BitVec 3) (e : Bool) (s : BitVec 10)
  /-- ILL (R49). -/
  | ill (g : BitVec 3) (e : Bool) (s : BitVec 10)
  deriving DecidableEq, Repr

end Sys2Proof
end

