-- ==== Sys2Proof/WellFormed.lean ====
section
/-! DEFINITION. Which instructions are well formed: the terms that stand for something the part has. A term that is
not well formed either spells what another term already says (an all-zero move, a bundle of one move in its own slot),
or names a core, die, port or window that the package does not have. -/
namespace Sys2Proof

/-- The slot words of a bundle, in slot order. -/
def Bundle.slots (b : Bundle) : List (BitVec 24) := [b.w0, b.w1, b.w2, b.w3, b.w4, b.w5, b.w6, b.w7]

/-- The slot in which a move word stands when it is alone: a trigger in the first slot whose unit takes the opcode
(R48), any other move in slot 0 (R53). -/
def homeSlot (w : BitVec 24) : Nat :=
  if w.toNat / 256 % 4 = 2 then (Machine.Op.ofCode (w.toNat % 256)).homeSlot else 0

/-- The bundle that holds one move in slot `k` and nothing else. -/
def Bundle.one (k : Nat) (w : BitVec 24) : Bundle :=
  let at' (j : Nat) : BitVec 24 := if k = j then w else 0
  { hdr := 0, w0 := at' 0, w1 := at' 1, w2 := at' 2, w3 := at' 3, w4 := at' 4, w5 := at' 5, w6 := at' 6, w7 := at' 7 }

/-- The one move that is not empty, or 0. -/
def Bundle.only (b : Bundle) : BitVec 24 := b.w0 ||| b.w1 ||| b.w2 ||| b.w3 ||| b.w4 ||| b.w5 ||| b.w6 ||| b.w7

/-- Whether a move word is the word of a row of the table: every destination but the special destinations that R31
leaves out. -/
def moveWord? (w : BitVec 24) : Bool := decide (w.toNat / 256 % 4 ≠ 3) || decide (w.toNat % 256 ≤ 2)

/-- Whether a bundle says no more than one move does. -/
def Bundle.single (b : Bundle) : Bool := moveWord? b.only && decide (b = Bundle.one (homeSlot b.only) b.only)

/-- A move to a register that is not the empty move (R29). -/
def wfMove (g : BitVec 3) (e : Bool) (src : BitVec 10) (r : BitVec 8) : Bool :=
  decide (g ≠ 0) || e || decide (src ≠ 0) || decide (r ≠ 0)

/-- Which terms are well formed. -/
def Instr.wf : Instr → Bool
  | .bundleIssue b => !b.single
  | .resultLanding c => decide (c < 2048)
  | .deliveryLanding c _ => decide (c < 2048)
  | .arrivalOnRetire c => decide (c < 2048)
  | .segmentCommit c => decide (c < 2048)
  | .rewindDone c => decide (c < 2048)
  | .arrayOpComplete p => decide (p < 1024)
  | .mseqStepStart c => decide (c < 2048)
  | .idleWake c => decide (c < 2048)
  | .shareChangeEffect p => decide (p < 16)
  | .slotCellEffect d cell => decide (d < 4) && decide (cell < 16384)
  | .cjoinTimeout h => decide (h < 192)
  | .contPark _ => true
  | .contUnpark _ => true
  | .killDone _ => true
  | .attentionRetry p => decide (p < 16)
  | .faultSteeringWrite p _ => decide (p < 16)
  | .checkpointInterval => true
  | .checkpointComplete => true
  | .pktNop _ => true
  | .pktLaunch _ => true
  | .pktWait _ => true
  | .pktSignal _ => true
  | .pktPred _ => true
  | .pktLoop _ => true
  | .pktCall _ => true
  | .pktReturn _ => true
  | .pktFfence _ => true
  | .pktMark _ => true
  | .pktCopy _ => true
  | .pktBind _ => true
  | .pktUnknown _ => true
  | .implicitReturn _ => true
  | .streamWindowRefill _ => true
  | .ffenceRefill _ => true
  | .waitSatisfied _ => true
  | .waitPacketTimeout _ => true
  | .copyPacketComplete _ => true
  | .copyPacketFault _ => true
  | .sysCompletion _ => true
  | .sysReissue c => decide (c < 2048)
  | .launchPlace p => decide (p < 16)
  | .priorityAging _ => true
  | .teamStart _ => true
  | .coreResume c => decide (c < 2048)
  | .quantumExpiry _ => true
  | .imageSaved c => decide (c < 2048)
  | .clusterReclaim cl => decide (cl < 64)
  | .reclaimRetry cl => decide (cl < 64)
  | .clusterReturn cl => decide (cl < 64)
  | .launchDrained _ => true
  | .scoutProbe c => decide (c < 2048)
  | .stealArrival c => decide (c < 2048)
  | .twaitTimeout c => decide (c < 2048)
  | .watchdogExpiry c => decide (c < 2048)
  | .rendezvousRelease cl => decide (cl < 64)
  | .rendezvousTimeout c => decide (c < 2048)
  | .shareViolation c => decide (c < 2048)
  | .partitionPlanApply _ => true
  | .partitionReset p => decide (p < 16)
  | .debugHold c => decide (c < 2048)
  | .debugStep c => decide (c < 2048)
  | .debugRelease c => decide (c < 2048)
  | .globalRequestAccept c _ => decide (c < 2048)
  | .storePerform c _ => decide (c < 2048)
  | .pageWalk c => decide (c < 2048)
  | .ownershipTransferStart _ => true
  | .ownershipWritebackComplete _ => true
  | .ownershipTimeout c => decide (c < 2048)
  | .dieCacheWriteback d _ => decide (d < 4)
  | .gatedUnitWake c => decide (c < 2048)
  | .shootdownGo _ => true
  | .shootdownComplete => true
  | .transferStart c ch _ => decide (c < 2048) && decide (ch < 4)
  | .transferComplete c ch _ => decide (c < 2048) && decide (ch < 4)
  | .transferElementFault c ch _ => decide (c < 2048) && decide (ch < 4)
  | .transferDataFault c ch _ => decide (c < 2048) && decide (ch < 4)
  | .porterEcall c side => decide (c < 2048) && decide (side < 2)
  | .porterException c side => decide (c < 2048) && decide (side < 2)
  | .porterFault c side => decide (c < 2048) && decide (side < 2)
  | .porterBlockComplete c side => decide (c < 2048) && decide (side < 2)
  | .porterWake c side => decide (c < 2048) && decide (side < 2)
  | .waitLimitExpiry c _ => decide (c < 2048)
  | .barrierBankService c => decide (c < 2048)
  | .regionDirectoryAccess c _ => decide (c < 2048)
  | .regionJoin slot _ => decide (slot < 1024)
  | .regionLeave slot _ => decide (slot < 1024)
  | .regionVote slot _ => decide (slot < 1024)
  | .regionAbort slot _ => decide (slot < 1024)
  | .regionLocksHeld slot => decide (slot < 1024)
  | .regionLinesWritten slot => decide (slot < 1024)
  | .regionEntriesDiscarded slot => decide (slot < 1024)
  | .regionFreed slot => decide (slot < 1024)
  | .regionOutcomeDelivery slot _ => decide (slot < 1024)
  | .portTrain n => decide (n < 96)
  | .portTrained n _ => decide (n < 96)
  | .portTrainingTimeout n => decide (n < 96)
  | .laneLost n => decide (n < 96)
  | .flitReceive n _ _ => decide (n < 96)
  | .retryExhausted n => decide (n < 96)
  | .msgArrival _ => true
  | .heldMessageRetry _ => true
  | .rwrArrival _ => true
  | .ramoArrival _ => true
  | .ramoReply c _ _ _ => decide (c < 2048)
  | .reductionContribution _ => true
  | .waveStart => true
  | .wavePassEnd _ => true
  | .wquietTimeout c => decide (c < 2048)
  | .reductionWindowWrite w _ _ => decide (w < 64)
  | .windowInstalled w => decide (w < 64)
  | .landingWindowWrite p w _ _ => decide (p < 16) && decide (w < 16)
  | .pciePeerWrite port fn w _ _ => decide (port < 4) && decide (fn < 16) && decide (w < 16)
  | .pcieWindowRead port fn w _ _ => decide (port < 4) && decide (fn < 16) && decide (w < 16)
  | .pcieDoorbellWrite port fn _ _ => decide (port < 4) && decide (fn < 16)
  | .pcieDoorbellRead port fn w => decide (port < 4) && decide (fn < 16) && decide (w < 16)
  | .pcieFlr port fn => decide (port < 4) && decide (fn < 16)
  | .pcieDpcContainment port => decide (port < 4)
  | .pcieLinkTraining port => decide (port < 4)
  | .pldmRequestUpdate => true
  | .imageTransferComplete _ => true
  | .pldmApplyComplete => true
  | .pldmActivateFirmware => true
  | .pldmCancelUpdate => true
  | .lanternImageSwitch c => decide (c < 2048)
  | .powerOn => true
  | .spdmGetMeasurements => true
  | .spdmKeyInstall p _ _ => decide (p < 16)
  | .throttleWindow _ => true
  | .thermalTrip d => decide (d < 4)
  | .registerWrite _ _ => true
  | .porterRv32imInstruction w => Machine.Rv32.legal w
  | .pcieDpcRelease port => decide (port < 4)
  | .hostStore _ _ => true
  | .loadPerform c _ => decide (c < 2048)
  | .imageTransferAborted => true
  | .cpost _ _ => true
  | .cjoin _ _ _ => true
  | .cquery _ _ => true
  | .ckill _ => true
  | .ccreate _ _ _ => true
  | .cfree _ _ => true
  | .cbind _ _ => true
  | .csave _ _ => true
  | .cload _ _ => true
  | .cresume _ _ _ => true
  | .cadopt _ _ => true
  | .cckpt _ _ => true
  | .pld _ _ _ => true
  | .pst _ _ _ => true
  | .plds _ _ => true
  | .pgath _ _ _ => true
  | .pctr _ _ _ => true
  | .pwait _ _ _ => true
  | .ptok _ _ _ => true
  | .psigw _ => true
  | .pfence _ => true
  | .moveRegister g e src r => wfMove g e src r
  | .movePort _ _ _ _ _ => true
  | .discard _ _ _ => true
  | .busdrive _ _ _ => true
  | .busland _ _ _ => true
  | .emptyMove => true
  | .add _ _ _ => true
  | .sub _ _ _ => true
  | .addw _ _ _ => true
  | .subw _ _ _ => true
  | .mul _ _ _ => true
  | .mulh _ _ _ => true
  | .mulhu _ _ _ => true
  | .mulw _ _ _ => true
  | .div _ _ _ => true
  | .divu _ _ _ => true
  | .rem _ _ _ => true
  | .remu _ _ _ => true
  | .and _ _ _ => true
  | .or _ _ _ => true
  | .xor _ _ _ => true
  | .andn _ _ _ => true
  | .sll _ _ _ => true
  | .srl _ _ _ => true
  | .sra _ _ _ => true
  | .rol _ _ _ => true
  | .clz _ _ _ => true
  | .ctz _ _ _ => true
  | .popc _ _ _ => true
  | .brev _ _ _ => true
  | .min _ _ _ => true
  | .max _ _ _ => true
  | .minu _ _ _ => true
  | .maxu _ _ _ => true
  | .abs _ _ _ => true
  | .neg _ _ _ => true
  | .adds _ _ _ => true
  | .subs _ _ _ => true
  | .ceq _ _ _ => true
  | .cne _ _ _ => true
  | .clt _ _ _ => true
  | .cltu _ _ _ => true
  | .cle _ _ _ => true
  | .cleu _ _ _ => true
  | .ctst _ _ _ => true
  | .cbit _ _ _ => true
  | .sel _ _ _ => true
  | .ext _ _ _ => true
  | .extu _ _ _ => true
  | .ins _ _ _ => true
  | .lea _ _ _ => true
  | .lea2 _ _ _ => true
  | .movk _ _ _ => true
  | .crc _ _ _ => true
  | .pand _ _ _ => true
  | .por _ _ _ => true
  | .pxor _ _ _ => true
  | .pnot _ _ _ => true
  | .pandn _ _ _ => true
  | .pmov _ _ _ => true
  | .pget _ _ _ => true
  | .pall _ _ _ => true
  | .chkeq _ _ _ => true
  | .chkp _ _ _ => true
  | .rdspec _ _ _ => true
  | .wrspec _ _ _ => true
  | .rand _ _ _ => true
  | .mix _ _ _ => true
  | .bswap _ _ _ => true
  | .nop _ _ _ => true
  | .faddD _ _ _ => true
  | .fsubD _ _ _ => true
  | .fmulD _ _ _ => true
  | .ffmaD _ _ _ => true
  | .fdivD _ _ _ => true
  | .fsqrtD _ _ _ => true
  | .fminD _ _ _ => true
  | .fmaxD _ _ _ => true
  | .faddS _ _ _ => true
  | .fsubS _ _ _ => true
  | .fmulS _ _ _ => true
  | .ffmaS _ _ _ => true
  | .fdivS _ _ _ => true
  | .fsqrtS _ _ _ => true
  | .fminS _ _ _ => true
  | .fmaxS _ _ _ => true
  | .fceqD _ _ _ => true
  | .fcltD _ _ _ => true
  | .fcleD _ _ _ => true
  | .fceqS _ _ _ => true
  | .fcltS _ _ _ => true
  | .fcleS _ _ _ => true
  | .fclass _ _ _ => true
  | .fcvtSD _ _ _ => true
  | .fcvtDS _ _ _ => true
  | .fcvtDL _ _ _ => true
  | .fcvtLD _ _ _ => true
  | .fcvtSW _ _ _ => true
  | .fcvtWS _ _ _ => true
  | .fcvtBfS _ _ _ => true
  | .fcvtSBf _ _ _ => true
  | .frnd _ _ _ => true
  | .ldB _ _ _ => true
  | .ldH _ _ _ => true
  | .ldW _ _ _ => true
  | .ldD _ _ _ => true
  | .ldsB _ _ _ => true
  | .ldsH _ _ _ => true
  | .ldsW _ _ _ => true
  | .stB _ _ _ => true
  | .stH _ _ _ => true
  | .stW _ _ _ => true
  | .stD _ _ _ => true
  | .vld _ _ _ => true
  | .vst _ _ _ => true
  | .vgath _ _ _ => true
  | .vscat _ _ _ => true
  | .ldr _ _ _ => true
  | .amo _ _ _ => true
  | .cas _ _ _ => true
  | .qincb _ _ _ => true
  | .qincw _ _ _ => true
  | .qdecp _ _ _ => true
  | .qaddl _ _ _ => true
  | .ctradd _ _ _ => true
  | .ctrwait _ _ _ => true
  | .ctrrd _ _ _ => true
  | .barinit _ _ _ => true
  | .barv _ _ _ => true
  | .barw _ _ _ => true
  | .fence _ _ _ => true
  | .tlook _ _ _ => true
  | .tset _ _ _ => true
  | .bnd _ _ _ => true
  | .vadd _ _ _ => true
  | .vsub _ _ _ => true
  | .vmul _ _ _ => true
  | .vfma _ _ _ => true
  | .vfms _ _ _ => true
  | .vmin _ _ _ => true
  | .vmax _ _ _ => true
  | .vabs _ _ _ => true
  | .vneg _ _ _ => true
  | .vdiv _ _ _ => true
  | .vsqrt _ _ _ => true
  | .vrcp _ _ _ => true
  | .vrsq _ _ _ => true
  | .vexp2 _ _ _ => true
  | .vlog2 _ _ _ => true
  | .vsincos _ _ _ => true
  | .vcmul _ _ _ => true
  | .vconj _ _ _ => true
  | .vbfly _ _ _ => true
  | .vand _ _ _ => true
  | .vor _ _ _ => true
  | .vxor _ _ _ => true
  | .vshl _ _ _ => true
  | .vshr _ _ _ => true
  | .vceq _ _ _ => true
  | .vclt _ _ _ => true
  | .vcle _ _ _ => true
  | .vsel _ _ _ => true
  | .vcvt _ _ _ => true
  | .vperm _ _ _ => true
  | .vshuf _ _ _ => true
  | .vbcast _ _ _ => true
  | .vredadd _ _ _ => true
  | .vredmax _ _ _ => true
  | .vredmin _ _ _ => true
  | .vscan _ _ _ => true
  | .vidx _ _ _ => true
  | .vextr _ _ _ => true
  | .vinsr _ _ _ => true
  | .vqop _ _ _ => true
  | .vqpop _ _ _ => true
  | .vchk _ _ _ => true
  | .vdot _ _ _ => true
  | .vclamp _ _ _ => true
  | .vrnd _ _ _ => true
  | .vmovq _ _ _ => true
  | .vpack _ _ _ => true
  | .vunpk _ _ _ => true
  | .mma _ _ _ => true
  | .mmag _ _ _ => true
  | .mzero _ _ _ => true
  | .mldc _ _ _ => true
  | .mstc _ _ _ => true
  | .mcvt _ _ _ => true
  | .tidw _ _ _ => true
  | .tidr _ _ _ => true
  | .cbld _ _ _ => true
  | .mseq _ _ _ => true
  | .mstat _ _ _ => true
  | .mwin _ _ _ => true
  | .macc _ _ _ => true
  | .mtrn _ _ _ => true
  | .mchk _ _ _ => true
  | .mscale _ _ _ => true
  | .cpset _ _ _ => true
  | .cpgo _ _ _ => true
  | .cpstat _ _ _ => true
  | .cpabrt _ _ _ => true
  | .cpkey _ _ _ => true
  | .bussel _ _ _ => true
  | .msg _ _ _ => true
  | .rwr _ _ _ => true
  | .ramo _ _ _ => true
  | .rred _ _ _ => true
  | .wquiet _ _ _ => true
  | .jobr _ _ _ => true
  | .pstart _ _ _ => true
  | .psig _ _ _ => true
  | .pstat _ _ _ => true
  | .cpfence _ _ _ => true
  | .br _ _ _ => true
  | .bri _ _ _ => true
  | .call _ _ _ => true
  | .ret _ _ _ => true
  | .loop _ _ _ => true
  | .lpost _ _ _ => true
  | .lrun _ _ _ => true
  | .lsplit _ _ _ => true
  | .tend _ _ _ => true
  | .tgrp _ _ _ => true
  | .sys _ _ _ => true
  | .trap _ _ _ => true
  | .twait _ _ _ => true
  | .rdv _ _ _ => true
  | .ropen _ _ _ => true
  | .rjoin _ _ _ => true
  | .rvote _ _ _ => true
  | .rabort _ _ _ => true
  | .rleave _ _ _ => true
  | .rstat _ _ _ => true
  | .epop _ _ _ => true
  | .epush _ _ _ => true
  | .estat _ _ _ => true
  | .estop _ _ _ => true
  | .cancel _ _ _ => true
  | .launch _ _ _ => true
  | .sleep _ _ _ => true
  | .prio _ _ _ => true
  | .sched _ _ _ => true
  | .dbg _ _ _ => true
  | .wdog _ _ _ => true
  | .hint _ _ _ => true
  | .eret _ _ _ => true
  | .snap _ _ _ => true
  | .snapr _ _ _ => true
  | .segrew _ _ _ => true
  | .inj _ _ _ => true
  | .fcsr _ _ _ => true
  | .tlbi _ _ _ => true
  | .faultq _ _ _ => true
  | .park _ _ _ => true
  | .unpark _ _ _ => true
  | .dump _ _ _ => true
  | .fwshare _ _ _ => true
  | .slotw _ _ _ => true
  | .keyop _ _ _ => true
  | .idle _ _ _ => true
  | .ill _ _ _ => true

end Sys2Proof
end

