-- ==== Sys2Proof/Decode.lean ====
section
/-! DEFINITION. Decoding and encoding. A core fetches bundles of 32 bytes (R26), a hart words of custom-0 (R91), a
porter words of RV32IM and custom-0 (R305, R307). Every field is pulled out here, once. -/
namespace Sys2Proof

/-! ### Fields -/

/-- The field of `w` bits at bit `lo` of `n`. -/
def fld (n lo w : Nat) : Nat := n / 2 ^ lo % 2 ^ w

/-- The number of `bytes`, the first the least significant (R2). -/
def ofBytesLE : List Byte → Nat
  | [] => 0
  | b :: t => b.toNat + 256 * ofBytesLE t

/-- The `k` bytes of a number, the least significant first (R2). -/
def toBytesLE : Nat → Nat → List Byte
  | 0, _ => []
  | k + 1, n => BitVec.ofNat 8 n :: toBytesLE k (n / 256)

/-! ### Moves (R28, R31) -/

/-- The trigger of an operation. -/
noncomputable def Instr.ofOp (o : Machine.Op) (g : BitVec 3) (e : Bool) (src : BitVec 10) : Instr :=
  match o with
  | .add => .add g e src
  | .sub => .sub g e src
  | .addw => .addw g e src
  | .subw => .subw g e src
  | .mul => .mul g e src
  | .mulh => .mulh g e src
  | .mulhu => .mulhu g e src
  | .mulw => .mulw g e src
  | .div => .div g e src
  | .divu => .divu g e src
  | .rem => .rem g e src
  | .remu => .remu g e src
  | .and => .and g e src
  | .or => .or g e src
  | .xor => .xor g e src
  | .andn => .andn g e src
  | .sll => .sll g e src
  | .srl => .srl g e src
  | .sra => .sra g e src
  | .rol => .rol g e src
  | .clz => .clz g e src
  | .ctz => .ctz g e src
  | .popc => .popc g e src
  | .brev => .brev g e src
  | .min => .min g e src
  | .max => .max g e src
  | .minu => .minu g e src
  | .maxu => .maxu g e src
  | .abs => .abs g e src
  | .neg => .neg g e src
  | .adds => .adds g e src
  | .subs => .subs g e src
  | .ceq => .ceq g e src
  | .cne => .cne g e src
  | .clt => .clt g e src
  | .cltu => .cltu g e src
  | .cle => .cle g e src
  | .cleu => .cleu g e src
  | .ctst => .ctst g e src
  | .cbit => .cbit g e src
  | .sel => .sel g e src
  | .ext => .ext g e src
  | .extu => .extu g e src
  | .ins => .ins g e src
  | .lea => .lea g e src
  | .lea2 => .lea2 g e src
  | .movk => .movk g e src
  | .crc => .crc g e src
  | .pand => .pand g e src
  | .por => .por g e src
  | .pxor => .pxor g e src
  | .pnot => .pnot g e src
  | .pandn => .pandn g e src
  | .pmov => .pmov g e src
  | .pget => .pget g e src
  | .pall => .pall g e src
  | .chkeq => .chkeq g e src
  | .chkp => .chkp g e src
  | .rdspec => .rdspec g e src
  | .wrspec => .wrspec g e src
  | .rand => .rand g e src
  | .mix => .mix g e src
  | .bswap => .bswap g e src
  | .nop => .nop g e src
  | .faddD => .faddD g e src
  | .fsubD => .fsubD g e src
  | .fmulD => .fmulD g e src
  | .ffmaD => .ffmaD g e src
  | .fdivD => .fdivD g e src
  | .fsqrtD => .fsqrtD g e src
  | .fminD => .fminD g e src
  | .fmaxD => .fmaxD g e src
  | .faddS => .faddS g e src
  | .fsubS => .fsubS g e src
  | .fmulS => .fmulS g e src
  | .ffmaS => .ffmaS g e src
  | .fdivS => .fdivS g e src
  | .fsqrtS => .fsqrtS g e src
  | .fminS => .fminS g e src
  | .fmaxS => .fmaxS g e src
  | .fceqD => .fceqD g e src
  | .fcltD => .fcltD g e src
  | .fcleD => .fcleD g e src
  | .fceqS => .fceqS g e src
  | .fcltS => .fcltS g e src
  | .fcleS => .fcleS g e src
  | .fclass => .fclass g e src
  | .fcvtSD => .fcvtSD g e src
  | .fcvtDS => .fcvtDS g e src
  | .fcvtDL => .fcvtDL g e src
  | .fcvtLD => .fcvtLD g e src
  | .fcvtSW => .fcvtSW g e src
  | .fcvtWS => .fcvtWS g e src
  | .fcvtBfS => .fcvtBfS g e src
  | .fcvtSBf => .fcvtSBf g e src
  | .frnd => .frnd g e src
  | .ldB => .ldB g e src
  | .ldH => .ldH g e src
  | .ldW => .ldW g e src
  | .ldD => .ldD g e src
  | .ldsB => .ldsB g e src
  | .ldsH => .ldsH g e src
  | .ldsW => .ldsW g e src
  | .stB => .stB g e src
  | .stH => .stH g e src
  | .stW => .stW g e src
  | .stD => .stD g e src
  | .vld => .vld g e src
  | .vst => .vst g e src
  | .vgath => .vgath g e src
  | .vscat => .vscat g e src
  | .ldr => .ldr g e src
  | .amo => .amo g e src
  | .cas => .cas g e src
  | .qincb => .qincb g e src
  | .qincw => .qincw g e src
  | .qdecp => .qdecp g e src
  | .qaddl => .qaddl g e src
  | .ctradd => .ctradd g e src
  | .ctrwait => .ctrwait g e src
  | .ctrrd => .ctrrd g e src
  | .barinit => .barinit g e src
  | .barv => .barv g e src
  | .barw => .barw g e src
  | .fence => .fence g e src
  | .tlook => .tlook g e src
  | .tset => .tset g e src
  | .bnd => .bnd g e src
  | .vadd => .vadd g e src
  | .vsub => .vsub g e src
  | .vmul => .vmul g e src
  | .vfma => .vfma g e src
  | .vfms => .vfms g e src
  | .vmin => .vmin g e src
  | .vmax => .vmax g e src
  | .vabs => .vabs g e src
  | .vneg => .vneg g e src
  | .vdiv => .vdiv g e src
  | .vsqrt => .vsqrt g e src
  | .vrcp => .vrcp g e src
  | .vrsq => .vrsq g e src
  | .vexp2 => .vexp2 g e src
  | .vlog2 => .vlog2 g e src
  | .vsincos => .vsincos g e src
  | .vcmul => .vcmul g e src
  | .vconj => .vconj g e src
  | .vbfly => .vbfly g e src
  | .vand => .vand g e src
  | .vor => .vor g e src
  | .vxor => .vxor g e src
  | .vshl => .vshl g e src
  | .vshr => .vshr g e src
  | .vceq => .vceq g e src
  | .vclt => .vclt g e src
  | .vcle => .vcle g e src
  | .vsel => .vsel g e src
  | .vcvt => .vcvt g e src
  | .vperm => .vperm g e src
  | .vshuf => .vshuf g e src
  | .vbcast => .vbcast g e src
  | .vredadd => .vredadd g e src
  | .vredmax => .vredmax g e src
  | .vredmin => .vredmin g e src
  | .vscan => .vscan g e src
  | .vidx => .vidx g e src
  | .vextr => .vextr g e src
  | .vinsr => .vinsr g e src
  | .vqop => .vqop g e src
  | .vqpop => .vqpop g e src
  | .vchk => .vchk g e src
  | .vdot => .vdot g e src
  | .vclamp => .vclamp g e src
  | .vrnd => .vrnd g e src
  | .vmovq => .vmovq g e src
  | .vpack => .vpack g e src
  | .vunpk => .vunpk g e src
  | .mma => .mma g e src
  | .mmag => .mmag g e src
  | .mzero => .mzero g e src
  | .mldc => .mldc g e src
  | .mstc => .mstc g e src
  | .mcvt => .mcvt g e src
  | .tidw => .tidw g e src
  | .tidr => .tidr g e src
  | .cbld => .cbld g e src
  | .mseq => .mseq g e src
  | .mstat => .mstat g e src
  | .mwin => .mwin g e src
  | .macc => .macc g e src
  | .mtrn => .mtrn g e src
  | .mchk => .mchk g e src
  | .mscale => .mscale g e src
  | .cpset => .cpset g e src
  | .cpgo => .cpgo g e src
  | .cpstat => .cpstat g e src
  | .cpabrt => .cpabrt g e src
  | .cpkey => .cpkey g e src
  | .bussel => .bussel g e src
  | .msg => .msg g e src
  | .rwr => .rwr g e src
  | .ramo => .ramo g e src
  | .rred => .rred g e src
  | .wquiet => .wquiet g e src
  | .jobr => .jobr g e src
  | .pstart => .pstart g e src
  | .psig => .psig g e src
  | .pstat => .pstat g e src
  | .cpfence => .cpfence g e src
  | .br => .br g e src
  | .bri => .bri g e src
  | .call => .call g e src
  | .ret => .ret g e src
  | .loop => .loop g e src
  | .lpost => .lpost g e src
  | .lrun => .lrun g e src
  | .lsplit => .lsplit g e src
  | .tend => .tend g e src
  | .tgrp => .tgrp g e src
  | .sys => .sys g e src
  | .trap => .trap g e src
  | .twait => .twait g e src
  | .rdv => .rdv g e src
  | .ropen => .ropen g e src
  | .rjoin => .rjoin g e src
  | .rvote => .rvote g e src
  | .rabort => .rabort g e src
  | .rleave => .rleave g e src
  | .rstat => .rstat g e src
  | .epop => .epop g e src
  | .epush => .epush g e src
  | .estat => .estat g e src
  | .estop => .estop g e src
  | .cancel => .cancel g e src
  | .launch => .launch g e src
  | .sleep => .sleep g e src
  | .prio => .prio g e src
  | .sched => .sched g e src
  | .dbg => .dbg g e src
  | .wdog => .wdog g e src
  | .hint => .hint g e src
  | .eret => .eret g e src
  | .snap => .snap g e src
  | .snapr => .snapr g e src
  | .segrew => .segrew g e src
  | .inj => .inj g e src
  | .fcsr => .fcsr g e src
  | .tlbi => .tlbi g e src
  | .faultq => .faultq g e src
  | .park => .park g e src
  | .unpark => .unpark g e src
  | .dump => .dump g e src
  | .fwshare => .fwshare g e src
  | .slotw => .slotw g e src
  | .keyop => .keyop g e src
  | .idle => .idle g e src
  | .ill => .ill g e src

/-- The move that a 24-bit word holds. None: the special destinations that R31 leaves out. -/
noncomputable def decodeMove (w : BitVec 24) : Option Instr :=
  let n := w.toNat
  let g := BitVec.ofNat 3 (fld n 21 3)
  let e := decide (fld n 20 1 = 1)
  let src := BitVec.ofNat 10 (fld n 10 10)
  let q := fld n 0 8
  if n = 0 then some .emptyMove
  else match fld n 8 2 with
    | 0 => some (.moveRegister g e src (BitVec.ofNat 8 q))
    | 1 => some (.movePort g e src (BitVec.ofNat 3 (fld n 5 3)) (BitVec.ofNat 5 (fld n 0 5)))
    | 2 => some (Instr.ofOp (Machine.Op.ofCode q) g e src)
    | _ => match q with
      | 0 => some (.discard g e src)
      | 1 => some (.busdrive g e src)
      | 2 => some (.busland g e src)
      | _ => none

/-! ### Bundles (R26) -/

/-- The bundle of a 256-bit number. -/
def Bundle.ofNat (n : Nat) : Bundle :=
  let w (k : Nat) : BitVec 24 := BitVec.ofNat 24 (fld n (64 + 24 * k) 24)
  { hdr := BitVec.ofNat 64 (fld n 0 64), w0 := w 0, w1 := w 1, w2 := w 2, w3 := w 3, w4 := w 4, w5 := w 5, w6 := w 6, w7 := w 7 }

/-- The 256-bit number of a bundle. -/
def Bundle.toNat (b : Bundle) : Nat :=
  b.hdr.toNat + 2 ^ 64 * (b.w0.toNat + 2 ^ 24 * (b.w1.toNat + 2 ^ 24 * (b.w2.toNat + 2 ^ 24 * (b.w3.toNat
    + 2 ^ 24 * (b.w4.toNat + 2 ^ 24 * (b.w5.toNat + 2 ^ 24 * (b.w6.toNat + 2 ^ 24 * b.w7.toNat)))))))

/-- The instruction of a bundle: the one move it holds in that move's own slot, or the bundle as a whole. -/
noncomputable def decodeBundle (b : Bundle) : Instr :=
  if b.single then (decodeMove b.only).getD (.bundleIssue b) else .bundleIssue b

/-- The instruction of the 32 bytes of a bundle. -/
noncomputable def decodeBundleBytes (bs : List Byte) : Instr := decodeBundle (Bundle.ofNat (ofBytesLE bs))

/-! ### Words of the harts (R91) and of the porters (R307) -/

/-- The continuation instruction that a hart's word holds (R91). None: every other word. -/
def decodeHart (w : BitVec 32) : Option Instr :=
  let n := w.toNat
  let rd := BitVec.ofNat 5 (fld n 7 5)
  let rs1 := BitVec.ofNat 5 (fld n 15 5)
  let rs2 := BitVec.ofNat 5 (fld n 20 5)
  if fld n 0 7 = 0x0B then
    match fld n 12 3, fld n 25 7 with
    | 0, 0 => if fld n 20 5 = 0 then some (.cpost rd rs1) else none
    | 0, 1 => some (.cjoin rs2 rs1 rd)
    | 0, 2 => if fld n 20 5 = 0 then some (.cquery rd rs1) else none
    | 0, 3 => if fld n 20 5 = 0 ∧ fld n 15 5 = 0 then some (.ckill rd) else none
    | 1, 0 => some (.ccreate rs2 rs1 rd)
    | 1, 1 => if fld n 20 5 = 0 then some (.cfree rd rs1) else none
    | 1, 2 => if fld n 20 5 = 0 then some (.cbind rd rs1) else none
    | 1, 3 => if fld n 20 5 = 0 then some (.csave rd rs1) else none
    | 1, 4 => if fld n 20 5 = 0 then some (.cload rd rs1) else none
    | 1, 5 => some (.cresume rs2 rs1 rd)
    | 1, 6 => if fld n 20 5 = 0 then some (.cadopt rd rs1) else none
    | 1, 7 => if fld n 20 5 = 0 then some (.cckpt rd rs1) else none
    | _, _ => none
  else none

/-- The porter operation that a word of custom-0 with funct3 011 holds (R307). None: every other word. -/
def decodePorterOp (w : BitVec 32) : Option Instr :=
  let n := w.toNat
  let rd := BitVec.ofNat 5 (fld n 7 5)
  let rs1 := BitVec.ofNat 5 (fld n 15 5)
  let rs2 := BitVec.ofNat 5 (fld n 20 5)
  if fld n 0 7 = 0x0B ∧ fld n 12 3 = 3 then
    match fld n 25 7 with
    | 0 => some (.pld rs2 rs1 rd)
    | 1 => some (.pst rs2 rs1 rd)
    | 2 => if fld n 20 5 = 0 then some (.plds rs1 rd) else none
    | 3 => some (.pgath rs2 rs1 rd)
    | 4 => some (.pctr rs2 rs1 rd)
    | 5 => some (.pwait rs2 rs1 rd)
    | 6 => some (.ptok rs2 rs1 rd)
    | 7 => if fld n 20 5 = 0 ∧ fld n 15 5 = 0 then some (.psigw rd) else none
    | 8 => if fld n 20 5 = 0 ∧ fld n 15 5 = 0 then some (.pfence rd) else none
    | _ => none
  else none

/-- The instruction of a porter's word: an operation of R307 or an instruction of RV32IM. None: a reserved word. -/
def decodePorter (w : BitVec 32) : Option Instr :=
  match decodePorterOp w with
  | some i => some i
  | none => if Machine.Rv32.legal w then some (.porterRv32imInstruction w) else none

/-! ### The table's words -/

/-- The instruction that the table's word `w` of `nbits` bits decodes to: a move as the one move of its bundle, a word
of a hart or of a porter, or a whole bundle. -/
noncomputable def decodeTableWord (nbits w : Nat) : Option Instr :=
  if nbits = 24 then
    let m := BitVec.ofNat 24 w
    if moveWord? m then some (decodeBundle (Bundle.one (homeSlot m) m)) else none
  else if nbits = 32 then
    let v := BitVec.ofNat 32 w
    match decodeHart v with
    | some i => some i
    | none => decodePorter v
  else if nbits = 256 then some (decodeBundle (Bundle.ofNat w))
  else none

/-! ### Encoding -/

/-- A move's word (R28). -/
def moveNat (g : BitVec 3) (e : Bool) (src : BitVec 10) (dst : Nat) : Nat :=
  g.toNat * 2 ^ 21 + (if e then 2 ^ 20 else 0) + src.toNat * 2 ^ 10 + dst

/-- An R-type word of custom-0 (R91, R307). -/
def rNat (f7 : Nat) (rs2 rs1 : BitVec 5) (f3 : Nat) (rd : BitVec 5) : Nat :=
  f7 * 2 ^ 25 + rs2.toNat * 2 ^ 20 + rs1.toNat * 2 ^ 15 + f3 * 2 ^ 12 + rd.toNat * 2 ^ 7 + 0x0B

/-- The bits and the word of an instruction; none for a step that has no word. -/
def encode : Instr → Option (Nat × Nat)
  | .bundleIssue b => some (256, b.toNat)
  | .resultLanding _ => none
  | .deliveryLanding _ _ => none
  | .arrivalOnRetire _ => none
  | .segmentCommit _ => none
  | .rewindDone _ => none
  | .arrayOpComplete _ => none
  | .mseqStepStart _ => none
  | .idleWake _ => none
  | .shareChangeEffect _ => none
  | .slotCellEffect _ _ => none
  | .cjoinTimeout _ => none
  | .contPark _ => none
  | .contUnpark _ => none
  | .killDone _ => none
  | .attentionRetry _ => none
  | .faultSteeringWrite _ _ => none
  | .checkpointInterval => none
  | .checkpointComplete => none
  | .pktNop _ => none
  | .pktLaunch _ => none
  | .pktWait _ => none
  | .pktSignal _ => none
  | .pktPred _ => none
  | .pktLoop _ => none
  | .pktCall _ => none
  | .pktReturn _ => none
  | .pktFfence _ => none
  | .pktMark _ => none
  | .pktCopy _ => none
  | .pktBind _ => none
  | .pktUnknown _ => none
  | .implicitReturn _ => none
  | .streamWindowRefill _ => none
  | .ffenceRefill _ => none
  | .waitSatisfied _ => none
  | .waitPacketTimeout _ => none
  | .copyPacketComplete _ => none
  | .copyPacketFault _ => none
  | .sysCompletion _ => none
  | .sysReissue _ => none
  | .launchPlace _ => none
  | .priorityAging _ => none
  | .teamStart _ => none
  | .coreResume _ => none
  | .quantumExpiry _ => none
  | .imageSaved _ => none
  | .clusterReclaim _ => none
  | .reclaimRetry _ => none
  | .clusterReturn _ => none
  | .launchDrained _ => none
  | .scoutProbe _ => none
  | .stealArrival _ => none
  | .twaitTimeout _ => none
  | .watchdogExpiry _ => none
  | .rendezvousRelease _ => none
  | .rendezvousTimeout _ => none
  | .shareViolation _ => none
  | .partitionPlanApply _ => none
  | .partitionReset _ => none
  | .debugHold _ => none
  | .debugStep _ => none
  | .debugRelease _ => none
  | .globalRequestAccept _ _ => none
  | .storePerform _ _ => none
  | .pageWalk _ => none
  | .ownershipTransferStart _ => none
  | .ownershipWritebackComplete _ => none
  | .ownershipTimeout _ => none
  | .dieCacheWriteback _ _ => none
  | .gatedUnitWake _ => none
  | .shootdownGo _ => none
  | .shootdownComplete => none
  | .transferStart _ _ _ => none
  | .transferComplete _ _ _ => none
  | .transferElementFault _ _ _ => none
  | .transferDataFault _ _ _ => none
  | .porterEcall _ _ => none
  | .porterException _ _ => none
  | .porterFault _ _ => none
  | .porterBlockComplete _ _ => none
  | .porterWake _ _ => none
  | .waitLimitExpiry _ _ => none
  | .barrierBankService _ => none
  | .regionDirectoryAccess _ _ => none
  | .regionJoin _ _ => none
  | .regionLeave _ _ => none
  | .regionVote _ _ => none
  | .regionAbort _ _ => none
  | .regionLocksHeld _ => none
  | .regionLinesWritten _ => none
  | .regionEntriesDiscarded _ => none
  | .regionFreed _ => none
  | .regionOutcomeDelivery _ _ => none
  | .portTrain _ => none
  | .portTrained _ _ => none
  | .portTrainingTimeout _ => none
  | .laneLost _ => none
  | .flitReceive _ _ _ => none
  | .retryExhausted _ => none
  | .msgArrival _ => none
  | .heldMessageRetry _ => none
  | .rwrArrival _ => none
  | .ramoArrival _ => none
  | .ramoReply _ _ _ _ => none
  | .reductionContribution _ => none
  | .waveStart => none
  | .wavePassEnd _ => none
  | .wquietTimeout _ => none
  | .reductionWindowWrite _ _ _ => none
  | .windowInstalled _ => none
  | .landingWindowWrite _ _ _ _ => none
  | .pciePeerWrite _ _ _ _ _ => none
  | .pcieWindowRead _ _ _ _ _ => none
  | .pcieDoorbellWrite _ _ _ _ => none
  | .pcieDoorbellRead _ _ _ => none
  | .pcieFlr _ _ => none
  | .pcieDpcContainment _ => none
  | .pcieLinkTraining _ => none
  | .pldmRequestUpdate => none
  | .imageTransferComplete _ => none
  | .pldmApplyComplete => none
  | .pldmActivateFirmware => none
  | .pldmCancelUpdate => none
  | .lanternImageSwitch _ => none
  | .powerOn => none
  | .spdmGetMeasurements => none
  | .spdmKeyInstall _ _ _ => none
  | .throttleWindow _ => none
  | .thermalTrip _ => none
  | .registerWrite _ _ => none
  | .porterRv32imInstruction w => some (32, w.toNat)
  | .pcieDpcRelease _ => none
  | .hostStore _ _ => none
  | .loadPerform _ _ => none
  | .imageTransferAborted => none
  | .cpost rd rs1 => some (32, rNat 0 0 rs1 0 rd)
  | .cjoin rs2 rs1 rd => some (32, rNat 1 rs2 rs1 0 rd)
  | .cquery rd rs1 => some (32, rNat 2 0 rs1 0 rd)
  | .ckill rd => some (32, rNat 3 0 0 0 rd)
  | .ccreate rs2 rs1 rd => some (32, rNat 0 rs2 rs1 1 rd)
  | .cfree rd rs1 => some (32, rNat 1 0 rs1 1 rd)
  | .cbind rd rs1 => some (32, rNat 2 0 rs1 1 rd)
  | .csave rd rs1 => some (32, rNat 3 0 rs1 1 rd)
  | .cload rd rs1 => some (32, rNat 4 0 rs1 1 rd)
  | .cresume rs2 rs1 rd => some (32, rNat 5 rs2 rs1 1 rd)
  | .cadopt rd rs1 => some (32, rNat 6 0 rs1 1 rd)
  | .cckpt rd rs1 => some (32, rNat 7 0 rs1 1 rd)
  | .pld rs2 rs1 rd => some (32, rNat 0 rs2 rs1 3 rd)
  | .pst rs2 rs1 rd => some (32, rNat 1 rs2 rs1 3 rd)
  | .plds rs1 rd => some (32, rNat 2 0 rs1 3 rd)
  | .pgath rs2 rs1 rd => some (32, rNat 3 rs2 rs1 3 rd)
  | .pctr rs2 rs1 rd => some (32, rNat 4 rs2 rs1 3 rd)
  | .pwait rs2 rs1 rd => some (32, rNat 5 rs2 rs1 3 rd)
  | .ptok rs2 rs1 rd => some (32, rNat 6 rs2 rs1 3 rd)
  | .psigw rd => some (32, rNat 7 0 0 3 rd)
  | .pfence rd => some (32, rNat 8 0 0 3 rd)
  | .moveRegister g e src r => some (24, moveNat g e src r.toNat)
  | .movePort g e src u p => some (24, moveNat g e src (0x100 + u.toNat * 32 + p.toNat))
  | .discard g e src => some (24, moveNat g e src 0x300)
  | .busdrive g e src => some (24, moveNat g e src 0x301)
  | .busland g e src => some (24, moveNat g e src 0x302)
  | .emptyMove => some (24, 0)
  | .add g e src => some (24, moveNat g e src 0x200)
  | .sub g e src => some (24, moveNat g e src 0x201)
  | .addw g e src => some (24, moveNat g e src 0x202)
  | .subw g e src => some (24, moveNat g e src 0x203)
  | .mul g e src => some (24, moveNat g e src 0x204)
  | .mulh g e src => some (24, moveNat g e src 0x205)
  | .mulhu g e src => some (24, moveNat g e src 0x206)
  | .mulw g e src => some (24, moveNat g e src 0x207)
  | .div g e src => some (24, moveNat g e src 0x208)
  | .divu g e src => some (24, moveNat g e src 0x209)
  | .rem g e src => some (24, moveNat g e src 0x20A)
  | .remu g e src => some (24, moveNat g e src 0x20B)
  | .and g e src => some (24, moveNat g e src 0x20C)
  | .or g e src => some (24, moveNat g e src 0x20D)
  | .xor g e src => some (24, moveNat g e src 0x20E)
  | .andn g e src => some (24, moveNat g e src 0x20F)
  | .sll g e src => some (24, moveNat g e src 0x210)
  | .srl g e src => some (24, moveNat g e src 0x211)
  | .sra g e src => some (24, moveNat g e src 0x212)
  | .rol g e src => some (24, moveNat g e src 0x213)
  | .clz g e src => some (24, moveNat g e src 0x214)
  | .ctz g e src => some (24, moveNat g e src 0x215)
  | .popc g e src => some (24, moveNat g e src 0x216)
  | .brev g e src => some (24, moveNat g e src 0x217)
  | .min g e src => some (24, moveNat g e src 0x218)
  | .max g e src => some (24, moveNat g e src 0x219)
  | .minu g e src => some (24, moveNat g e src 0x21A)
  | .maxu g e src => some (24, moveNat g e src 0x21B)
  | .abs g e src => some (24, moveNat g e src 0x21C)
  | .neg g e src => some (24, moveNat g e src 0x21D)
  | .adds g e src => some (24, moveNat g e src 0x21E)
  | .subs g e src => some (24, moveNat g e src 0x21F)
  | .ceq g e src => some (24, moveNat g e src 0x220)
  | .cne g e src => some (24, moveNat g e src 0x221)
  | .clt g e src => some (24, moveNat g e src 0x222)
  | .cltu g e src => some (24, moveNat g e src 0x223)
  | .cle g e src => some (24, moveNat g e src 0x224)
  | .cleu g e src => some (24, moveNat g e src 0x225)
  | .ctst g e src => some (24, moveNat g e src 0x226)
  | .cbit g e src => some (24, moveNat g e src 0x227)
  | .sel g e src => some (24, moveNat g e src 0x228)
  | .ext g e src => some (24, moveNat g e src 0x229)
  | .extu g e src => some (24, moveNat g e src 0x22A)
  | .ins g e src => some (24, moveNat g e src 0x22B)
  | .lea g e src => some (24, moveNat g e src 0x22C)
  | .lea2 g e src => some (24, moveNat g e src 0x22D)
  | .movk g e src => some (24, moveNat g e src 0x22E)
  | .crc g e src => some (24, moveNat g e src 0x22F)
  | .pand g e src => some (24, moveNat g e src 0x230)
  | .por g e src => some (24, moveNat g e src 0x231)
  | .pxor g e src => some (24, moveNat g e src 0x232)
  | .pnot g e src => some (24, moveNat g e src 0x233)
  | .pandn g e src => some (24, moveNat g e src 0x234)
  | .pmov g e src => some (24, moveNat g e src 0x235)
  | .pget g e src => some (24, moveNat g e src 0x236)
  | .pall g e src => some (24, moveNat g e src 0x237)
  | .chkeq g e src => some (24, moveNat g e src 0x238)
  | .chkp g e src => some (24, moveNat g e src 0x239)
  | .rdspec g e src => some (24, moveNat g e src 0x23A)
  | .wrspec g e src => some (24, moveNat g e src 0x23B)
  | .rand g e src => some (24, moveNat g e src 0x23C)
  | .mix g e src => some (24, moveNat g e src 0x23D)
  | .bswap g e src => some (24, moveNat g e src 0x23E)
  | .nop g e src => some (24, moveNat g e src 0x23F)
  | .faddD g e src => some (24, moveNat g e src 0x240)
  | .fsubD g e src => some (24, moveNat g e src 0x241)
  | .fmulD g e src => some (24, moveNat g e src 0x242)
  | .ffmaD g e src => some (24, moveNat g e src 0x243)
  | .fdivD g e src => some (24, moveNat g e src 0x244)
  | .fsqrtD g e src => some (24, moveNat g e src 0x245)
  | .fminD g e src => some (24, moveNat g e src 0x246)
  | .fmaxD g e src => some (24, moveNat g e src 0x247)
  | .faddS g e src => some (24, moveNat g e src 0x248)
  | .fsubS g e src => some (24, moveNat g e src 0x249)
  | .fmulS g e src => some (24, moveNat g e src 0x24A)
  | .ffmaS g e src => some (24, moveNat g e src 0x24B)
  | .fdivS g e src => some (24, moveNat g e src 0x24C)
  | .fsqrtS g e src => some (24, moveNat g e src 0x24D)
  | .fminS g e src => some (24, moveNat g e src 0x24E)
  | .fmaxS g e src => some (24, moveNat g e src 0x24F)
  | .fceqD g e src => some (24, moveNat g e src 0x250)
  | .fcltD g e src => some (24, moveNat g e src 0x251)
  | .fcleD g e src => some (24, moveNat g e src 0x252)
  | .fceqS g e src => some (24, moveNat g e src 0x253)
  | .fcltS g e src => some (24, moveNat g e src 0x254)
  | .fcleS g e src => some (24, moveNat g e src 0x255)
  | .fclass g e src => some (24, moveNat g e src 0x256)
  | .fcvtSD g e src => some (24, moveNat g e src 0x257)
  | .fcvtDS g e src => some (24, moveNat g e src 0x258)
  | .fcvtDL g e src => some (24, moveNat g e src 0x259)
  | .fcvtLD g e src => some (24, moveNat g e src 0x25A)
  | .fcvtSW g e src => some (24, moveNat g e src 0x25B)
  | .fcvtWS g e src => some (24, moveNat g e src 0x25C)
  | .fcvtBfS g e src => some (24, moveNat g e src 0x25D)
  | .fcvtSBf g e src => some (24, moveNat g e src 0x25E)
  | .frnd g e src => some (24, moveNat g e src 0x25F)
  | .ldB g e src => some (24, moveNat g e src 0x260)
  | .ldH g e src => some (24, moveNat g e src 0x261)
  | .ldW g e src => some (24, moveNat g e src 0x262)
  | .ldD g e src => some (24, moveNat g e src 0x263)
  | .ldsB g e src => some (24, moveNat g e src 0x264)
  | .ldsH g e src => some (24, moveNat g e src 0x265)
  | .ldsW g e src => some (24, moveNat g e src 0x266)
  | .stB g e src => some (24, moveNat g e src 0x267)
  | .stH g e src => some (24, moveNat g e src 0x268)
  | .stW g e src => some (24, moveNat g e src 0x269)
  | .stD g e src => some (24, moveNat g e src 0x26A)
  | .vld g e src => some (24, moveNat g e src 0x26B)
  | .vst g e src => some (24, moveNat g e src 0x26C)
  | .vgath g e src => some (24, moveNat g e src 0x26D)
  | .vscat g e src => some (24, moveNat g e src 0x26E)
  | .ldr g e src => some (24, moveNat g e src 0x26F)
  | .amo g e src => some (24, moveNat g e src 0x270)
  | .cas g e src => some (24, moveNat g e src 0x271)
  | .qincb g e src => some (24, moveNat g e src 0x272)
  | .qincw g e src => some (24, moveNat g e src 0x273)
  | .qdecp g e src => some (24, moveNat g e src 0x274)
  | .qaddl g e src => some (24, moveNat g e src 0x275)
  | .ctradd g e src => some (24, moveNat g e src 0x276)
  | .ctrwait g e src => some (24, moveNat g e src 0x277)
  | .ctrrd g e src => some (24, moveNat g e src 0x278)
  | .barinit g e src => some (24, moveNat g e src 0x279)
  | .barv g e src => some (24, moveNat g e src 0x27A)
  | .barw g e src => some (24, moveNat g e src 0x27B)
  | .fence g e src => some (24, moveNat g e src 0x27C)
  | .tlook g e src => some (24, moveNat g e src 0x27D)
  | .tset g e src => some (24, moveNat g e src 0x27E)
  | .bnd g e src => some (24, moveNat g e src 0x27F)
  | .vadd g e src => some (24, moveNat g e src 0x280)
  | .vsub g e src => some (24, moveNat g e src 0x281)
  | .vmul g e src => some (24, moveNat g e src 0x282)
  | .vfma g e src => some (24, moveNat g e src 0x283)
  | .vfms g e src => some (24, moveNat g e src 0x284)
  | .vmin g e src => some (24, moveNat g e src 0x285)
  | .vmax g e src => some (24, moveNat g e src 0x286)
  | .vabs g e src => some (24, moveNat g e src 0x287)
  | .vneg g e src => some (24, moveNat g e src 0x288)
  | .vdiv g e src => some (24, moveNat g e src 0x289)
  | .vsqrt g e src => some (24, moveNat g e src 0x28A)
  | .vrcp g e src => some (24, moveNat g e src 0x28B)
  | .vrsq g e src => some (24, moveNat g e src 0x28C)
  | .vexp2 g e src => some (24, moveNat g e src 0x28D)
  | .vlog2 g e src => some (24, moveNat g e src 0x28E)
  | .vsincos g e src => some (24, moveNat g e src 0x28F)
  | .vcmul g e src => some (24, moveNat g e src 0x290)
  | .vconj g e src => some (24, moveNat g e src 0x291)
  | .vbfly g e src => some (24, moveNat g e src 0x292)
  | .vand g e src => some (24, moveNat g e src 0x293)
  | .vor g e src => some (24, moveNat g e src 0x294)
  | .vxor g e src => some (24, moveNat g e src 0x295)
  | .vshl g e src => some (24, moveNat g e src 0x296)
  | .vshr g e src => some (24, moveNat g e src 0x297)
  | .vceq g e src => some (24, moveNat g e src 0x298)
  | .vclt g e src => some (24, moveNat g e src 0x299)
  | .vcle g e src => some (24, moveNat g e src 0x29A)
  | .vsel g e src => some (24, moveNat g e src 0x29B)
  | .vcvt g e src => some (24, moveNat g e src 0x29C)
  | .vperm g e src => some (24, moveNat g e src 0x29D)
  | .vshuf g e src => some (24, moveNat g e src 0x29E)
  | .vbcast g e src => some (24, moveNat g e src 0x29F)
  | .vredadd g e src => some (24, moveNat g e src 0x2A0)
  | .vredmax g e src => some (24, moveNat g e src 0x2A1)
  | .vredmin g e src => some (24, moveNat g e src 0x2A2)
  | .vscan g e src => some (24, moveNat g e src 0x2A3)
  | .vidx g e src => some (24, moveNat g e src 0x2A4)
  | .vextr g e src => some (24, moveNat g e src 0x2A5)
  | .vinsr g e src => some (24, moveNat g e src 0x2A6)
  | .vqop g e src => some (24, moveNat g e src 0x2A7)
  | .vqpop g e src => some (24, moveNat g e src 0x2A8)
  | .vchk g e src => some (24, moveNat g e src 0x2A9)
  | .vdot g e src => some (24, moveNat g e src 0x2AA)
  | .vclamp g e src => some (24, moveNat g e src 0x2AB)
  | .vrnd g e src => some (24, moveNat g e src 0x2AC)
  | .vmovq g e src => some (24, moveNat g e src 0x2AD)
  | .vpack g e src => some (24, moveNat g e src 0x2AE)
  | .vunpk g e src => some (24, moveNat g e src 0x2AF)
  | .mma g e src => some (24, moveNat g e src 0x2B0)
  | .mmag g e src => some (24, moveNat g e src 0x2B1)
  | .mzero g e src => some (24, moveNat g e src 0x2B2)
  | .mldc g e src => some (24, moveNat g e src 0x2B3)
  | .mstc g e src => some (24, moveNat g e src 0x2B4)
  | .mcvt g e src => some (24, moveNat g e src 0x2B5)
  | .tidw g e src => some (24, moveNat g e src 0x2B6)
  | .tidr g e src => some (24, moveNat g e src 0x2B7)
  | .cbld g e src => some (24, moveNat g e src 0x2B8)
  | .mseq g e src => some (24, moveNat g e src 0x2B9)
  | .mstat g e src => some (24, moveNat g e src 0x2BA)
  | .mwin g e src => some (24, moveNat g e src 0x2BB)
  | .macc g e src => some (24, moveNat g e src 0x2BC)
  | .mtrn g e src => some (24, moveNat g e src 0x2BD)
  | .mchk g e src => some (24, moveNat g e src 0x2BE)
  | .mscale g e src => some (24, moveNat g e src 0x2BF)
  | .cpset g e src => some (24, moveNat g e src 0x2C0)
  | .cpgo g e src => some (24, moveNat g e src 0x2C1)
  | .cpstat g e src => some (24, moveNat g e src 0x2C2)
  | .cpabrt g e src => some (24, moveNat g e src 0x2C3)
  | .cpkey g e src => some (24, moveNat g e src 0x2C4)
  | .bussel g e src => some (24, moveNat g e src 0x2C5)
  | .msg g e src => some (24, moveNat g e src 0x2C6)
  | .rwr g e src => some (24, moveNat g e src 0x2C7)
  | .ramo g e src => some (24, moveNat g e src 0x2C8)
  | .rred g e src => some (24, moveNat g e src 0x2C9)
  | .wquiet g e src => some (24, moveNat g e src 0x2CA)
  | .jobr g e src => some (24, moveNat g e src 0x2CB)
  | .pstart g e src => some (24, moveNat g e src 0x2CC)
  | .psig g e src => some (24, moveNat g e src 0x2CD)
  | .pstat g e src => some (24, moveNat g e src 0x2CE)
  | .cpfence g e src => some (24, moveNat g e src 0x2CF)
  | .br g e src => some (24, moveNat g e src 0x2D0)
  | .bri g e src => some (24, moveNat g e src 0x2D1)
  | .call g e src => some (24, moveNat g e src 0x2D2)
  | .ret g e src => some (24, moveNat g e src 0x2D3)
  | .loop g e src => some (24, moveNat g e src 0x2D4)
  | .lpost g e src => some (24, moveNat g e src 0x2D5)
  | .lrun g e src => some (24, moveNat g e src 0x2D6)
  | .lsplit g e src => some (24, moveNat g e src 0x2D7)
  | .tend g e src => some (24, moveNat g e src 0x2D8)
  | .tgrp g e src => some (24, moveNat g e src 0x2D9)
  | .sys g e src => some (24, moveNat g e src 0x2DA)
  | .trap g e src => some (24, moveNat g e src 0x2DB)
  | .twait g e src => some (24, moveNat g e src 0x2DC)
  | .rdv g e src => some (24, moveNat g e src 0x2DD)
  | .ropen g e src => some (24, moveNat g e src 0x2DE)
  | .rjoin g e src => some (24, moveNat g e src 0x2DF)
  | .rvote g e src => some (24, moveNat g e src 0x2E0)
  | .rabort g e src => some (24, moveNat g e src 0x2E1)
  | .rleave g e src => some (24, moveNat g e src 0x2E2)
  | .rstat g e src => some (24, moveNat g e src 0x2E3)
  | .epop g e src => some (24, moveNat g e src 0x2E4)
  | .epush g e src => some (24, moveNat g e src 0x2E5)
  | .estat g e src => some (24, moveNat g e src 0x2E6)
  | .estop g e src => some (24, moveNat g e src 0x2E7)
  | .cancel g e src => some (24, moveNat g e src 0x2E8)
  | .launch g e src => some (24, moveNat g e src 0x2E9)
  | .sleep g e src => some (24, moveNat g e src 0x2EA)
  | .prio g e src => some (24, moveNat g e src 0x2EB)
  | .sched g e src => some (24, moveNat g e src 0x2EC)
  | .dbg g e src => some (24, moveNat g e src 0x2ED)
  | .wdog g e src => some (24, moveNat g e src 0x2EE)
  | .hint g e src => some (24, moveNat g e src 0x2EF)
  | .eret g e src => some (24, moveNat g e src 0x2F0)
  | .snap g e src => some (24, moveNat g e src 0x2F1)
  | .snapr g e src => some (24, moveNat g e src 0x2F2)
  | .segrew g e src => some (24, moveNat g e src 0x2F3)
  | .inj g e src => some (24, moveNat g e src 0x2F4)
  | .fcsr g e src => some (24, moveNat g e src 0x2F5)
  | .tlbi g e src => some (24, moveNat g e src 0x2F6)
  | .faultq g e src => some (24, moveNat g e src 0x2F7)
  | .park g e src => some (24, moveNat g e src 0x2F8)
  | .unpark g e src => some (24, moveNat g e src 0x2F9)
  | .dump g e src => some (24, moveNat g e src 0x2FA)
  | .fwshare g e src => some (24, moveNat g e src 0x2FB)
  | .slotw g e src => some (24, moveNat g e src 0x2FC)
  | .keyop g e src => some (24, moveNat g e src 0x2FD)
  | .idle g e src => some (24, moveNat g e src 0x2FE)
  | .ill g e src => some (24, moveNat g e src 0x2FF)

end Sys2Proof
end

