-- ==== Sys2Proof/Machine/Num.lean ====
section
/-! DEFINITION. Floating-point formats, exact values, rounding and flags (chapter "Numbers, rounding and the
order of sums", R59 to R74). Every operation is computed exactly and rounded once. -/
namespace Sys2Proof.Machine

/-- The seven sticky flags in the places of `fps` (R65): SAT 6, IDZ 5, NV 4, DZ 3, OF 2, UF 1, NX 0. -/
abbrev Flags := BitVec 7

def flNone : Flags := 0
def flNX : Flags := 0x01
def flUF : Flags := 0x02
def flOF : Flags := 0x04
def flDZ : Flags := 0x08
def flNV : Flags := 0x10
def flIDZ : Flags := 0x20
def flSAT : Flags := 0x40

/-- The four rounding modes of `fpc`.RM (R65), and `rmm`, ties away from zero, of the host harts' RV64. -/
inductive RMode where
  | rne | rtz | rup | rdn | rmm
  deriving DecidableEq, Repr

/-- `fpc`.RM (R65). -/
def RMode.ofFpc (fpc : Word) : RMode :=
  match (fpc.toNat % 4) with
  | 0 => .rne
  | 1 => .rtz
  | 2 => .rup
  | _ => .rdn

/-- A floating-point format of R59: exponent bits, fraction bits, and whether it has infinities (F8A has none). -/
structure FFmt where
  eb : Nat
  fb : Nat
  hasInf : Bool
  deriving DecidableEq, Repr

def fp64 : FFmt := ⟨11, 52, true⟩
def fp32 : FFmt := ⟨8, 23, true⟩
def bf16 : FFmt := ⟨8, 7, true⟩
def fp16 : FFmt := ⟨5, 10, true⟩
def f8a : FFmt := ⟨4, 3, false⟩
def f8b : FFmt := ⟨5, 2, true⟩

/-- The width of a format in bits. -/
def FFmt.width (f : FFmt) : Nat := 1 + f.eb + f.fb

/-- The exponent bias of a format (R59). -/
def FFmt.bias (f : FFmt) : Nat := 2 ^ (f.eb - 1) - 1

/-- The exponent field of all ones. -/
def FFmt.emask (f : FFmt) : Nat := 2 ^ f.eb - 1

/-- The code of the largest finite magnitude (R59, R60). -/
def FFmt.maxFin (f : FFmt) : Nat :=
  if f.hasInf then f.emask * 2 ^ f.fb - 1 else 2 ^ (f.eb + f.fb) - 2

/-- The canonical NaN (R60). -/
def FFmt.nan (f : FFmt) : Nat :=
  if f.hasInf then f.emask * 2 ^ f.fb + 2 ^ (f.fb - 1) else 2 ^ (f.eb + f.fb) - 1

/-- The sign bit's weight. -/
def FFmt.sbit (f : FFmt) : Nat := 2 ^ (f.eb + f.fb)

/-- An exact value. `nan true` is a NaN whose use is an invalid operation (a signaling NaN, or the outcome of
∞ × 0 or ∞ − ∞). `fin s m e` is (−1)^s · m · 2^e, with the sign kept for zero. -/
inductive FV where
  | nan (invalid : Bool)
  | inf (neg : Bool)
  | fin (neg : Bool) (m : Nat) (e : Int)
  deriving DecidableEq, Repr

/-- Read a code of a format (R59, R60). -/
def unpack (f : FFmt) (code : Nat) : FV :=
  let c := code % 2 ^ f.width
  let neg := decide (f.sbit ≤ c)
  let c := c % f.sbit
  let ex := c / 2 ^ f.fb
  let fr := c % 2 ^ f.fb
  if f.hasInf && ex = f.emask then
    if fr = 0 then .inf neg else .nan (decide (fr < 2 ^ (f.fb - 1)))
  else if !f.hasInf && c = f.nan then .nan false
  else if ex = 0 then .fin neg fr (1 - (f.bias : Int) - f.fb)
  else .fin neg (2 ^ f.fb + fr) ((ex : Int) - f.bias - f.fb)

/-- The number of bits of a number (0 for 0). -/
def bitLen (n : Nat) : Nat := if n = 0 then 0 else Nat.log2 n + 1

/-- Whether a magnitude with the given remainder above `kept` is rounded away from zero. `cmp` compares the
remainder with one half: 0 exact, 1 below, 2 equal, 3 above. -/
def roundsUp (rm : RMode) (neg odd : Bool) (cmp : Nat) : Bool :=
  match rm with
  | .rne => cmp = 3 || (cmp = 2 && odd)
  | .rtz => false
  | .rup => cmp ≠ 0 && !neg
  | .rdn => cmp ≠ 0 && neg
  | .rmm => decide (2 ≤ cmp)

/-- How the low `sh` bits of `m`, with `st` for anything further below, compare with one half. -/
def halfCmp (m sh : Nat) (st : Bool) : Nat :=
  if sh = 0 then (if st then 1 else 0)
  else
    let r := m % 2 ^ sh
    let h := 2 ^ (sh - 1)
    if r = 0 && !st then 0 else if r < h then 1 else if r = h && !st then 2 else 3

/-- The magnitude of m·2^e (with `st` for a nonzero part below bit 0 of m) rounded to a multiple of 2^q, and
whether that was inexact. -/
def roundAt (rm : RMode) (neg : Bool) (m : Nat) (e : Int) (st : Bool) (q : Int) : Nat × Bool :=
  if q ≤ e then (m * 2 ^ (e - q).toNat + (if roundsUp rm neg false (if st then 1 else 0) then 1 else 0), st)
  else
    let sh := (q - e).toNat
    let k := m / 2 ^ sh
    let c := halfCmp m sh st
    (k + (if roundsUp rm neg (k % 2 = 1) c then 1 else 0), c ≠ 0)

/-- Round (−1)^neg · m · 2^e to a format (R66, R73). A caller that sets `st` supplies at least fb + 3 bits of m. -/
def roundFin (f : FFmt) (rm : RMode) (neg : Bool) (m : Nat) (e : Int) (st : Bool := false) : Nat × Flags :=
  let s := if neg then f.sbit else 0
  if m = 0 then (s, if st then flNX ||| flUF else 0)
  else
    let emin : Int := 1 - f.bias
    let ex : Int := e + (bitLen m : Int) - 1
    let q := max (ex - f.fb) (emin - f.fb)
    let (k, ix) := roundAt rm neg m e st q
    let code : Nat := ((q + f.fb + f.bias - 1).toNat) * 2 ^ f.fb + k
    if f.maxFin < code then
      if f.hasInf then
        let toInf := match rm with
          | .rne => true
          | .rtz => false
          | .rup => !neg
          | .rdn => neg
          | .rmm => true
        (s + (if toInf then f.emask * 2 ^ f.fb else f.maxFin), flOF ||| flNX)
      else (s + f.maxFin, flSAT ||| flOF ||| flNX)
    else
      let tiny : Bool :=
        if ex < emin - 1 then true
        else if ex = emin - 1 then (roundAt rm neg m e st (ex - f.fb)).1 < 2 ^ (f.fb + 1)
        else false
      (s + code, (if ix then flNX else 0) ||| (if ix && tiny then flUF else 0))

/-- Round an exact value to a format (R60, R66, R73). -/
def roundFV (f : FFmt) (rm : RMode) : FV → Nat × Flags
  | .nan inv => (f.nan, if inv then flNV else 0)
  | .inf neg =>
    let s := if neg then f.sbit else 0
    if f.hasInf then (s + f.emask * 2 ^ f.fb, 0) else (s + f.maxFin, flSAT ||| flOF ||| flNX)
  | .fin neg m e => roundFin f rm neg m e

/-- The exact negation; a NaN stays as it is. -/
def FV.neg : FV → FV
  | .nan i => .nan i
  | .inf s => .inf (!s)
  | .fin s m e => .fin (!s) m e

def FV.isNan : FV → Bool
  | .nan _ => true
  | _ => false

def FV.isZero : FV → Bool
  | .fin _ 0 _ => true
  | _ => false

def FV.sign : FV → Bool
  | .nan _ => false
  | .inf s => s
  | .fin s _ _ => s

/-- The exact product (R66: ∞ × 0 is invalid). -/
def FV.mul : FV → FV → FV
  | .nan i, .nan j => .nan (i || j)
  | .nan i, _ => .nan i
  | _, .nan j => .nan j
  | .inf s, .inf t => .inf (s != t)
  | .inf s, .fin t m _ => if m = 0 then .nan true else .inf (s != t)
  | .fin s m _, .inf t => if m = 0 then .nan true else .inf (s != t)
  | .fin s m e, .fin t n k => .fin (s != t) (m * n) (e + k)

/-- A signed multiple of 2^e as an integer multiple of 2^q, for q ≤ e. -/
def FV.at (q : Int) : FV → Int
  | .fin s m e => let v : Int := (m * 2 ^ (e - q).toNat : Nat); if s then -v else v
  | _ => 0

/-- What a sum has met so far: a NaN, whether one was invalid, +∞, −∞, and whether a finite term was not −0. -/
structure SumAcc where
  nan : Bool := false
  inv : Bool := false
  pinf : Bool := false
  ninf : Bool := false
  notNegZero : Bool := false
  notPosZero : Bool := false
  low : Option Int := none
  deriving DecidableEq, Repr

def SumAcc.add (a : SumAcc) : FV → SumAcc
  | .nan i => { a with nan := true, inv := a.inv || i }
  | .inf s => if s then { a with ninf := true } else { a with pinf := true }
  | .fin s m e =>
    { a with
      notNegZero := a.notNegZero || !(m = 0 && s)
      notPosZero := a.notPosZero || !(m = 0 && !s)
      low := some (match a.low with
        | none => e
        | some l => min l e) }

/-- The exact sum of exact terms. A sum of infinities of opposite sign is invalid (R66, R68). The sign of an exact
zero is that of IEEE 754: the common sign of zero terms, else + and under RDN −. -/
def fsum (rm : RMode) (ts : List FV) : FV :=
  let a := ts.foldl SumAcc.add {}
  if a.nan then .nan (a.inv || (a.pinf && a.ninf))
  else if a.pinf && a.ninf then .nan true
  else if a.pinf then .inf false
  else if a.ninf then .inf true
  else
    let q := a.low.getD 0
    let v : Int := ts.foldl (fun (s : Int) t => s + t.at q) 0
    if v = 0 then
      let neg := if !a.notNegZero && !ts.isEmpty then true else if !a.notPosZero then false else decide (rm = .rdn)
      .fin neg 0 0
    else .fin (decide (v < 0)) v.natAbs q

/-- The integer square root by bits from `i` down (R66: used with enough bits for one rounding). -/
def isqrtGo (n : Nat) : Nat → Nat → Nat
  | 0, r => if (r + 1) * (r + 1) ≤ n then r + 1 else r
  | i + 1, r => let t := r + 2 ^ (i + 1); isqrtGo n i (if t * t ≤ n then t else r)

/-- The integer square root. -/
def isqrt (n : Nat) : Nat := isqrtGo n ((bitLen n + 1) / 2) 0

/-- Round(a / b) (R66, R201). -/
def fdiv (f : FFmt) (rm : RMode) (a b : FV) : Nat × Flags :=
  match a, b with
  | .nan i, .nan j => (f.nan, if i || j then flNV else 0)
  | .nan i, _ => (f.nan, if i then flNV else 0)
  | _, .nan j => (f.nan, if j then flNV else 0)
  | .inf _, .inf _ => (f.nan, flNV)
  | .inf s, .fin t _ _ => roundFV f rm (.inf (s != t))
  | .fin s _ _, .inf t => roundFV f rm (.fin (s != t) 0 0)
  | .fin s m e, .fin t n k =>
    if n = 0 then
      if m = 0 then (f.nan, flNV)
      else ((roundFV f rm (.inf (s != t))).1, flDZ)
    else
      let sh := f.fb + 4 + bitLen n
      let num := m * 2 ^ sh
      roundFin f rm (s != t) (num / n) (e - k - sh) (decide (num % n ≠ 0))

/-- Round(√a) (R66, R201). -/
def fsqrt (f : FFmt) (rm : RMode) (a : FV) : Nat × Flags :=
  match a with
  | .nan i => (f.nan, if i then flNV else 0)
  | .inf s => if s then (f.nan, flNV) else roundFV f rm (.inf false)
  | .fin s m e =>
    if m = 0 then roundFin f rm s 0 0
    else if s then (f.nan, flNV)
    else
      let sh0 := 2 * (f.fb + 4)
      let sh := if (e - sh0) % 2 = 0 then sh0 else sh0 + 1
      let n := m * 2 ^ sh
      let r := isqrt n
      roundFin f rm false r ((e - sh) / 2) (decide (r * r ≠ n))

/-- Round(1 / √a) (R214). -/
def frsqrt (f : FFmt) (rm : RMode) (a : FV) : Nat × Flags :=
  match a with
  | .nan i => (f.nan, if i then flNV else 0)
  | .inf s => if s then (f.nan, flNV) else roundFin f rm false 0 0
  | .fin s m e =>
    if m = 0 then ((roundFV f rm (.inf s)).1, flDZ)
    else if s then (f.nan, flNV)
    else
      let sh0 := 2 * (f.fb + 4) + 2 * bitLen m
      let sh := if (-e - (sh0 : Int)) % 2 = 0 then sh0 else sh0 + 1
      let n := 2 ^ sh / m
      let r := isqrt n
      roundFin f rm false r ((-e - (sh : Int)) / 2) (decide (r * r * m ≠ 2 ^ sh))

/-- The order of two exact values that are not NaN: −1, 0 or 1, with +0 = −0. -/
def FV.cmp (a b : FV) : Int :=
  match a, b with
  | .inf s, .inf t => if s = t then 0 else if s then -1 else 1
  | .inf s, _ => if s then -1 else 1
  | _, .inf t => if t then 1 else -1
  | .fin _ _ e, .fin _ _ k =>
    let q := min e k
    let x := a.at q
    let y := b.at q
    if x < y then -1 else if x = y then 0 else 1
  | _, _ => 0

/-- a < b with −0 below +0 (R202). -/
def FV.ltTotal (a b : FV) : Bool :=
  let c := a.cmp b
  c < 0 || (c = 0 && a.sign && !b.sign)

/-- minimumNumber and maximumNumber (R202): the code of the result and NV for a signaling NaN. -/
def fminmax (f : FFmt) (wantMax : Bool) (x y : Nat) : Nat × Flags :=
  let a := unpack f x
  let b := unpack f y
  let nv : Flags := if a = .nan true || b = .nan true then flNV else 0
  let r :=
    if a.isNan then (if b.isNan then f.nan else y)
    else if b.isNan then x
    else if wantMax then (if a.ltTotal b then y else x)
    else (if b.ltTotal a then y else x)
  (r % 2 ^ f.width, nv)

/-- Round an exact value to an integer, away from the exact value in the mode's direction; the flag says inexact. -/
def roundInt (rm : RMode) (neg : Bool) (m : Nat) (e : Int) : Int × Bool :=
  let (k, ix) := roundAt rm neg m e false 0
  ((if neg then -(k : Int) else k), ix)

/-- Float to integer (R74): saturates with NV and no other flag; a NaN gives the largest value. -/
def toInteger (rm : RMode) (lo hi : Int) : FV → Int × Flags
  | .nan _ => (hi, flNV)
  | .inf s => (if s then lo else hi, flNV)
  | .fin s m e =>
    let (v, ix) := roundInt rm s m e
    if v < lo then (lo, flNV) else if hi < v then (hi, flNV) else (v, if ix then flNX else 0)

/-- Integer to exact value. -/
def FV.ofInt (v : Int) : FV := .fin (decide (v < 0)) v.natAbs 0

/-- Round to an integral value of the same format (R206): NV for a signaling NaN and no other flag. -/
def frnd (f : FFmt) (rm : RMode) (x : Nat) : Nat × Flags :=
  match unpack f x with
  | .nan i => (f.nan, if i then flNV else 0)
  | .inf _ => (x % 2 ^ f.width, 0)
  | .fin s m e =>
    if m = 0 then (x % 2 ^ f.width, 0)
    else ((roundFin f .rne s (roundInt rm s m e).1.natAbs 0).1, 0)

/-- The one-hot class of R204. -/
def fclass (f : FFmt) (x : Nat) : Nat :=
  match unpack f x with
  | .nan i => if i then 2 ^ 8 else 2 ^ 9
  | .inf s => if s then 2 ^ 0 else 2 ^ 7
  | .fin s m e =>
    if m = 0 then (if s then 2 ^ 3 else 2 ^ 4)
    else if m < 2 ^ f.fb && e = 1 - (f.bias : Int) - f.fb then (if s then 2 ^ 2 else 2 ^ 5)
    else (if s then 2 ^ 1 else 2 ^ 6)

/-- −a in a format: exact; a NaN gives the canonical NaN, and NV if it is signaling (R214). -/
def fneg (f : FFmt) (x : Nat) : Nat × Flags :=
  match unpack f x with
  | .nan i => (f.nan, if i then flNV else 0)
  | _ => ((x % 2 ^ f.width) ^^^ f.sbit, 0)

/-- |a| in a format (R214). -/
def fabs (f : FFmt) (x : Nat) : Nat × Flags :=
  match unpack f x with
  | .nan i => (f.nan, if i then flNV else 0)
  | _ => (x % f.sbit, 0)

def fadd (f : FFmt) (rm : RMode) (x y : Nat) : Nat × Flags := roundFV f rm (fsum rm [unpack f x, unpack f y])
def fsub (f : FFmt) (rm : RMode) (x y : Nat) : Nat × Flags := roundFV f rm (fsum rm [unpack f x, (unpack f y).neg])
def fmul (f : FFmt) (rm : RMode) (x y : Nat) : Nat × Flags := roundFV f rm ((unpack f x).mul (unpack f y))
/-- Round(a × b + c), with one rounding (R201). -/
def ffma (f : FFmt) (rm : RMode) (x y z : Nat) : Nat × Flags :=
  roundFV f rm (fsum rm [(unpack f x).mul (unpack f y), unpack f z])
def fcvt (g f : FFmt) (rm : RMode) (x : Nat) : Nat × Flags := roundFV f rm (unpack g x)

/-! Correctly rounded functions of binary32 (R215), by fixed-point evaluation of 320 fraction bits. -/

/-- The fraction bits of the fixed-point evaluation. -/
def fxP : Nat := 320

/-- ln 2 · 2^320, rounded down (mathematical constant). -/
def fxLn2 : Nat := 0xb17217f7d1cf79abc9e3b39803f2f6af40f343267298b62d8a0d175b8baafa2be7b876206debac98

/-- 2π · 2^320, rounded down (mathematical constant). -/
def fxTwoPi : Nat := 0x6487ed5110b4611a62633145c06e0e68948127044533e63a0105df531d89cd9128a5043cc71a026ef

/-- Σ of the exponential series from term `k` with value `t`, for `n` more terms. -/
def fxExpGo (x : Nat) : Nat → Nat → Nat → Nat → Nat
  | 0, _, _, s => s
  | n + 1, k, t, s => let t' := t * x / 2 ^ fxP / k; fxExpGo x n (k + 1) t' (s + t')

/-- 2^x for a fixed-point x in [0, 1). -/
def fxExp2 (x : Nat) : Nat := fxExpGo (x * fxLn2 / 2 ^ fxP) 90 1 (2 ^ fxP) (2 ^ fxP)

/-- `n` fraction bits of log2 of a fixed-point y in [1, 2), by squaring. -/
def fxLog2Go : Nat → Nat → Nat → Nat
  | 0, _, r => r
  | n + 1, y, r =>
    let z := y * y / 2 ^ fxP
    if 2 ^ (fxP + 1) ≤ z then fxLog2Go n (z / 2) (2 * r + 1) else fxLog2Go n z (2 * r)

/-- Alternating series of sine or cosine from a term `t` of degree `k`: the sum of what is added less what is taken. -/
def fxTrigGo (x2 : Nat) : Nat → Nat → Nat → Int → Int → Int
  | 0, _, _, _, s => s
  | n + 1, k, t, sg, s =>
    let t' := t * x2 / 2 ^ fxP / ((k + 1) * (k + 2))
    fxTrigGo x2 n (k + 2) t' (-sg) (s - sg * t')

/-- sin of a fixed-point angle in [0, π/2]. -/
def fxSin (x : Nat) : Nat := (fxTrigGo (x * x / 2 ^ fxP) 50 1 x 1 x).toNat

/-- cos of a fixed-point angle in [0, π/2]. -/
def fxCos (x : Nat) : Nat := (fxTrigGo (x * x / 2 ^ fxP) 50 0 (2 ^ fxP) 1 (2 ^ fxP)).toNat

/-- VEXP2 of one element (R215): 2^a, exact only for an integral a. -/
def fexp2 (rm : RMode) (x : Nat) : Nat × Flags :=
  match unpack fp32 x with
  | .nan i => (fp32.nan, if i then flNV else 0)
  | .inf s => if s then (0, 0) else roundFV fp32 rm (.inf false)
  | .fin s m e =>
    if m = 0 then roundFin fp32 rm false 1 0
    else if 8 ≤ e + (bitLen m : Int) - 1 then
      -- |a| ≥ 256: beyond every finite and every subnormal result
      if s then roundFin fp32 rm false (2 ^ 40 + 1) (-300) else roundFin fp32 rm false 1 300
    else
      -- a as a multiple of 2^-320
      let v : Int := (m * 2 ^ (e + (fxP : Int)).toNat : Nat)
      let v := if s then -v else v
      let ip := v / 2 ^ fxP
      let fr := (v % 2 ^ fxP).toNat
      if fr = 0 then roundFin fp32 rm false 1 ip
      else roundFin fp32 rm false (fxExp2 fr) (ip - fxP) true

/-- VLOG2 of one element (R215). -/
def flog2 (rm : RMode) (x : Nat) : Nat × Flags :=
  match unpack fp32 x with
  | .nan i => (fp32.nan, if i then flNV else 0)
  | .inf s => if s then (fp32.nan, flNV) else roundFV fp32 rm (.inf false)
  | .fin s m e =>
    if m = 0 then ((roundFV fp32 rm (.inf true)).1, flDZ)
    else if s then (fp32.nan, flNV)
    else
      let l := bitLen m - 1
      let ip : Int := e + l
      if m = 2 ^ l then roundFV fp32 rm (.fin (decide (ip < 0)) ip.natAbs 0)
      else
        -- 160 fraction bits of log2(m / 2^l), then the exact sum with the integer part; the true value lies above
        let fr := fxLog2Go 160 (m * 2 ^ (fxP - l)) 0
        let v : Int := ip * 2 ^ 160 + fr
        if 0 ≤ v then roundFin fp32 rm false v.natAbs (-160) true
        else roundFin fp32 rm true (v.natAbs - 1) (-160) true

/-- sin (`cosine = false`) or cos of 2π·t (R215). -/
def fturn (cosine : Bool) (rm : RMode) (x : Nat) : Nat × Flags :=
  match unpack fp32 x with
  | .nan i => (fp32.nan, if i then flNV else 0)
  | .inf _ => (fp32.nan, flNV)
  | .fin s m e =>
    -- |t| mod 1 as a multiple of 2^-320; e ≥ −149
    let r := m * 2 ^ (e + (fxP : Int)).toNat % 2 ^ fxP
    let quarter := 2 ^ (fxP - 2)
    let quad := r / quarter
    let rem := r % quarter
    -- sin of t has the sign of t; cos is even
    let useCos := if cosine then decide (quad % 2 = 0) else decide (quad % 2 = 1)
    let neg := if cosine then decide (quad = 1 ∨ quad = 2) else (decide (2 ≤ quad)) != s
    if rem = 0 then
      if useCos then roundFin fp32 rm neg 1 0
      else roundFin fp32 rm (if cosine then false else s) 0 0
    else
      let th := rem * fxTwoPi / 2 ^ fxP
      roundFin fp32 rm neg (if useCos then fxCos th else fxSin th) (-(fxP : Int)) true

end Sys2Proof.Machine
end

