-- ==== Sys2Proof/Machine/Scalar.lean ====
section
/-! DEFINITION. The scalar operations (chapter "The kernel: scalar operations", R181 to R206): what each computes
from its operands. When a result lands, and the operations that act on special registers or raise checks, are the
bundle's (Machine/Issue.lean). -/
namespace Sys2Proof.Machine

/-- What a scalar operation reads (R181): `a`, `b`, X, the rounding mode of `fpc` and the predicates p7..p0. -/
structure SIn where
  a : Word
  b : Word
  x : Word
  rm : RMode
  preds : BitVec 8
  deriving DecidableEq, Repr

/-- What a scalar operation delivers: result ports `x` and `y` where it writes them, and the flags it raises. -/
structure SRes where
  x : Option Word := none
  y : Option Word := none
  fl : Flags := 0
  deriving DecidableEq, Repr

/-- A truth value: all ones or zero (R181). -/
def truth (b : Bool) : Word := if b then BitVec.allOnes 64 else 0

/-- Sign-extend the low 32 bits (SX32). -/
def sx32 (v : Word) : Word := (v.setWidth 32).signExtend 64

/-- An integer as a 64-bit word, modulo 2^64. -/
def wInt (v : Int) : Word := BitVec.ofInt 64 v

/-- A signed integer saturated to `w` bits, and whether it was out of range (R61). -/
def satS (w : Nat) (v : Int) : Int × Bool :=
  if v < -(2 ^ (w - 1) : Int) then (-(2 ^ (w - 1) : Int), true)
  else if (2 ^ (w - 1) : Int) - 1 < v then ((2 ^ (w - 1) : Int) - 1, true)
  else (v, false)

/-- An integer saturated to `w` unsigned bits (R61). -/
def satU (w : Nat) (v : Int) : Int × Bool :=
  if v < 0 then (0, true) else if (2 ^ w : Int) - 1 < v then ((2 ^ w : Int) - 1, true) else (v, false)

/-- Integer division by R62 for width `w`: quotient and remainder modulo 2^w, and whether the divisor is 0. -/
def divS (w : Nat) (a b : Int) : Int × Int × Bool :=
  if b = 0 then (-1, a, true)
  else if a = -(2 ^ (w - 1) : Int) ∧ b = -1 then (a, 0, false)
  else (a.tdiv b, a.tmod b, false)

/-- Unsigned division by R62. -/
def divU (w : Nat) (a b : Nat) : Nat × Nat × Bool :=
  if b = 0 then (2 ^ w - 1, a, true) else (a / b, a % b, false)

/-! ### Integer arithmetic (R184 to R189) -/

def sAdd (i : SIn) : SRes :=
  { x := some (i.a + i.b), y := some (if 2 ^ 64 ≤ i.a.toNat + i.b.toNat then 1 else 0) }
def sSub (i : SIn) : SRes :=
  { x := some (i.a - i.b), y := some (if i.a.toNat < i.b.toNat then 1 else 0) }
def sAddw (i : SIn) : SRes := { x := some (sx32 (i.a + i.b)) }
def sSubw (i : SIn) : SRes := { x := some (sx32 (i.a - i.b)) }
/-- A saturating form: `y` says whether it saturated, and SAT is raised (R184). -/
def sSat (v : Int) : SRes :=
  let (r, s) := satS 64 v
  { x := some (wInt r), y := some (if s then 1 else 0), fl := if s then flSAT else 0 }
def sAdds (i : SIn) : SRes := sSat (i.a.toInt + i.b.toInt)
def sSubs (i : SIn) : SRes := sSat (i.a.toInt - i.b.toInt)

def sMul (i : SIn) : SRes := { x := some (i.a * i.b) }
def sMulh (i : SIn) : SRes := { x := some (wInt (i.a.toInt * i.b.toInt / 2 ^ 64)) }
def sMulhu (i : SIn) : SRes := { x := some (BitVec.ofNat 64 (i.a.toNat * i.b.toNat / 2 ^ 64)) }
def sMulw (i : SIn) : SRes := { x := some (sx32 (i.a * i.b)) }

def sDiv (i : SIn) : SRes :=
  let (q, r, z) := divS 64 i.a.toInt i.b.toInt
  { x := some (wInt q), y := some (wInt r), fl := if z then flIDZ else 0 }
def sDivu (i : SIn) : SRes :=
  let (q, r, z) := divU 64 i.a.toNat i.b.toNat
  { x := some (BitVec.ofNat 64 q), y := some (BitVec.ofNat 64 r), fl := if z then flIDZ else 0 }
def sRem (i : SIn) : SRes :=
  let (q, r, z) := divS 64 i.a.toInt i.b.toInt
  { x := some (wInt r), y := some (wInt q), fl := if z then flIDZ else 0 }
def sRemu (i : SIn) : SRes :=
  let (q, r, z) := divU 64 i.a.toNat i.b.toNat
  { x := some (BitVec.ofNat 64 r), y := some (BitVec.ofNat 64 q), fl := if z then flIDZ else 0 }

/-- b[5:0]. -/
def sCnt (i : SIn) : Nat := i.b.toNat % 64

def sAnd (i : SIn) : SRes := { x := some (i.a &&& i.b) }
def sOr (i : SIn) : SRes := { x := some (i.a ||| i.b) }
def sXor (i : SIn) : SRes := { x := some (i.a ^^^ i.b) }
def sAndn (i : SIn) : SRes := { x := some (i.a &&& ~~~i.b) }
def sSll (i : SIn) : SRes := { x := some (i.a <<< sCnt i) }
def sSrl (i : SIn) : SRes := { x := some (i.a >>> sCnt i) }
def sSra (i : SIn) : SRes := { x := some (i.a.sshiftRight (sCnt i)) }
def sRol (i : SIn) : SRes := { x := some ((i.a <<< sCnt i) ||| (i.a >>> (64 - sCnt i))) }

/-- Leading zero bits of a 64-bit value. -/
def clz64 (v : Word) : Nat := 64 - bitLen v.toNat
/-- The number of one bits among the low `n` bits. -/
def popGo (v : Nat) : Nat → Nat
  | 0 => 0
  | n + 1 => v / 2 ^ n % 2 + popGo v n
/-- The low `n` bits in reverse order, as a number. -/
def revGo (v : Nat) : Nat → Nat
  | 0 => 0
  | n + 1 => v / 2 ^ n % 2 + 2 * revGo v n
/-- The index of the lowest one bit at or above bit `k`, scanning `n` bits; `k + n` if there is none. -/
def ctzGo (v : Nat) : Nat → Nat → Nat
  | 0, k => k
  | n + 1, k => if v / 2 ^ k % 2 = 1 then k else ctzGo v n (k + 1)

def sClz (i : SIn) : SRes := { x := some (BitVec.ofNat 64 (clz64 i.a)) }
def sCtz (i : SIn) : SRes := { x := some (BitVec.ofNat 64 (ctzGo i.a.toNat 64 0)) }
def sPopc (i : SIn) : SRes := { x := some (BitVec.ofNat 64 (popGo i.a.toNat 64)) }
/-- x[i] = a[63 − i]: bit 63 of a becomes bit 0. -/
def sBrev (i : SIn) : SRes := { x := some (BitVec.ofNat 64 (revGo i.a.toNat 64)) }

def sMin (i : SIn) : SRes := { x := some (if i.a.toInt ≤ i.b.toInt then i.a else i.b) }
def sMax (i : SIn) : SRes := { x := some (if i.b.toInt ≤ i.a.toInt then i.a else i.b) }
def sMinu (i : SIn) : SRes := { x := some (if i.a.toNat ≤ i.b.toNat then i.a else i.b) }
def sMaxu (i : SIn) : SRes := { x := some (if i.b.toNat ≤ i.a.toNat then i.a else i.b) }
def sAbs (i : SIn) : SRes := { x := some (if i.a.msb then -i.a else i.a) }
def sNeg (i : SIn) : SRes := { x := some (-i.a) }

/-! ### Compares, selection, fields and predicates (R190 to R194) -/

/-- A compare writes its truth value to `x` and the complement to `y` (R190). -/
def sCmp (t : Bool) : SRes := { x := some (truth t), y := some (truth (!t)) }
def sCeq (i : SIn) : SRes := sCmp (i.a = i.b)
def sCne (i : SIn) : SRes := sCmp (i.a ≠ i.b)
def sClt (i : SIn) : SRes := sCmp (i.a.toInt < i.b.toInt)
def sCltu (i : SIn) : SRes := sCmp (i.a.toNat < i.b.toNat)
def sCle (i : SIn) : SRes := sCmp (i.a.toInt ≤ i.b.toInt)
def sCleu (i : SIn) : SRes := sCmp (i.a.toNat ≤ i.b.toNat)
def sCtst (i : SIn) : SRes := sCmp (i.a &&& i.b ≠ 0)
def sCbit (i : SIn) : SRes := sCmp (i.a.getLsbD (sCnt i))

def sSel (i : SIn) : SRes := { x := some ((i.a &&& i.x) ||| (i.b &&& ~~~i.x)) }

/-- len := b[13:8], 0 meaning 64 (R192). -/
def fieldLen (i : SIn) : Nat := let l := i.b.toNat / 256 % 64; if l = 0 then 64 else l
def sExtu (i : SIn) : SRes := { x := some (BitVec.ofNat 64 (i.a.toNat / 2 ^ sCnt i % 2 ^ fieldLen i)) }
def sExt (i : SIn) : SRes :=
  let f := i.a.sshiftRight (sCnt i)
  { x := some ((f <<< (64 - fieldLen i)).sshiftRight (64 - fieldLen i)) }
def sIns (i : SIn) : SRes :=
  let mask : Word := BitVec.ofNat 64 (2 ^ fieldLen i - 1) <<< sCnt i
  { x := some ((i.x &&& ~~~mask) ||| ((i.a <<< sCnt i) &&& mask)) }

def sLea (i : SIn) : SRes := { x := some (i.a + (i.b <<< 3)) }
def sLea2 (i : SIn) : SRes :=
  { x := some (i.a + BitVec.ofNat 64 (i.b.toNat % 2 ^ 32) + (BitVec.ofNat 64 (i.b.toNat / 2 ^ 32) <<< 9)) }
def sMovk (i : SIn) : SRes :=
  let k := 16 * (i.b.toNat % 4)
  { x := some ((i.x &&& ~~~((0xFFFF : Word) <<< k)) ||| (BitVec.ofNat 64 (i.a.toNat % 2 ^ 16) <<< k)) }

def sPand (i : SIn) : SRes := { x := some (truth (i.a.getLsbD 0 && i.b.getLsbD 0)) }
def sPor (i : SIn) : SRes := { x := some (truth (i.a.getLsbD 0 || i.b.getLsbD 0)) }
def sPxor (i : SIn) : SRes := { x := some (truth (i.a.getLsbD 0 != i.b.getLsbD 0)) }
def sPnot (i : SIn) : SRes := { x := some (truth (!i.a.getLsbD 0)) }
def sPandn (i : SIn) : SRes := { x := some (truth (i.a.getLsbD 0 && !i.b.getLsbD 0)) }
def sPmov (i : SIn) : SRes := { x := some (truth (i.a.getLsbD 0)) }
def sPget (i : SIn) : SRes := { x := some ((i.preds ||| 1).setWidth 64) }
/-- True when pk is true for every k with a[k] = 1 (R194). -/
def sPall (i : SIn) : SRes := { x := some (truth (i.a.setWidth 8 &&& ~~~(i.preds ||| 1) = (0 : BitVec 8))) }

/-- CHKEQ and CHKP without a mismatch behave as a move of a to `x` (R195). -/
def sChk (i : SIn) : SRes := { x := some i.a }
/-- A mismatch of CHKEQ. -/
def chkeqDiffers (i : SIn) : Bool := decide (i.a ≠ i.b)
/-- A mismatch of CHKP. -/
def chkpDiffers (i : SIn) : Bool := i.a.getLsbD 0 != i.b.getLsbD 0

/-! ### Generators and byte operations (R197 to R199) -/

/-- One step of the generator (R197). -/
def randStep (seed : Word) : Word :=
  let s : Word := if seed = 0 then 0x9E3779B97F4A7C15 else seed
  let s := s ^^^ (s <<< 13)
  let s := s ^^^ (s >>> 7)
  s ^^^ (s <<< 17)
/-- What RAND writes to `x`, from the stepped generator. -/
def randOut (s : Word) : Word := s * 0x2545F4914F6CDD1D

def sMix (i : SIn) : SRes :=
  let z := i.a ^^^ i.b
  let z := (z ^^^ (z >>> 30)) * 0xBF58476D1CE4E5B9
  let z := (z ^^^ (z >>> 27)) * 0x94D049BB133111EB
  { x := some (z ^^^ (z >>> 31)) }

/-- CRC-32C of the bits of `b` from bit `k` up, `n` of them (R198). -/
def crcGo (b : Nat) : Nat → Nat → Nat → Nat
  | 0, _, c => c
  | n + 1, k, c =>
    let t := (c + b / 2 ^ k) % 2
    let c := c / 2
    crcGo b n (k + 1) (if t = 1 then c ^^^ 0x82F63B78 else c)
def sCrc (i : SIn) : SRes := { x := some (BitVec.ofNat 64 (crcGo i.b.toNat 64 0 (i.a.toNat % 2 ^ 32))) }

/-- The low `n` bytes in reverse order. -/
def bswapGo (v : Nat) : Nat → Nat
  | 0 => 0
  | n + 1 => v / 256 ^ n % 256 + 256 * bswapGo v n
def sBswap (i : SIn) : SRes :=
  let w := match i.b.toNat % 4 with
    | 1 => 4
    | 2 => 2
    | _ => 8
  { x := some (BitVec.ofNat 64 (bswapGo i.a.toNat w)) }

/-- NOP reads nothing, writes no result port and raises no flag (R199). -/
def sNop (_ : SIn) : SRes := {}

/-! ### Floating point (R200 to R206) -/

/-- A float result: the code zero-extended into `x`, and its flags. -/
def sF (r : Nat × Flags) : SRes := { x := some (BitVec.ofNat 64 r.1), fl := r.2 }

def sFaddD (i : SIn) : SRes := sF (fadd fp64 i.rm i.a.toNat i.b.toNat)
def sFsubD (i : SIn) : SRes := sF (fsub fp64 i.rm i.a.toNat i.b.toNat)
def sFmulD (i : SIn) : SRes := sF (fmul fp64 i.rm i.a.toNat i.b.toNat)
def sFfmaD (i : SIn) : SRes := sF (ffma fp64 i.rm i.a.toNat i.b.toNat i.x.toNat)
def sFdivD (i : SIn) : SRes := sF (fdiv fp64 i.rm (unpack fp64 i.a.toNat) (unpack fp64 i.b.toNat))
def sFsqrtD (i : SIn) : SRes := sF (fsqrt fp64 i.rm (unpack fp64 i.a.toNat))
def sFminD (i : SIn) : SRes := sF (fminmax fp64 false i.a.toNat i.b.toNat)
def sFmaxD (i : SIn) : SRes := sF (fminmax fp64 true i.a.toNat i.b.toNat)
def sFaddS (i : SIn) : SRes := sF (fadd fp32 i.rm i.a.toNat i.b.toNat)
def sFsubS (i : SIn) : SRes := sF (fsub fp32 i.rm i.a.toNat i.b.toNat)
def sFmulS (i : SIn) : SRes := sF (fmul fp32 i.rm i.a.toNat i.b.toNat)
def sFfmaS (i : SIn) : SRes := sF (ffma fp32 i.rm i.a.toNat i.b.toNat i.x.toNat)
def sFdivS (i : SIn) : SRes := sF (fdiv fp32 i.rm (unpack fp32 i.a.toNat) (unpack fp32 i.b.toNat))
def sFsqrtS (i : SIn) : SRes := sF (fsqrt fp32 i.rm (unpack fp32 i.a.toNat))
def sFminS (i : SIn) : SRes := sF (fminmax fp32 false i.a.toNat i.b.toNat)
def sFmaxS (i : SIn) : SRes := sF (fminmax fp32 true i.a.toNat i.b.toNat)

/-- A float compare: the truth value, whether the operands are unordered, and NV (R203). `quiet` raises NV only
for a signaling NaN. -/
def fcompare (f : FFmt) (quiet : Bool) (t : Int → Bool) (x y : Nat) : Bool × Bool × Flags :=
  let a := unpack f x
  let b := unpack f y
  if a.isNan || b.isNan then
    (false, true, if !quiet || a = .nan true || b = .nan true then flNV else 0)
  else (t (a.cmp b), false, 0)

/-- A scalar float compare (R203): `y` is all ones for unordered operands. -/
def sFcmp (r : Bool × Bool × Flags) : SRes := { x := some (truth r.1), y := some (truth r.2.1), fl := r.2.2 }
def cmpEq (c : Int) : Bool := c = 0
def cmpLt (c : Int) : Bool := c < 0
def cmpLe (c : Int) : Bool := c ≤ 0
def sFceqD (i : SIn) : SRes := sFcmp (fcompare fp64 true cmpEq i.a.toNat i.b.toNat)
def sFcltD (i : SIn) : SRes := sFcmp (fcompare fp64 false cmpLt i.a.toNat i.b.toNat)
def sFcleD (i : SIn) : SRes := sFcmp (fcompare fp64 false cmpLe i.a.toNat i.b.toNat)
def sFceqS (i : SIn) : SRes := sFcmp (fcompare fp32 true cmpEq i.a.toNat i.b.toNat)
def sFcltS (i : SIn) : SRes := sFcmp (fcompare fp32 false cmpLt i.a.toNat i.b.toNat)
def sFcleS (i : SIn) : SRes := sFcmp (fcompare fp32 false cmpLe i.a.toNat i.b.toNat)

/-- The format FCLASS reads, by b[1:0] (R204). -/
def classFmt (i : SIn) : FFmt :=
  match i.b.toNat % 4 with
  | 0 => fp64
  | 1 => fp32
  | 2 => bf16
  | _ => fp16
def sFclass (i : SIn) : SRes := { x := some (BitVec.ofNat 64 (fclass (classFmt i) i.a.toNat)) }

def sFcvtSD (i : SIn) : SRes := sF (fcvt fp64 fp32 i.rm i.a.toNat)
def sFcvtDS (i : SIn) : SRes := sF (fcvt fp32 fp64 i.rm i.a.toNat)
def sFcvtDL (i : SIn) : SRes := sF (roundFV fp64 i.rm (.ofInt i.a.toInt))
def sFcvtLD (i : SIn) : SRes :=
  let (v, fl) := toInteger i.rm (-(2 ^ 63)) (2 ^ 63 - 1) (unpack fp64 i.a.toNat)
  { x := some (wInt v), fl := fl }
def sFcvtSW (i : SIn) : SRes := sF (roundFV fp32 i.rm (.ofInt (i.a.setWidth 32).toInt))
def sFcvtWS (i : SIn) : SRes :=
  let (v, fl) := toInteger i.rm (-(2 ^ 31)) (2 ^ 31 - 1) (unpack fp32 i.a.toNat)
  { x := some (wInt v), fl := fl }
def sFcvtBfS (i : SIn) : SRes := sF (fcvt fp32 bf16 i.rm i.a.toNat)
def sFcvtSBf (i : SIn) : SRes := sF (fcvt bf16 fp32 i.rm i.a.toNat)

/-- The mode of FRND and VRND: 0 to 3 the mode of `fpc`, 4 to 7 RNE, RTZ, RUP, RDN (R206, R219). -/
def rndMode (rm : RMode) (k : Nat) : RMode :=
  match k % 8 with
  | 4 => .rne
  | 5 => .rtz
  | 6 => .rup
  | 7 => .rdn
  | _ => rm
def sFrnd (i : SIn) : SRes :=
  sF (frnd (if i.b.getLsbD 0 then fp32 else fp64) (rndMode i.rm (i.b.toNat / 2)) i.a.toNat)

/-- The scalar operation of an opcode, as a function of its operands. RDSPEC, WRSPEC and RAND are given by the
bundle, which holds the special registers (R196, R197); an opcode outside 0x00 to 0x5F has none. -/
def scalarRes (o : Op) (i : SIn) : SRes :=
  match o with
  | .add => sAdd i | .sub => sSub i | .addw => sAddw i | .subw => sSubw i
  | .mul => sMul i | .mulh => sMulh i | .mulhu => sMulhu i | .mulw => sMulw i
  | .div => sDiv i | .divu => sDivu i | .rem => sRem i | .remu => sRemu i
  | .and => sAnd i | .or => sOr i | .xor => sXor i | .andn => sAndn i
  | .sll => sSll i | .srl => sSrl i | .sra => sSra i | .rol => sRol i
  | .clz => sClz i | .ctz => sCtz i | .popc => sPopc i | .brev => sBrev i
  | .min => sMin i | .max => sMax i | .minu => sMinu i | .maxu => sMaxu i
  | .abs => sAbs i | .neg => sNeg i | .adds => sAdds i | .subs => sSubs i
  | .ceq => sCeq i | .cne => sCne i | .clt => sClt i | .cltu => sCltu i
  | .cle => sCle i | .cleu => sCleu i | .ctst => sCtst i | .cbit => sCbit i
  | .sel => sSel i | .ext => sExt i | .extu => sExtu i | .ins => sIns i
  | .lea => sLea i | .lea2 => sLea2 i | .movk => sMovk i | .crc => sCrc i
  | .pand => sPand i | .por => sPor i | .pxor => sPxor i | .pnot => sPnot i
  | .pandn => sPandn i | .pmov => sPmov i | .pget => sPget i | .pall => sPall i
  | .chkeq => sChk i | .chkp => sChk i | .mix => sMix i | .bswap => sBswap i | .nop => sNop i
  | .faddD => sFaddD i | .fsubD => sFsubD i | .fmulD => sFmulD i | .ffmaD => sFfmaD i
  | .fdivD => sFdivD i | .fsqrtD => sFsqrtD i | .fminD => sFminD i | .fmaxD => sFmaxD i
  | .faddS => sFaddS i | .fsubS => sFsubS i | .fmulS => sFmulS i | .ffmaS => sFfmaS i
  | .fdivS => sFdivS i | .fsqrtS => sFsqrtS i | .fminS => sFminS i | .fmaxS => sFmaxS i
  | .fceqD => sFceqD i | .fcltD => sFcltD i | .fcleD => sFcleD i
  | .fceqS => sFceqS i | .fcltS => sFcltS i | .fcleS => sFcleS i | .fclass => sFclass i
  | .fcvtSD => sFcvtSD i | .fcvtDS => sFcvtDS i | .fcvtDL => sFcvtDL i | .fcvtLD => sFcvtLD i
  | .fcvtSW => sFcvtSW i | .fcvtWS => sFcvtWS i | .fcvtBfS => sFcvtBfS i | .fcvtSBf => sFcvtSBf i
  | .frnd => sFrnd i
  | _ => {}

/-- The latency of a scalar operation (R183). -/
def scalarLat (o : Op) : Nat :=
  match o with
  | .clz | .ctz | .popc | .brev | .crc => 2
  | .fminD | .fmaxD | .fminS | .fmaxS => 2
  | .fceqD | .fcltD | .fcleD | .fceqS | .fcltS | .fcleS => 2
  | .mul | .mulh | .mulhu | .mulw | .mix => 3
  | .fcvtSD | .fcvtDS | .fcvtDL | .fcvtLD | .fcvtSW | .fcvtWS | .fcvtBfS | .fcvtSBf | .frnd => 3
  | .faddD | .fsubD | .fmulD | .ffmaD | .faddS | .fsubS | .fmulS | .ffmaS => 4
  | .fdivS => 12
  | .fsqrtS => 14
  | .div | .divu | .rem | .remu => 20
  | .fdivD => 22
  | .fsqrtD => 26
  | _ => 1

end Sys2Proof.Machine
end

