-- ==== Sys2Proof/Machine/Vector.lean ====
section
/-! DEFINITION. The vector operations (chapter "The kernel: vector operations", R207 to R225) as functions of their
operands: elements, types, masks, results, the scalar result and the flags. -/
namespace Sys2Proof.Machine

/-- The element types of R209. -/
inductive VTy where
  | i32 | n32 | f32 | f64 | i16 | n16 | bf | hf | i8 | n8 | fa | fb
  deriving DecidableEq, Repr

/-- The type of a code; codes 0xC to 0xF are reserved (R209). -/
def VTy.ofCode (n : Nat) : Option VTy :=
  nth none [some .i32, some .n32, some .f32, some .f64, some .i16, some .n16, some .bf, some .hf,
    some .i8, some .n8, some .fa, some .fb] n

/-- The width of an element in bits (R209). -/
def VTy.width : VTy → Nat
  | .i32 | .n32 | .f32 => 32
  | .f64 => 64
  | .i16 | .n16 | .bf | .hf => 16
  | .i8 | .n8 | .fa | .fb => 8

/-- The classes I, F, N and S of R209. -/
inductive VCls where
  | I | F | N | S
  deriving DecidableEq, Repr

def VTy.cls : VTy → VCls
  | .i32 | .n32 => .I
  | .f32 | .f64 => .F
  | .i16 | .n16 | .i8 | .n8 => .N
  | .bf | .hf | .fa | .fb => .S

/-- Whether a type is a signed integer type. -/
def VTy.signed : VTy → Bool
  | .i32 | .i16 | .i8 => true
  | _ => false

def VTy.isInt (t : VTy) : Bool := t.cls = .I || t.cls = .N

/-- The float format of a float or storage type. -/
def VTy.fmt : VTy → FFmt
  | .f64 => fp64
  | .bf => bf16
  | .hf => fp16
  | .fa => f8a
  | .fb => f8b
  | _ => fp32

/-- The number of elements of a vector (R209). -/
def VTy.count (t : VTy) : Nat := 2048 / t.width

/-- The control word in port `c` (R208). -/
structure VCtl where
  raw : Word
  deriving DecidableEq, Repr

def VCtl.ty (c : VCtl) : Option VTy := VTy.ofCode (c.raw.toNat % 16)
def VCtl.sty (c : VCtl) : Option VTy := VTy.ofCode (c.raw.toNat / 16 % 16)
def VCtl.sat (c : VCtl) : Bool := c.raw.getLsbD 11
def VCtl.mz (c : VCtl) : Bool := c.raw.getLsbD 12
def VCtl.k (c : VCtl) : Nat := c.raw.toNat / 2 ^ 16 % 256
def VCtl.qd (c : VCtl) : Nat := c.raw.toNat / 2 ^ 24 % 8
def VCtl.qe (c : VCtl) : Bool := c.raw.getLsbD 27
/-- A nonzero reserved bit: [63:28], [15:13], [10:8] (R208). -/
def VCtl.reserved (c : VCtl) : Bool :=
  decide (c.raw.toNat / 2 ^ 28 ≠ 0 ∨ c.raw.toNat / 2 ^ 13 % 8 ≠ 0 ∨ c.raw.toNat / 2 ^ 8 % 8 ≠ 0)

/-- What a vector operation reads (R207): `a`, `b`, X, the control word, the value of the mask register that `m`
names (none when `m` is 0), and the rounding mode. -/
structure VIn where
  a : VReg
  b : VReg
  x : VReg
  c : VCtl
  m : Option Word
  rm : RMode
  deriving DecidableEq, Repr

/-- What it delivers: `x`, the scalar result where it has one, whether that is written to q[QD], and flags. -/
structure VRes where
  x : VReg
  q : Option Word := none
  fl : Flags := 0
  deriving DecidableEq, Repr

/-- Element `e` of width `w`. -/
def elem (w : Nat) (v : VReg) (e : Nat) : Nat := v.toNat / 2 ^ (w * e) % 2 ^ w

/-- The elements of a vector in ascending order. -/
def elems (w : Nat) (v : VReg) : List Nat := (upto 0 (2048 / w)).map (elem w v)

/-- A number from elements of width `w`, the first lowest. -/
def packGo (w : Nat) : List Nat → Nat
  | [] => 0
  | x :: t => x % 2 ^ w + 2 ^ w * packGo w t

/-- A vector from its elements. -/
def ofElems (w : Nat) (l : List Nat) : VReg := BitVec.ofNat 2048 (packGo w l)

/-- A scalar spread over all lanes as its low 32 bits (R36). -/
def spread (v : Word) : VReg := ofElems 32 (List.replicate 64 (v.toNat % 2 ^ 32))

/-- Lane `l` of a vector. -/
def lane (v : VReg) (l : Nat) : Nat := elem 32 v l

/-- The lane whose mask bit governs element `e` of width `w` (R209, R210). -/
def laneOf (w e : Nat) : Nat := e * w / 32

/-- Whether element `e` is active (R210). -/
def VIn.active (i : VIn) (w e : Nat) : Bool :=
  match i.m with
  | none => true
  | some q => q.getLsbD (laneOf w e)

/-- Whether complex element `k` is active: the bit of its lowest lane (R210). -/
def VIn.cactive (i : VIn) (w k : Nat) : Bool := i.active w (2 * k)

/-- The register named by `m` as an operand: every bit set for `m` = 0 (R223). -/
def VIn.operand (i : VIn) : Word := i.m.getD (BitVec.allOnes 64)

/-- What an inactive element of `x` takes (R210). -/
def VIn.idle (i : VIn) (w e : Nat) : Nat := if i.c.mz then 0 else elem w i.x e

/-- The rule of R210: `f` on each active element; only active elements raise flags. -/
def vmap (i : VIn) (w : Nat) (f : Nat → Nat × Flags) : VRes :=
  let rs := (upto 0 (2048 / w)).map fun e => if i.active w e then f e else (i.idle w e, (0 : Flags))
  { x := ofElems w (rs.map (·.1)), fl := rs.foldl (fun s r => s ||| r.2) 0 }

/-- As `vmap` with a function of a_e, b_e and X_e. -/
def vmap3 (i : VIn) (w : Nat) (f : Nat → Nat → Nat → Nat × Flags) : VRes :=
  vmap i w fun e => f (elem w i.a e) (elem w i.b e) (elem w i.x e)

/-- An element read as an integer of its type. -/
def VTy.val (t : VTy) (v : Nat) : Int := if t.signed && decide (2 ^ (t.width - 1) ≤ v) then (v : Int) - 2 ^ t.width else v

/-- An exact integer result narrowed to the type: saturated with SAT, else modulo 2^w (R61, R213). -/
def VTy.narrow (t : VTy) (sat : Bool) (v : Int) : Nat × Flags :=
  if sat then
    let (r, s) := if t.signed then satS t.width v else satU t.width v
    ((r % 2 ^ t.width).toNat, if s then flSAT else 0)
  else ((v % 2 ^ t.width).toNat, 0)

/-- A two-operand arithmetic operation given on integers and on floats. -/
def vArith (i : VIn) (t : VTy) (fi : Int → Int → Int → Int) (ff : FFmt → RMode → Nat → Nat → Nat → Nat × Flags) : VRes :=
  vmap3 i t.width fun a b x =>
    if t.isInt then t.narrow i.c.sat (fi (t.val a) (t.val b) (t.val x)) else ff t.fmt i.rm a b x

def vAdd (i : VIn) (t : VTy) : VRes := vArith i t (fun a b _ => a + b) (fun f r a b _ => fadd f r a b)
def vSub (i : VIn) (t : VTy) : VRes := vArith i t (fun a b _ => a - b) (fun f r a b _ => fsub f r a b)
def vMul (i : VIn) (t : VTy) : VRes := vArith i t (fun a b _ => a * b) (fun f r a b _ => fmul f r a b)
def vFma (i : VIn) (t : VTy) : VRes := vArith i t (fun a b x => x + a * b) (fun f r a b x => ffma f r a b x)
def vFms (i : VIn) (t : VTy) : VRes :=
  vArith i t (fun a b x => x - a * b) fun f r a b x =>
    roundFV f r (fsum r [unpack f x, ((unpack f a).mul (unpack f b)).neg])

/-- Minimum and maximum; for a float minimumNumber and maximumNumber (R214, R202). -/
def vMinMax (i : VIn) (t : VTy) (mx : Bool) : VRes :=
  vmap3 i t.width fun a b _ =>
    if t.isInt then ((if decide (t.val a ≤ t.val b) != mx then a else b), 0) else fminmax t.fmt mx a b
def vMin (i : VIn) (t : VTy) : VRes := vMinMax i t false
def vMax (i : VIn) (t : VTy) : VRes := vMinMax i t true
def vAbs (i : VIn) (t : VTy) : VRes :=
  vmap3 i t.width fun a _ _ =>
    if t.isInt then t.narrow i.c.sat (t.val a).natAbs else fabs t.fmt a
def vNeg (i : VIn) (t : VTy) : VRes :=
  vmap3 i t.width fun a _ _ => if t.isInt then t.narrow i.c.sat (-(t.val a)) else fneg t.fmt a

def vDiv (i : VIn) (t : VTy) : VRes :=
  vmap3 i t.width fun a b _ =>
    if t.isInt then
      if t.signed then
        let (q, _, z) := divS t.width (t.val a) (t.val b)
        ((q % 2 ^ t.width).toNat, if z then flIDZ else 0)
      else
        let (q, _, z) := divU t.width a b
        (q, if z then flIDZ else 0)
    else fdiv t.fmt i.rm (unpack t.fmt a) (unpack t.fmt b)
def vSqrt (i : VIn) (t : VTy) : VRes := vmap3 i t.width fun a _ _ => fsqrt t.fmt i.rm (unpack t.fmt a)
def vRcp (i : VIn) (t : VTy) : VRes := vmap3 i t.width fun a _ _ => fdiv t.fmt i.rm (.fin false 1 0) (unpack t.fmt a)
def vRsq (i : VIn) (t : VTy) : VRes := vmap3 i t.width fun a _ _ => frsqrt t.fmt i.rm (unpack t.fmt a)
def vExp2 (i : VIn) (t : VTy) : VRes := vmap3 i t.width fun a _ _ => fexp2 i.rm a
def vLog2 (i : VIn) (t : VTy) : VRes := vmap3 i t.width fun a _ _ => flog2 i.rm a

/-- The complex rule: `f k` gives both parts of complex element k, with the flags of each (R210, R216). -/
def vcmap (i : VIn) (w : Nat) (f : Nat → (Nat × Flags) × (Nat × Flags)) : VRes :=
  let rs := (upto 0 (2048 / w / 2)).map fun k =>
    if i.cactive w k then f k else ((i.idle w (2 * k), (0 : Flags)), (i.idle w (2 * k + 1), (0 : Flags)))
  { x := ofElems w (rs.flatMap fun r => [r.1.1, r.2.1]), fl := rs.foldl (fun s r => s ||| r.1.2 ||| r.2.2) 0 }

def vSincos (i : VIn) (t : VTy) : VRes :=
  vcmap i t.width fun k => let v := elem t.width i.a (2 * k); (fturn true i.rm v, fturn false i.rm v)

/-- One complex product, each part formed exactly and rounded once (R216). -/
def cmul (f : FFmt) (rm : RMode) (conj : Bool) (a b : Nat × Nat) : (Nat × Flags) × (Nat × Flags) :=
  let ar := unpack f a.1
  let ai := unpack f a.2
  let br := unpack f b.1
  let bi := unpack f b.2
  if conj then
    (roundFV f rm (fsum rm [ar.mul br, ai.mul bi]), roundFV f rm (fsum rm [ai.mul br, (ar.mul bi).neg]))
  else
    (roundFV f rm (fsum rm [ar.mul br, (ai.mul bi).neg]), roundFV f rm (fsum rm [ar.mul bi, ai.mul br]))

/-- Complex element `k`. -/
def celem (w : Nat) (v : VReg) (k : Nat) : Nat × Nat := (elem w v (2 * k), elem w v (2 * k + 1))

def vCmul (i : VIn) (t : VTy) : VRes :=
  vcmap i t.width fun k => cmul t.fmt i.rm (i.c.k % 2 = 1) (celem t.width i.a k) (celem t.width i.b k)
/-- The real part keeps its value; like every delivered NaN it is canonical (R60). -/
def vConj (i : VIn) (t : VTy) : VRes :=
  vcmap i t.width fun k =>
    let (r, m) := celem t.width i.a k
    (((if (unpack t.fmt r).isNan then t.fmt.nan else r), (fneg t.fmt r).2), fneg t.fmt m)

/-- The radix-2 butterfly of span 2^K[2:0] (R216). -/
def vBfly (i : VIn) (t : VTy) : VRes :=
  let s := i.c.k % 8
  let f := t.fmt
  vcmap i t.width fun k =>
    let up := decide (k / 2 ^ s % 2 = 1)
    let lo := if up then k - 2 ^ s else k
    let hi := lo + 2 ^ s
    let p := cmul f i.rm false (celem t.width i.b lo) (celem t.width i.a hi)
    let l := celem t.width i.a lo
    let g := fun (a b : Nat) => if up then fsub f i.rm a b else fadd f i.rm a b
    let re := g l.1 p.1.1
    let im := g l.2 p.2.1
    ((re.1, re.2 ||| p.1.2), (im.1, im.2 ||| p.2.2))

def vAnd (i : VIn) (t : VTy) : VRes := vmap3 i t.width fun a b _ => (a &&& b, 0)
def vOr (i : VIn) (t : VTy) : VRes := vmap3 i t.width fun a b _ => (a ||| b, 0)
def vXor (i : VIn) (t : VTy) : VRes := vmap3 i t.width fun a b _ => (a ^^^ b, 0)
def vShl (i : VIn) (t : VTy) : VRes := vmap3 i t.width fun a b _ => (a * 2 ^ (b % t.width) % 2 ^ t.width, 0)
/-- Arithmetic for an i-type, logical for an n-type (R217). -/
def vShr (i : VIn) (t : VTy) : VRes :=
  vmap3 i t.width fun a b _ => ((t.val a / 2 ^ (b % t.width) % 2 ^ t.width).toNat, 0)

/-- The truth value of a compare of two elements, with NV (R218). -/
def vcmpE (t : VTy) (quiet : Bool) (ok : Int → Bool) (a b : Nat) : Bool × Flags :=
  if t.isInt then
    let x := t.val a
    let y := t.val b
    (ok (if x < y then -1 else if x = y then 0 else 1), 0)
  else
    let r := fcompare t.fmt quiet ok a b
    (r.1, r.2.2)

/-- The elements of width `w` that touch lane `l`. -/
def laneElems (w l : Nat) : List Nat := if w = 64 then [l / 2] else upto (l * (32 / w)) (32 / w)

/-- A 64-bit mask from a predicate on lanes. -/
def maskOf (f : Nat → Bool) : Word := BitVec.ofNat 64 (packGo 1 ((upto 0 64).map fun l => if f l then 1 else 0))

/-- A vector compare: `x`, and as scalar result the mask of the lanes whose elements are all active and true. -/
def vCmp (i : VIn) (t : VTy) (quiet : Bool) (ok : Int → Bool) : VRes :=
  let w := t.width
  let tr := fun e => vcmpE t quiet ok (elem w i.a e) (elem w i.b e)
  let r := vmap i w fun e => ((if (tr e).1 then 2 ^ w - 1 else 0), (tr e).2)
  { r with q := some (maskOf fun l => (laneElems w l).all fun e => i.active w e && (tr e).1) }
def vCeq (i : VIn) (t : VTy) : VRes := vCmp i t true cmpEq
def vClt (i : VIn) (t : VTy) : VRes := vCmp i t false cmpLt
def vCle (i : VIn) (t : VTy) : VRes := vCmp i t false cmpLe
/-- VSEL writes every element (R218). -/
def vSel (i : VIn) (t : VTy) : VRes :=
  let w := t.width
  { x := ofElems w ((upto 0 t.count).map fun e => if i.active w e then elem w i.a e else elem w i.b e) }

/-- An integer narrowing or widening, or a conversion between the types of R219. -/
def vconv (s t : VTy) (rm : RMode) (v : Nat) : Nat × Flags :=
  if s.isInt then
    if t.isInt then t.narrow true (s.val v) else roundFV t.fmt rm (.ofInt (s.val v))
  else if t.isInt then
    let lo : Int := if t.signed then -(2 ^ (t.width - 1)) else 0
    let hi : Int := if t.signed then 2 ^ (t.width - 1) - 1 else 2 ^ t.width - 1
    let (r, fl) := toInteger rm lo hi (unpack s.fmt v)
    ((r % 2 ^ t.width).toNat, fl)
  else fcvt s.fmt t.fmt rm v

def vCvt (i : VIn) (s t : VTy) : VRes := vmap3 i t.width fun a _ _ => vconv s t i.rm a
def vPack (i : VIn) (s t : VTy) : VRes :=
  vmap i t.width fun e =>
    vconv s t i.rm (if e < s.count then elem s.width i.a e else elem s.width i.b (e - s.count))
def vUnpk (i : VIn) (s t : VTy) : VRes :=
  vmap i t.width fun e => vconv s t i.rm (elem s.width i.a (i.c.k % 2 * t.count + e))
def vRnd (i : VIn) (t : VTy) : VRes := vmap3 i t.width fun a _ _ => frnd t.fmt (rndMode i.rm i.c.k) a

def vPerm (i : VIn) (_ : VTy) : VRes :=
  vmap3 i 32 fun _ b _ => (if b / 64 % 2 = 1 then 0 else lane i.a (b % 64), 0)
/-- The lane that VSHUF puts at lane `l`, by K[2:0] (R220). -/
def shufLane (i : VIn) (l : Nat) : Nat :=
  match i.c.k % 8 with
  | 0 => if l % 2 = 0 then lane i.a (l / 2) else lane i.b (l / 2)
  | 1 => if l % 2 = 0 then lane i.a (32 + l / 2) else lane i.b (32 + l / 2)
  | 2 => if l < 32 then lane i.a (2 * l) else lane i.b (2 * (l - 32))
  | 3 => if l < 32 then lane i.a (2 * l + 1) else lane i.b (2 * (l - 32) + 1)
  | 4 => lane i.a (63 - l)
  | _ => lane i.a ((l + lane i.b 0 % 64) % 64)
def vShuf (i : VIn) (_ : VTy) : VRes := vmap i 32 fun l => (shufLane i l, 0)
def vBcast (i : VIn) (t : VTy) : VRes :=
  vmap i t.width fun _ => (elem t.width i.a (lane i.b 0 % t.count), 0)

/-- The identities of R72, as codes of the type: add, max, min. -/
def vIdent (t : VTy) (op : Nat) : Nat :=
  if t.isInt then
    match op with
    | 0 => 0
    | 1 => if t.signed then 2 ^ (t.width - 1) else 0
    | _ => if t.signed then 2 ^ (t.width - 1) - 1 else 2 ^ t.width - 1
  else
    match op with
    | 0 => t.fmt.sbit
    | 1 => t.fmt.sbit + t.fmt.emask * 2 ^ t.fmt.fb
    | _ => t.fmt.emask * 2 ^ t.fmt.fb

/-- One step of a reduction or scan: add 0, max 1, min 2; the integer add wraps (R221). -/
def vRedOp (t : VTy) (rm : RMode) (op : Nat) (a b : Nat) : Nat × Flags :=
  match op with
  | 0 => if t.isInt then t.narrow false (t.val a + t.val b) else fadd t.fmt rm a b
  | 1 => if t.isInt then ((if t.val a ≤ t.val b then b else a), 0) else fminmax t.fmt true a b
  | _ => if t.isInt then ((if t.val a ≤ t.val b then a else b), 0) else fminmax t.fmt false a b

/-- One level of the pairwise tree (R72). -/
def treeLevel (f : Nat → Nat → Nat × Flags) : List Nat → List Nat × Flags
  | a :: b :: t => let (v, fl) := f a b; let (r, fs) := treeLevel f t; (v :: r, fl ||| fs)
  | l => (l, 0)

/-- `n` levels of the pairwise tree. -/
def treeGo (f : Nat → Nat → Nat × Flags) : Nat → List Nat → Flags → Nat × Flags
  | 0, l, fl => (nth 0 l 0, fl)
  | n + 1, l, fl => let (r, fs) := treeLevel f l; treeGo f n r (fl ||| fs)

/-- A result as the scalar result: sign-extended for an i-type (R211). -/
def vScalar (t : VTy) (v : Nat) : Word := if t.signed then wInt (t.val v) else BitVec.ofNat 64 v

def vRed (i : VIn) (t : VTy) (op : Nat) : VRes :=
  let w := t.width
  let leaves := (upto 0 t.count).map fun e => if i.active w e then elem w i.a e else vIdent t op
  let (r, fl) := treeGo (vRedOp t i.rm op) (Nat.log2 t.count) leaves 0
  { x := ofElems w [r], q := some (vScalar t r), fl := fl }
def vRedadd (i : VIn) (t : VTy) : VRes := vRed i t 0
def vRedmax (i : VIn) (t : VTy) : VRes := vRed i t 1
def vRedmin (i : VIn) (t : VTy) : VRes := vRed i t 2

/-- The chain of a scan from element `e` on (R221). -/
def scanGo (i : VIn) (t : VTy) (op : Nat) (excl : Bool) : List Nat → Nat → Flags → List Nat × Flags
  | [], _, fl => ([], fl)
  | e :: es, r, fl =>
    let w := t.width
    let (r', f') := if i.active w e then vRedOp t i.rm op r (elem w i.a e) else (r, 0)
    let y := if i.active w e then (if excl then r else r') else i.idle w e
    let (ys, fs) := scanGo i t op excl es r' (fl ||| f')
    (y :: ys, fs)
def vScan (i : VIn) (t : VTy) : VRes :=
  let op := i.c.k % 4
  let (ys, fl) := scanGo i t op (decide (i.c.k / 16 % 2 = 1)) (upto 0 t.count) (vIdent t op) 0
  { x := ofElems t.width ys, fl := fl }

def vIdx (i : VIn) (t : VTy) : VRes :=
  vmap i t.width fun e => ((elem t.width i.a e + e * elem t.width i.b e) % 2 ^ t.width, 0)
def vExtr (i : VIn) (t : VTy) : VRes :=
  let v := elem t.width i.a (lane i.b 0 % t.count)
  { x := ofElems t.width [v], q := some (vScalar t v) }
def vInsr (i : VIn) (t : VTy) : VRes :=
  let w := t.width
  { x := ofElems w ((upto 0 t.count).map fun e => if e = i.c.k % t.count then elem w i.b 0 else elem w i.a e) }

/-- VMOVQ with K[0] = 0 writes q[QD] whatever QE holds (R211, R223). -/
def vMovq (i : VIn) : VRes :=
  if i.c.k % 2 = 0 then { x := i.a, q := some (maskOf fun l => lane i.a l ≠ 0) }
  else { x := ofElems 32 ((upto 0 64).map fun l => if i.operand.getLsbD l then 2 ^ 32 - 1 else 0) }
def vQop (i : VIn) : VRes :=
  let bit := fun l =>
    let n := 4 * (if lane i.a l ≠ 0 then 1 else 0) + 2 * (if lane i.b l ≠ 0 then 1 else 0)
      + (if i.operand.getLsbD l then 1 else 0)
    decide (i.c.k / 2 ^ n % 2 = 1)
  { x := ofElems 32 ((upto 0 64).map fun l => if bit l then 2 ^ 32 - 1 else 0), q := some (maskOf bit) }
def vQpop (i : VIn) (t : VTy) : VRes :=
  let l := ((upto 0 t.count).filter fun e => i.operand.getLsbD (laneOf t.width e)).map (elem t.width i.a)
  { x := ofElems t.width l, q := some (BitVec.ofNat 64 l.length) }
def vChk (i : VIn) : VRes := { x := i.a }

/-- VDOT on one lane (R225): products of STYPE elements added to X once. -/
def vDot (i : VIn) (s : VTy) : VRes :=
  let w := s.width
  vmap i 32 fun l =>
    let es := upto (l * (32 / w)) (32 / w)
    if s.isInt then
      let t : VTy := if s.signed then .i32 else .n32
      t.narrow i.c.sat (es.foldl (fun (v : Int) e => v + s.val (elem w i.a e) * s.val (elem w i.b e)) (t.val (lane i.x l)))
    else
      roundFV fp32 i.rm (fsum i.rm (unpack fp32 (lane i.x l) ::
        es.map fun e => (unpack s.fmt (elem w i.a e)).mul (unpack s.fmt (elem w i.b e))))

/-- min(max(a, lo), hi), with lo 0 or −b (R225). -/
def vClamp (i : VIn) (t : VTy) : VRes :=
  let k := i.c.k % 2
  vmap3 i t.width fun a b _ =>
    if t.isInt then
      let lo : Int := if k = 1 && t.signed then -(t.val b) else 0
      t.narrow false (min (max (t.val a) lo) (t.val b))
    else
      let f := t.fmt
      let va := unpack f a
      let vb := unpack f b
      if va.isNan || vb.isNan then (f.nan, if va = .nan true || vb = .nan true then flNV else 0)
      else
        let lo := if k = 1 then (fneg f b).1 else 0
        ((fminmax f false (fminmax f true a lo).1 b).1, 0)

/-! ### Which types an operation accepts, and its checks at the trigger (R208, R210, R213) -/

/-- The classes that an operation's table gives for TYPE; `none` when the operation ignores TYPE. -/
def vClasses (o : Op) : Option (List VCls) :=
  match o with
  | .vadd | .vsub | .vmul | .vfma | .vfms | .vmin | .vmax | .vabs | .vneg => some [.I, .N, .F]
  | .vdiv => some [.I, .F]
  | .vsqrt | .vrcp | .vrsq | .vexp2 | .vlog2 | .vsincos | .vcmul | .vconj | .vbfly | .vrnd => some [.F]
  | .vshl | .vshr | .vidx => some [.I, .N]
  | .vceq | .vclt | .vcle | .vclamp => some [.I, .N, .F]
  | .vredadd | .vredmax | .vredmin | .vscan => some [.I, .F]
  | .vchk | .vdot | .vmovq | .vqop => none
  | _ => some [.I, .N, .F, .S]

/-- The pairs (STYPE, TYPE) of VPACK (R219). -/
def packPairs : List (VTy × VTy) :=
  [(.f64, .f32), (.f32, .bf), (.f32, .hf), (.i32, .i16), (.n32, .n16), (.i16, .i8), (.n16, .n8),
   (.hf, .fa), (.hf, .fb), (.bf, .fa), (.bf, .fb)]

/-- The pairs of VCVT, either direction (R219). -/
def cvtPairs : List (VTy × VTy) :=
  [(.i32, .f32), (.f32, .i32), (.n32, .f32), (.f32, .n32), (.bf, .hf), (.hf, .bf), (.fa, .fb), (.fb, .fa)]

/-- Whether an operation's TYPE, STYPE and K pass its checks. -/
def vTypesOk (o : Op) (c : VCtl) : Bool :=
  (match vClasses o with
   | none => true
   | some cs =>
     match c.ty with
     | none => false
     | some t =>
       cs.contains t.cls &&
       (match o with
        | .vexp2 | .vlog2 | .vsincos => t = .f32
        | .vbfly => decide (2 ^ (c.k % 8) < t.count / 2 ∧ c.k / 8 = 0)
        | _ => true)) &&
  (match o with
   | .vcvt =>
     match c.sty, c.ty with
     | some s, some t => cvtPairs.contains (s, t)
     | _, _ => false
   | .vpack =>
     match c.sty, c.ty with
     | some s, some t => packPairs.contains (s, t)
     | _, _ => false
   | .vunpk =>
     match c.sty, c.ty with
     | some s, some t => packPairs.contains (t, s)
     | _, _ => false
   | .vdot =>
     match c.sty with
     | some s => [VTy.bf, .hf, .i16, .n16, .i8, .n8].contains s
     | none => false
   | .vshuf => decide (c.k % 8 < 6)
   | .vscan => decide (c.k % 4 < 3)
   | _ => true)

/-- Whether `m` names no mask or one of q0 to q7 (R210). -/
def vMaskOk (m : Word) : Bool := let n := m.toNat % 256; n = 0 || (decide (0x78 ≤ n) && decide (n ≤ 0x7F))

/-- The ILLEGAL_PORT check of a vector trigger. -/
def vIllegal (o : Op) (c m : Word) : Bool := (VCtl.mk c).reserved || !vMaskOk m || !vTypesOk o ⟨c⟩

/-- The vector operation of an opcode; an opcode outside 0x80 to 0xAF has none. -/
def vectorRes (o : Op) (i : VIn) : VRes :=
  let t := i.c.ty.getD .i32
  let s := i.c.sty.getD .i32
  match o with
  | .vadd => vAdd i t | .vsub => vSub i t | .vmul => vMul i t | .vfma => vFma i t | .vfms => vFms i t
  | .vmin => vMin i t | .vmax => vMax i t | .vabs => vAbs i t | .vneg => vNeg i t | .vdiv => vDiv i t
  | .vsqrt => vSqrt i t | .vrcp => vRcp i t | .vrsq => vRsq i t | .vexp2 => vExp2 i t | .vlog2 => vLog2 i t
  | .vsincos => vSincos i t | .vcmul => vCmul i t | .vconj => vConj i t | .vbfly => vBfly i t
  | .vand => vAnd i t | .vor => vOr i t | .vxor => vXor i t | .vshl => vShl i t | .vshr => vShr i t
  | .vceq => vCeq i t | .vclt => vClt i t | .vcle => vCle i t | .vsel => vSel i t
  | .vcvt => vCvt i s t | .vpack => vPack i s t | .vunpk => vUnpk i s t | .vrnd => vRnd i t
  | .vperm => vPerm i t | .vshuf => vShuf i t | .vbcast => vBcast i t
  | .vredadd => vRedadd i t | .vredmax => vRedmax i t | .vredmin => vRedmin i t | .vscan => vScan i t
  | .vidx => vIdx i t | .vextr => vExtr i t | .vinsr => vInsr i t
  | .vmovq => vMovq i | .vqop => vQop i | .vqpop => vQpop i t | .vchk => vChk i
  | .vdot => vDot i s | .vclamp => vClamp i t
  | _ => { x := i.a }

/-- Whether the scalar result goes to q[QD] (R211): with QE, and for VMOVQ with K[0] = 0 always. -/
def vWritesQ (o : Op) (c : VCtl) : Bool := c.qe || (o = .vmovq && c.k % 2 = 0)

/-- The latency of a vector operation by class of its type (R214 to R225). -/
def vectorLat (o : Op) (c : VCtl) : Nat :=
  let t := c.ty.getD .i32
  let by3 := fun (i f d : Nat) => if t = .f32 then f else if t = .f64 then d else i
  match o with
  | .vadd | .vsub => by3 2 4 6
  | .vmul | .vfma | .vfms => by3 4 4 6
  | .vdiv => by3 24 16 28
  | .vsqrt => by3 18 18 32
  | .vrcp => by3 12 12 22
  | .vrsq => by3 14 14 26
  | .vexp2 | .vlog2 => 10
  | .vsincos => 12
  | .vcmul => by3 4 4 6
  | .vbfly => by3 6 6 8
  | .vcvt | .vpack | .vunpk | .vrnd => 4
  | .vredadd | .vredmax | .vredmin => by3 6 12 12
  | .vscan => 16
  | .vqpop | .vdot => 4
  | _ => 2

end Sys2Proof.Machine
end

