-- ==== Sys2Proof/Machine/Tensor.lean ====
section
/-! DEFINITION. Tensor identifiers and matrix arithmetic (chapter "The tensor identifier and the matrix array"):
entries and their check, addressing, accumulators, the products of R69 to R71 and the conversions, as plain functions.
When an operation may start and when it ends is in Machine/Matrix.lean. -/
namespace Sys2Proof.Machine

/-- The end of the scratchpad that Wilod code may use (R15). -/
def spadTop : Nat := 0xBC000

/-- The element formats of an identifier (R226). -/
inductive MFmt where
  | f32 | f64 | bf | hf | i8 | fa | fb | cb4
  deriving DecidableEq, Repr

def MFmt.ofCode (n : Nat) : Option MFmt :=
  match n with
  | 0x2 => some .f32
  | 0x3 => some .f64
  | 0x6 => some .bf
  | 0x7 => some .hf
  | 0x8 => some .i8
  | 0xA => some .fa
  | 0xB => some .fb
  | 0xC => some .cb4
  | _ => none

/-- Element width in bits (R226). -/
def MFmt.width : MFmt → Nat
  | .f64 => 64
  | .f32 => 32
  | .bf | .hf => 16
  | .i8 | .fa | .fb => 8
  | .cb4 => 4

/-- The float format of an element format (an i8 or cb4 element has none of its own). -/
def MFmt.fmt : MFmt → FFmt
  | .f64 => fp64
  | .bf | .cb4 => bf16
  | .hf => fp16
  | .fa => f8a
  | .fb => f8b
  | _ => fp32

/-- The states of an identifier (R229). -/
inductive TidState where
  | empty | declared | ready
  deriving DecidableEq, Repr

def TidState.code : TidState → Nat
  | .empty => 0
  | .declared => 1
  | .ready => 2

/-- One identifier: words 0 and 1, CBGEN, its state and its codebook of 16 BF16 entries, if one is loaded (R226). -/
structure Tid where
  w0 : Word := 0
  w1 : Word := 0
  cbgen : BitVec 16 := 0
  st : TidState := .empty
  cb : Option (BitVec 256) := none
  deriving DecidableEq, Repr

def Tid.base (t : Tid) : Nat := t.w0.toNat / 2 ^ 32 % 2 ^ 20
def Tid.cols (t : Tid) : Nat := t.w0.toNat / 2 ^ 16 % 2 ^ 16
def Tid.rows (t : Tid) : Nat := t.w0.toNat % 2 ^ 12
def Tid.soff (t : Tid) : Nat := t.w1.toNat / 2 ^ 32 % 2 ^ 20
def Tid.pb (t : Tid) : Nat := 16 * (t.w1.toNat / 2 ^ 16 % 2 ^ 12)
def Tid.skew (t : Tid) : Bool := t.w1.getLsbD 8
def Tid.fmt? (t : Tid) : Option MFmt := MFmt.ofCode (t.w1.toNat % 16)
def Tid.fmt (t : Tid) : MFmt := t.fmt?.getD .f32
/-- Scales of a vector: ⌈COLS/32⌉ (R227). -/
def Tid.blocks (t : Tid) : Nat := (t.cols + 31) / 32

/-- The reserved bits of words 0 and 1 (R226). -/
def Tid.reserved (t : Tid) : Bool :=
  decide (t.w0.toNat / 2 ^ 52 ≠ 0 ∨ t.w0.toNat / 2 ^ 12 % 16 ≠ 0 ∨ t.w1.toNat / 2 ^ 52 ≠ 0 ∨
    t.w1.toNat / 2 ^ 28 % 16 ≠ 0 ∨ t.w1.toNat / 2 ^ 9 % 128 ≠ 0 ∨ t.w1.toNat / 2 ^ 4 % 16 ≠ 0)

/-- The entry check of R228. -/
def Tid.check (t : Tid) : Bool :=
  match t.fmt? with
  | none => false
  | some f =>
    !t.reserved && decide (t.rows ≠ 0 ∧ t.cols ≠ 0 ∧ t.pb ≠ 0 ∧ t.base % 16 = 0 ∧ t.cols * f.width ≤ 8 * t.pb ∧
      t.base + t.rows * t.pb ≤ spadTop) && (!t.skew || decide (t.pb % 512 = 0)) &&
    (if f = .cb4 then decide (t.soff % 2 = 0 ∧ t.soff + 2 * t.rows * t.blocks ≤ spadTop) else decide (t.soff = 0))

/-- The state that a written entry takes, and whether its codebook is kept (R230). -/
def Tid.settle (old new : Tid) : Tid :=
  if !new.check then { new with st := .empty, cb := none }
  else
    let keep := old.fmt? = new.fmt? && old.cb.isSome && new.fmt = .cb4
    let cb := if keep then old.cb else none
    { new with st := if new.fmt = .cb4 && cb.isNone then .declared else .ready, cb := cb }

/-- TIDW of one word (R230, R248). -/
def Tid.writeWord (t : Tid) (word : Nat) (v : Word) : Tid :=
  t.settle (if word = 0 then { t with w0 := v } else { t with w1 := v })

/-- TIDW clear (R230): words 0 and 1 := 0, the codebook discarded. -/
def Tid.clear (t : Tid) : Tid := { t with w0 := 0, w1 := 0, st := .empty, cb := none }

/-- A declaration at placement (R230). -/
def Tid.declare (w0 w1 : Word) : Tid := Tid.settle {} { w0 := w0, w1 := w1 }

/-- Word `k` as TIDR reads it: reserved bits read zero, whatever was written to them (R5, R226). -/
def Tid.readWord (t : Tid) (k : Nat) : Word :=
  match k with
  | 0 => t.w0 &&& 0x000FFFFFFFFF0FFF#64
  | 1 => t.w1 &&& 0x000FFFFF0FFF010F#64
  | 2 => BitVec.ofNat 64 (t.cbgen.toNat * 2 ^ 16 + t.st.code)
  | _ => 0

/-- The scratchpad byte that holds element `k` of vector `r` (R227). -/
def Tid.byteOf (t : Tid) (r k : Nat) : Nat :=
  let u := k * t.fmt.width / 8
  if t.skew then t.base + r * t.pb + (u / 16 + r % 32) % (t.pb / 16) * 16 + u % 16
  else t.base + r * t.pb + u

/-- A little-endian number of `n` bytes from address `a`. -/
def leNat (rd : Nat → Byte) (a : Nat) : Nat → Nat
  | 0 => 0
  | n + 1 => (rd a).toNat + 256 * leNat rd (a + 1) n

/-- Element `k` of vector `r` (R227; cb4: the low nibble for an even k, R63). -/
def Tid.elem (t : Tid) (rd : Nat → Byte) (r k : Nat) : Nat :=
  let o := t.byteOf r k
  if t.fmt = .cb4 then (rd o).toNat / 16 ^ (k % 2) % 16 else leNat rd o (t.fmt.width / 8)

/-- The scale of block `j` of vector `r` (R227). -/
def Tid.scale (t : Tid) (rd : Nat → Byte) (r j : Nat) : Nat := leNat rd (t.soff + 2 * (r * t.blocks + j)) 2

/-- Entry `c` of a codebook: a BF16 code (R63). -/
def cbEntry (cb : BitVec 256) (c : Nat) : Nat := cb.toNat / 2 ^ (16 * c) % 2 ^ 16

/-- Whether all 16 entries are finite (R63, R249). -/
def cbFinite (cb : BitVec 256) : Bool := (upto 0 16).all fun c => decide (cbEntry cb c / 2 ^ 7 % 256 ≠ 255)

/-! ### Accumulators (R231) -/

/-- The tag of an accumulator. -/
inductive AccTag where
  | f32 | i32 | f64l | f64h
  deriving DecidableEq, Repr

def AccTag.code : AccTag → Nat
  | .f32 => 0
  | .i32 => 1
  | .f64l => 2
  | .f64h => 3

/-- One accumulator: 32 × 32 elements of 32 bits in row order, its tag, its sticky flags and its check row (R231,
R238). An FP64 element has its low half in m(2j) and its high half in m(2j+1); the pair's flags and check row (of
64-bit elements) are those of m(2j). -/
structure Acc where
  bits : BitVec 32768 := 0
  tag : AccTag := .f32
  nan : Bool := false
  ov : Bool := false
  sat : Bool := false
  ckRow : BitVec 2048 := 0
  ckNo : Nat := 0
  ckValid : Bool := false
  deriving DecidableEq, Repr

/-- The 1,024 elements of an accumulator. -/
def accElems (b : BitVec 32768) : List Nat := (upto 0 1024).map fun e => b.toNat / 2 ^ (32 * e) % 2 ^ 32
def accOf (l : List Nat) : BitVec 32768 := BitVec.ofNat 32768 (packGo 32 l)

/-- The values an operation works on: the elements of mk, or of the FP64 pair whose even tile is mk. -/
def pairElems (lo hi : Acc) : List Nat := List.zipWith (fun a b => a + 2 ^ 32 * b) (accElems lo.bits) (accElems hi.bits)

/-- Element formats of an accumulator's values. -/
def AccTag.fmt : AccTag → FFmt
  | .f64l | .f64h => fp64
  | _ => fp32

/-- Row `r` of a list of 1,024 elements. -/
def rowOf (l : List Nat) (r : Nat) : List Nat := (l.drop (32 * r)).take 32

/-- The transpose of 32 × 32 elements. -/
def transpose32 (l : List Nat) : List Nat :=
  (upto 0 32).flatMap fun r => (upto 0 32).map fun c => nth 0 l (32 * c + r)

/-! ### Products (R69 to R71, R240) -/

/-- The pairing of operand formats: group size, K, the tag of the accumulator and the occupancy (R240). -/
structure Pairing where
  g : Nat
  k : Nat
  tag : AccTag
  occ : Nat
  deriving DecidableEq, Repr

def pairing (a b : MFmt) : Option Pairing :=
  let h := fun (f : MFmt) => f = .bf || f = .hf
  let o := fun (f : MFmt) => f = .fa || f = .fb
  if a = .f64 && b = .f64 then some ⟨1, 8, .f64l, 32⟩
  else if a = .f32 && b = .f32 then some ⟨1, 8, .f32, 8⟩
  else if h a && h b then some ⟨4, 32, .f32, 8⟩
  else if o a && o b then some ⟨8, 64, .f32, 8⟩
  else if a = .i8 && b = .i8 then some ⟨8, 64, .i32, 8⟩
  else if a = .cb4 && b = .cb4 then some ⟨32, 128, .f32, 8⟩
  else none

/-- Exact products of two lists of values. -/
def products : List FV → List FV → List FV
  | a :: s, b :: t => a.mul b :: products s t
  | _, _ => []

/-- `n` dot-groups of `g` elements: one rounding per group (R69). -/
def dotGroups (f : FFmt) (g : Nat) : Nat → Nat → List FV → List FV → Flags → Nat × Flags
  | 0, acc, _, _, fl => (acc, fl)
  | n + 1, acc, as, bs, fl =>
    let (r, f1) := roundFV f .rne (fsum .rne (unpack f acc :: products (as.take g) (bs.take g)))
    dotGroups f g n r (as.drop g) (bs.drop g) (fl ||| f1)

/-- The i8 product: the sum wraps modulo 2^32 (R69). -/
def dotI8 (acc : Nat) (as bs : List Nat) : Nat :=
  let v := List.zipWith (fun a b => VTy.i8.val a * VTy.i8.val b) as bs
  ((v.foldl (fun (s : Int) x => s + x) acc) % 2 ^ 32).toNat

/-- One block of a CB4 product (R71): V, with the flags of its rounding. -/
def cbBlock (as bs : List FV) (sa sb : Nat) : FV × Flags :=
  let ea := sa / 256
  let eb := sb / 256
  if ea = 255 || eb = 255 then (.nan false, 0)
  else
    match fsum .rne (products as bs) with
    | .fin neg m e =>
      if ea = 0 || eb = 0 || m = 0 then (.fin false 0 0, 0)
      else
        let p := (256 + sa % 256) * (256 + sb % 256)
        let (r, fl) := roundFin fp32 .rne neg (m * p) (e + ((ea : Int) + eb - 254 - 16))
        (unpack fp32 r, fl)
    | v => (v, 0)

/-- `n` blocks of 32 elements with their scales (R71). -/
def cbBlocks : Nat → Nat → List FV → List FV → List Nat → List Nat → Flags → Nat × Flags
  | 0, acc, _, _, _, _, fl => (acc, fl)
  | n + 1, acc, as, bs, sa, sb, fl =>
    let (v, f1) := cbBlock (as.take 32) (bs.take 32) (nth 0 sa 0) (nth 0 sb 0)
    let (r, f2) := roundFV fp32 .rne (fsum .rne [unpack fp32 acc, v])
    cbBlocks n r (as.drop 32) (bs.drop 32) (sa.drop 1) (sb.drop 1) (fl ||| f1 ||| f2)

/-- One vector of K elements as an operand of a product: its codes, its exact values and its scales. -/
structure MVec where
  codes : List Nat
  vals : List FV
  scales : List Nat
  deriving DecidableEq, Repr

/-- Elements [kb, kb + K) of vector `r` of an identifier. -/
def Tid.vec (t : Tid) (rd : Nat → Byte) (r kb k : Nat) : MVec :=
  let codes := (upto kb k).map (t.elem rd r)
  { codes := codes
    vals := if t.fmt = .cb4 then codes.map fun c => unpack bf16 (cbEntry (t.cb.getD 0) c)
      else codes.map (unpack t.fmt.fmt)
    scales := if t.fmt = .cb4 then (upto (kb / 32) (k / 32)).map (t.scale rd r) else [] }

/-- One accumulator element after one MMA (R69, R71). -/
def mmaElem (p : Pairing) (cb4 : Bool) (acc : Nat) (a b : MVec) : Nat × Flags :=
  if cb4 then cbBlocks (p.k / 32) acc a.vals b.vals a.scales b.scales 0
  else if p.tag = .i32 then (dotI8 acc a.codes b.codes, 0)
  else dotGroups p.tag.fmt p.g (p.k / p.g) acc a.vals b.vals 0

/-- The products of one row of A with every column of B. -/
def mmaRow (p : Pairing) (cb4 : Bool) (acc : List Nat) (a : MVec) (bs : List MVec) : List (Nat × Flags) :=
  List.zipWith (fun x b => mmaElem p cb4 x a b) acc bs

/-- The accumulator pair that mk stands in: its values, written back with the operation's flags. -/
structure AccSet where
  lo : Acc
  hi : Acc
  deriving DecidableEq, Repr

/-- Put 1,024 values into mk (and its partner for an FP64 pair) and raise NAN for a NaN and OF for an overflow. -/
def AccSet.put (s : AccSet) (tag : AccTag) (l : List (Nat × Flags)) : AccSet :=
  let vs := l.map (·.1)
  let nan := tag ≠ .i32 && vs.any fun v => (unpack tag.fmt v).isNan
  let ov := l.any fun r => r.2 &&& flOF ≠ 0
  let lo := { s.lo with bits := accOf (vs.map (· % 2 ^ 32)), nan := s.lo.nan || nan, ov := s.lo.ov || ov }
  if tag = .f64l then { lo := lo, hi := { s.hi with bits := accOf (vs.map (· / 2 ^ 32)) } } else { s with lo := lo }

/-- The values of mk or of its pair. -/
def AccSet.vals (s : AccSet) (tag : AccTag) : List Nat :=
  if tag = .f64l then pairElems s.lo s.hi else accElems s.lo.bits

/-- Zero mk (both tiles for F64) and set the tag (R240, ZA). The flags stay; those of an odd tile of a newly formed
pair are cleared (R231). -/
def AccSet.zero (s : AccSet) (tag : AccTag) : AccSet :=
  if tag = .f64l then
    { lo := { s.lo with bits := 0, tag := .f64l, ckRow := 0 }
      hi := { s.hi with bits := 0, tag := .f64h, nan := false, ov := false, sat := false } }
  else { s with lo := { s.lo with bits := 0, tag := tag, ckRow := 0 } }

/-- One MMA on mk (R240, R238): `as` the 32 vectors of A, `bs` those of B. -/
def mmaStep (p : Pairing) (cb4 za chk : Bool) (crow : Nat) (s : AccSet) (as bs : List MVec) : AccSet :=
  let s := if za then s.zero p.tag else s
  let w := if p.tag = .f64l then 64 else 32
  let before := s.vals p.tag
  let ck0 : BitVec 2048 :=
    if s.lo.ckValid && s.lo.ckNo = crow then s.lo.ckRow else BitVec.ofNat 2048 (packGo w (rowOf before crow))
  let rows := (List.zipWith (fun r a => mmaRow p cb4 (rowOf before r) a bs) (upto 0 32) as).flatten
  let s' := s.put p.tag rows
  if chk then
    let ckIn := (upto 0 32).map fun c => ck0.toNat / 2 ^ (w * c) % 2 ^ w
    let ck := (mmaRow p cb4 ckIn (nth ⟨[], [], []⟩ as crow) bs).map (·.1)
    { s' with lo := { s'.lo with ckRow := BitVec.ofNat 2048 (packGo w ck), ckNo := crow, ckValid := true } }
  else { s' with lo := { s'.lo with ckValid := false } }

/-! ### Conversions and accumulator arithmetic (R243 to R245) -/

/-- Integer formats of an accumulator conversion. -/
def clampTo (lo hi : Int) (w : Nat) (v : Int × Flags) : Nat × Bool :=
  ((max lo (min hi v.1) % 2 ^ w).toNat, v.1 < lo || hi < v.1 || v.2 &&& flNV ≠ 0)

/-- An accumulator value converted to a float format: the code, and whether the conversion was clamped to an end of
the range (F8A, R73). -/
def accToFloat (tag : AccTag) (f : FFmt) (v : Nat) : Nat × Bool :=
  let x := if tag = .i32 then FV.ofInt (VTy.i32.val v) else unpack tag.fmt v
  let (r, fl) := roundFV f .rne x
  (r, fl &&& flSAT ≠ 0)

/-- An accumulator value converted to an i-type of width `w`, with whether it was clamped (R74, R239). -/
def accToInt (tag : AccTag) (w : Nat) (v : Nat) : Nat × Bool :=
  let lo : Int := -(2 ^ (w - 1))
  let hi : Int := 2 ^ (w - 1) - 1
  if tag = .i32 then clampTo lo hi w (VTy.i32.val v, 0)
  else clampTo lo hi w (toInteger .rne lo hi (unpack tag.fmt v))

/-- The format codes MSTC accepts for a tag, and the width in bits (R243). -/
def mstcWidth (tag : AccTag) (ofmt : Nat) : Option Nat :=
  match tag, ofmt with
  | .f32, 0x2 => some 32
  | .f32, 0x6 => some 16
  | .f32, 0x7 => some 16
  | .f32, 0xA => some 8
  | .f32, 0xB => some 8
  | .i32, 0x0 => some 32
  | .i32, 0x8 => some 8
  | .i32, 0x2 => some 32
  | .f64l, 0x3 => some 64
  | .f64l, 0x2 => some 32
  | _, _ => none

/-- The value MSTC stores for one element (R243), and whether it was clamped. -/
def mstcElem (tag : AccTag) (ofmt v : Nat) : Nat × Bool :=
  match ofmt with
  | 0x0 => (v, false)
  | 0x8 => accToInt tag 8 v
  | 0x2 => accToFloat tag fp32 v
  | 0x3 => accToFloat tag fp64 v
  | 0x6 => accToFloat tag bf16 v
  | 0x7 => accToFloat tag fp16 v
  | 0xA => accToFloat tag f8a v
  | _ => accToFloat tag f8b v

/-- The format codes MLDC accepts: the tag it sets and the width in bits (R243). -/
def mldcTag (ofmt : Nat) : Option (AccTag × Nat) :=
  match ofmt with
  | 0x2 => some (.f32, 32)
  | 0x0 => some (.i32, 32)
  | 0x3 => some (.f64l, 64)
  | _ => none

/-- The value MCVT writes for one element (R244), and whether it was clamped. -/
def mcvtElem (tag : AccTag) (f : MFmt) (v : Nat) : Nat × Bool :=
  if f = .i8 then accToInt tag 8 v else accToFloat tag f.fmt v

/-- MACC element by element (R245). -/
def maccElem (tag : AccTag) (a b : Nat) : Nat × Flags :=
  if tag = .i32 then ((a + b) % 2 ^ 32, 0) else fadd tag.fmt .rne a b

/-- MSCALE by a scalar (R245). -/
def mscaleElem (tag : AccTag) (s v : Nat) : Nat × Flags := fmul tag.fmt .rne v s

/-- MSCALE by V lane row × V lane (32 + col), the triple product exact and rounded once (R245). -/
def mscaleVElem (v r c : Nat) : Nat × Flags :=
  roundFV fp32 .rne ((unpack fp32 v).mul ((unpack fp32 r).mul (unpack fp32 c)))

/-- An accumulator with its check row invalidated (R238). -/
def Acc.noCheck (a : Acc) : Acc := { a with ckValid := false }

/-- The occupancy of a move of `n` bytes (R234). -/
def moveOcc (n : Nat) : Nat := max 2 ((n + 511) / 512)

end Sys2Proof.Machine
end

