-- ==== Sys2Proof/Machine/CoreTypes.lean ====
section
/-! DEFINITION. The state of one Wilod core and of the work it holds: registers, ports, pipelines, frames, loop
records, tasks, scratchpad, copies, porters (chapters "Bundles, moves and the opcode map", "The kernel: tile tasks
and loop records", "Pages, scratchpad and memory access", "Copies, porters and the broadcast bus"). -/
namespace Sys2Proof.Machine

/-! ### Memory -/

/-- Byte memory: written bytes in rising order of address, and the ranges whose other bytes are unspecified, each
with the number of the event that left them so. Outside those ranges a byte that is not listed reads 0. -/
structure Mem where
  cells : List Host.Cell := []
  open' : List (Nat × Nat × Nat) := []
  deriving DecidableEq, Repr

/-- The device attribute of a page (R257). -/
inductive Attr where
  | C | B | K | L
  deriving DecidableEq, Repr

/-- Where the bytes of an access lie: a global location with its attribute, or the scratchpad of a core. -/
inductive Place where
  | glob (at' : Attr)
  | spad (core : Nat)
  deriving DecidableEq, Repr

/-! ### Registers, ports and pipelines -/

/-- The status codes of R41. -/
abbrev Status := BitVec 4
def stOK : Status := 0
def stTIMEOUT : Status := 1
def stEARLY : Status := 2
def stOVERRUN : Status := 3
def stFULL : Status := 4
def stEMPTY : Status := 5
def stFAIL : Status := 6
def stOVERFLOW : Status := 7
def stESPACE : Status := 8
def stABORTED : Status := 9
def stLATE : Status := 10
def stSTOPPED : Status := 11
def stDROPPED : Status := 12
def stFAULTED : Status := 13
def stBUSY : Status := 14
def stERROR : Status := 15

/-- A value on its way: a scalar or a vector (R36). -/
inductive Val where
  | sc (v : Word)
  | vec (v : VReg)
  deriving DecidableEq, Repr

/-- A scalar or handle register with its full bit, its pending bit and its status tag (R14, R40, R41). -/
structure SReg where
  v : Word := 0
  full : Bool := true
  pend : Bool := false
  tag : Status := 0
  deriving DecidableEq, Repr

/-- A vector register with its full and pending bits (R14, R40). -/
structure VCell where
  v : VReg := 0
  full : Bool := true
  pend : Bool := false
  deriving DecidableEq, Repr

/-- The ports of one unit (R37). A unit uses those that R37 gives it; the others stay 0 and cannot be named. -/
structure UPorts where
  a : Val := .sc 0
  b : Val := .sc 0
  c : Word := 0
  d : Word := 0
  m : Word := 0
  h : Word := 0
  g : Word := 0
  x : Val := .sc 0
  y : Val := .sc 0
  deriving DecidableEq, Repr

/-- A fixed-latency result in flight (R39, R167): unit, port (0 x, 1 y, 0x18 + k for qk), value, user cycles left,
flags, the flags whose traps were enabled when it was triggered, slot and address of the triggering bundle. The list
order is the trigger order. -/
structure Pipe where
  unit : Nat
  port : Nat
  val : Val
  rem : Nat
  fl : Flags := 0
  en : Flags := 0
  slot : Nat
  pc : Word
  deriving DecidableEq, Repr

/-- When the work of a slot with an ARV bit retires (R46): after `n` more user cycles, when operation `id` of the
core lands or is performed, or at the end of a package cycle. -/
inductive ArvWhen where
  | user (n : Nat)
  | op (id : Nat)
  | cycle (c : Nat)
  deriving DecidableEq, Repr

/-- An arrival on retire that is still owed (R343): where the handle and its translation put the barrier when the
bundle issued, the slot and the bundle, when the slot's work retires, and whether an open segment holds it (R348). -/
structure Arv where
  place : Place
  pa : Nat
  va : Word
  slot : Nat
  pc : Word
  at' : ArvWhen
  seg : Bool := false
  deriving DecidableEq, Repr

/-- A pending LSPLIT of a record frame (R142): the iterations to keep and the delivery register. -/
structure SplitReq where
  keep : Word
  reg : Nat
  id : Nat
  deriving DecidableEq, Repr

/-- A loop record (R128): words 0 to 3, the carried values, the tile whose task posted it; one more than the package cycle
of its last dispatch from a deque, whether a cancel has reached it since (R135), and for the handler of a fabric message
its job (R404). -/
structure LRec where
  w0 : Word := 0
  w1 : Word := 0
  w2 : Word := 0
  w3 : Word := 0
  cv : List Word := []
  own : Nat := 0
  disp : Nat := 0
  cancelled : Bool := false
  job : Nat := 0
  deriving DecidableEq, Repr

/-- A record frame (R130): where its RET goes (none: the drain of R132), the record, the iteration number, whether
the record came from a deque, whether it is cancelled, and its pending LSPLITs. -/
structure RecFrame where
  ret : Option Word
  r : LRec
  i : Nat := 0
  counted : Bool
  bySeq : Bool := false
  cancelled : Bool := false
  splits : List SplitReq := []
  deriving DecidableEq, Repr

/-- An entry of the return stack (R139). -/
inductive Frame where
  | plain (ret : Word)
  | rcd (f : RecFrame)
  deriving DecidableEq, Repr

/-- An entry of the loop stack (R140). -/
structure LoopEnt where
  start : Word
  stop : Word
  count : Word
  deriving DecidableEq, Repr

/-- One hardware context of a core (R16): registers, ports, pipelines, control. `cons` is one more than the package
cycle in which it was last considered for issue. -/
structure Ctx where
  s : Vector SReg 64 := Vector.replicate 64 {}
  v : Vector VCell 32 := Vector.replicate 32 {}
  b : Vector SReg 16 := Vector.replicate 16 {}
  p : BitVec 8 := 1
  q : Vector Word 8 := Vector.replicate 8 0
  u : Vector UPorts 8 := Vector.replicate 8 {}
  latch : BitVec 512 := 0
  pipe : List Pipe := []
  arvs : List Arv := []
  fpc : Word := 0
  fps : Word := 0
  seed : Word := 0
  sched : Word := 0
  pc : Word := 0
  idle : Nat := 0
  np : Nat := 0
  cons : Nat := 0
  ret : List Frame := []
  loops : List LoopEnt := []
  wdog : Option Nat := none
  deriving DecidableEq, Repr

/-! ### Tasks -/

/-- The states of a tile task (R125). -/
inductive TaskSt where
  | pending | placed | running | preempted | swapped | trapped | ended | dropped | killed
  deriving DecidableEq, Repr

/-- Whether a task is ended in one of the three ways (R126). -/
def TaskSt.over' : TaskSt → Bool
  | .ended | .dropped | .killed => true
  | _ => false

/-- What a core drains for (R132): a TWAIT (the tile whose records it waits for, register, operation, limit cycle, the
address after its bundle, whether its limit has passed while a record of the drain ran), or a TEND. -/
inductive Drain where
  | twait (own reg id : Nat) (limit : Option Nat) (next : Word) (late : Bool)
  | tend
  deriving DecidableEq, Repr

/-- A trap record (R434): cause code, slot, bundle address, whether the trap is after the bundle, the address the cause
gives, the segment state, whether it is the MISALIGNED of an access that firmware can complete (R270), and the package
cycle in which a failure was detected (R195). -/
structure TrapRec where
  cause : Nat
  slot : Nat := 0
  pc : Word := 0
  after : Bool := false
  addr : Word := 0
  seg : Nat := 1
  emul : Bool := false
  seen : Nat := 0
  deriving DecidableEq, Repr

/-- A tile task (R125): its launch, tile, team and state, the state before a trap, its OUT count, what it drains for
(innermost first: a record that a drain runs may drain in its turn), its trap record, the cycle in which it was first
considered at a rendezvous, the cycle in which it last stood ready there and the cycle of its limit, the cycle for which
the rendezvous is released and whether that is its limit, its stop offset (R167), whether it stops at
the next boundary as KILLED, and whether a FAULTQ or ERET 4 holds it. -/
structure Task where
  launch : Nat
  tx : Nat
  ty : Nat
  team : Nat
  st : TaskSt := .pending
  was : TaskSt := .running
  out : Nat := 0
  drains : List Drain := []
  trap : Option TrapRec := none
  rdvFrom : Option Nat := none
  rdvAt : Option (Nat × Nat) := none
  rdvGo : Option (Nat × Bool) := none
  stopOff : Nat := 0
  killAt : Bool := false
  posted : Bool := false
  deriving DecidableEq, Repr

/-! ### Scratchpad allocations, tag table -/

/-- An allocation descriptor (R265): the 64-bit entry. -/
abbrev Alloc := Word
def Alloc.base (a : Alloc) : Nat := a.toNat % 2 ^ 20
def Alloc.size (a : Alloc) : Nat := a.toNat / 2 ^ 20 % 2 ^ 20
def Alloc.span (a : Alloc) : Nat := a.toNat / 2 ^ 40 % 8
def Alloc.mode (a : Alloc) : Nat := a.toNat / 2 ^ 44 % 4
def Alloc.zeroed (a : Alloc) : Bool := a.getLsbD 44
def Alloc.shared (a : Alloc) : Bool := a.getLsbD 45
/-- Whether `n` bytes from `o` lie inside an allocation. -/
def Alloc.covers (a : Alloc) (o n : Nat) : Bool := decide (a.base ≤ o ∧ o + n ≤ a.base + a.size)

/-! ### Copies (R284 to R291) -/

/-- The states of a transfer (R290). -/
inductive XferSt where
  | issued | inFlight | faulted | done | aborted
  deriving DecidableEq, Repr

/-- The requests of a block of a transfer, or of a porter's access, for slot-table cells (R164): a number, the dies of those
not yet accepted, and the cycle in which they became ready. -/
structure CellReq where
  id : Nat
  reqs : List Nat
  ready : Nat
  deriving DecidableEq, Repr

/-- A transfer: identifier, the program it copied, its state, token register and operation number, its position in
the nest (blocks moved), the address of its CPGO bundle, its key, the transfers (channel, identifier) it waits for,
whether an open segment holds it, the cause and address of its fault, the cycle since which it waits for a region, the
ciphertext so far, the tensor identifiers it read at CPGO, the requests of its present block, the operation number before
which everything of the core precedes its issue point (R293), and whether it writes zeros since its tag did not match
(R288). -/
structure Xfer where
  id : Nat
  ch : Nat
  prog : List Word
  st : XferSt := .issued
  reg : Nat
  op : Nat
  pos : Nat := 0
  pc : Word
  key : Option Word := none
  preds : List (Nat × Nat) := []
  held : Bool := false
  cause : Nat := 0
  fault : Word := 0
  wait : Option Nat := none
  acc : List Byte := []
  src : Tid := {}
  dst : Tid := {}
  cells : Option CellReq := none
  point : Nat := 0
  zeroing : Bool := false
  deriving DecidableEq, Repr

/-- A copy channel (R284): program registers, NEXT, and the attached key handle. -/
structure Chan where
  prog : List Word := List.replicate 16 0
  next : Nat := 1
  key : Option Word := none
  deriving DecidableEq, Repr

/-- A CPFENCE whose delivery waits for transfers (channel, identifier) to end, with its successor mask. -/
structure CpWait where
  reg : Nat
  op : Nat
  onto : List (Nat × Nat)
  succ : Nat := 0
  deriving DecidableEq, Repr

/-! ### Porters (R305 to R308) -/

/-- The states of a porter (R306). -/
inductive PortSt where
  | idle | running | waiting | faulted | error
  deriving DecidableEq, Repr

def PortSt.code : PortSt → Nat
  | .idle => 0
  | .running => 1
  | .waiting => 2
  | .faulted => 3
  | .error => 4

/-- A block transfer of a porter: global address, local offset, length, whether it goes to global memory, its requests, and
the cycle since which it waits for a region. -/
structure PBlock where
  ga : Nat
  lo : Nat
  len : Nat
  out : Bool
  cells : Option CellReq := none
  since : Option Nat := none
  deriving DecidableEq, Repr

/-- A porter: registers x1 to x31, pc, GBASE, state, exception code, mailbox, outstanding block transfers, its
instruction store (32-bit words by index) with the number of the event that left the rest of it unspecified, the token
(register and operation) of its PSTART and of its PSIGs, an exception or a fault (cause, address, whether a store) that
its next event takes, the blocks that a PGATH has sent, the cycle after the one in which it last issued, the requests
of the access that it executes, the cycle since which that access waits for a region, whether its fault is its oldest
block's, and the operation numbers before which the core's scratchpad accesses precede its start and its mailbox (R308). -/
structure Porter where
  x : Vector (BitVec 32) 32 := Vector.replicate 32 0
  pc : Nat := 0
  gbase : Nat := 0
  st : PortSt := .idle
  cause : Nat := 0
  mbox : Option (BitVec 32) := none
  blocks : List PBlock := []
  store : Tab (BitVec 32) := []
  sgen : Nat := 0
  token : Option (Nat × Nat) := none
  sigs : List (Nat × Nat) := []
  trap : Option Nat := none
  fault : Option (Nat × Word × Bool) := none
  sent : Nat := 0
  cons : Nat := 0
  one : Option CellReq := none
  since : Option Nat := none
  blockFault : Bool := false
  startPt : Nat := 0
  sigPt : Nat := 0
  deriving DecidableEq, Repr

/-! ### Reading and writing register files -/

/-- Element `i` of a vector, or a default outside it. -/
def rget {α : Type} {n : Nat} (d : α) (r : Vector α n) (i : Nat) : α := if h : i < n then r[i] else d

/-- Replace element `i`; an index outside changes nothing. -/
def rset {α : Type} {n : Nat} (r : Vector α n) (i : Nat) (x : α) : Vector α n := if h : i < n then r.set i x else r

theorem rget_rset_same {α : Type} {n : Nat} (d : α) (r : Vector α n) (i : Nat) (x : α) (h : i < n) :
    rget d (rset r i x) i = x := by simp [rget, rset, h]

theorem rget_rset_other {α : Type} {n : Nat} (d : α) (r : Vector α n) (i j : Nat) (x : α) (h : i ≠ j) :
    rget d (rset r i x) j = rget d r j := by
  unfold rget rset
  split
  · split
    · simp [h]
    · rfl
  · rfl

end Sys2Proof.Machine
end

