-- ==== Sys2Proof/Machine/MemTypes.lean ====
section
/-! DEFINITION. The state of the memory system: pages, translations, regions, die caches, accesses on their way, park
tables, slot tables (chapters "Pages, scratchpad and memory access", "The ordering model", "Counters, barriers and
atomics", "Groups, teams and the scheduler" R164). -/
namespace Sys2Proof.Machine

/-- A translation held by a TLB (R262): the page's first virtual address and size, its ASID and G, its physical base,
attribute and permissions. -/
structure TlbEnt where
  va : Nat
  size : Nat
  asid : Nat
  glob : Bool
  pa : Nat
  attr : Attr
  rd : Bool
  wr : Bool
  user : Bool
  dirty : Bool
  deriving DecidableEq, Repr

/-- One stretch of an access: its offset within the value, its address, its length, and its place where that is not the
place of the access (a page of another attribute, another member's scratchpad). -/
structure Piece where
  off : Nat
  pa : Nat
  len : Nat
  place : Option Place := none
  deriving DecidableEq, Repr

/-- An `ls` access of a core that has issued (R271 to R279, R344 to R357): its operation, where it goes, the control
word, operand, the value read from the delivery register at issue, the delivery register, the cycle it issued, the
dies of the requests not yet accepted (R164), the cycle of the last acceptance, whether it belongs to the lantern
context, the region handle, whether it is an arrival on retire, its
virtual address, whether it is held from being sent, and the cycles from its issue until it was sent (R332). -/
structure MemOp where
  id : Nat
  op : Op
  place : Place
  pieces : List Piece
  ctl : Word
  b : Val
  exp : Word := 0
  reg : Option Nat := none
  issue : Nat
  reqs : List Nat := []
  acc : Option Nat := none
  lan : Bool := false
  handle : Option Word := none
  arv : Bool := false
  slot : Nat := 2
  pc : Word := 0
  va : Word := 0
  extra : Nat := 0
  hold : Bool := false
  late : Nat := 0
  deriving DecidableEq, Repr

/-- A delivery whose value is known: it lands at the end of package cycle `due` (R40). `trap` is a cause taken at the
first bundle boundary after it has landed (R353, R356), with the slot and the bundle it is charged to; `bad` marks a
value read from an uncorrectable word (R432); a region load's names its region (R372). -/
structure Deliv where
  id : Nat
  reg : Nat
  val : Val
  tag : Status := 0
  due : Nat
  lan : Bool := false
  trap : Option Nat := none
  bad : Bool := false
  slot : Nat := 7
  pc : Word := 0
  handle : Option Word := none
  deriving DecidableEq, Repr

/-- What a parked wait waits for (R337): a counter threshold, or the end of a barrier phase. -/
inductive ParkKind where
  | ctr (threshold : Nat)
  | bar (phase : Nat)
  deriving DecidableEq, Repr

/-- How a parked wait ends other than by its condition (R339), the first the strongest. -/
inductive ParkEnd where
  | limit | stop | reinit | evicted
  deriving DecidableEq, Repr

def ParkEnd.rank : ParkEnd → Nat
  | .limit => 0
  | .stop => 1
  | .reinit => 2
  | .evicted => 3

/-- A parked wait (R337): the core, its operation and register, the place, the kind, the limit cycle, the T bit,
the control word, and the bundle; the threshold or the completed phase count that has ended it (R338), and what else
ends it at the end of this cycle (R339). Park order is list order. -/
structure Park where
  core : Nat
  id : Nat
  reg : Nat
  place : Place
  pa : Nat
  va : Word
  kind : ParkKind
  limit : Option Nat := none
  tbit : Bool := false
  ctl : Word := 0
  lan : Bool := false
  pc : Word := 0
  met : Option Nat := none
  ending : Option ParkEnd := none
  deriving DecidableEq, Repr

/-- A line of a B page held by a die cache: 128 bytes, the mask of dirty bytes (R316, R325), and whether the line has been
filled; of a line that only stores have reached, the dirty bytes alone count (R333). -/
structure BLine where
  data : BitVec 1024
  dirty : BitVec 128
  here : Bool := true
  deriving DecidableEq, Repr

/-- The states of an ownership region (R260). -/
inductive Owner where
  | proc | accel | toAccel | toProc
  deriving DecidableEq, Repr

def Owner.code : Owner → Nat
  | .proc => 0
  | .accel => 1
  | .toAccel => 2
  | .toProc => 3

/-- A 2 MiB region: its state, the package cycle of its last transfer, the cycle a transfer began, and whether an
accelerator or a host access waits for it. -/
structure Region2M where
  st : Owner := .proc
  since : Option Nat := none
  began : Nat := 0
  wantA : Bool := false
  wantP : Bool := false
  deriving DecidableEq, Repr

/-- The tables of one die (R164, R262, R263, R333, R337): slot-table cells by row · 64 + lane where they are not FREE,
the shared TLB, the walk cache's page-table lines of 64 bytes, oldest first, and those of them that are poisoned, the die
cache's B lines, the numbers of the C, K and L lines present in it, the park table, and of the present cycle the lanes that
have accepted a request and the walks that have been made. -/
structure Die where
  cells : Tab Nat := []
  tlb : List TlbEnt := []
  wlines : List (Nat × Nat) := []
  poison : List Nat := []
  blines : Tab BLine := []
  lines : List Nat := []
  park : List Park := []
  lanes : List Nat := []
  walks : Nat := 0
  deriving DecidableEq, Repr

/-- The shootdown register (R264): VA, KIND, PCLR, ASID, whether GO reads 1, and the number from which on operations need
not be waited for. -/
structure Shootdown where
  va : Word := 0
  ctl : Word := 0
  go : Bool := false
  bar : Nat := 0
  deriving DecidableEq, Repr

/-- A pending write of a slot-table cell (R179): the die, cell, owner, and who asked. -/
structure SlotWr where
  die : Nat
  cell : Nat
  owner : Nat
  core : Nat
  due : Nat
  reg : Nat
  id : Nat
  deriving DecidableEq, Repr

/-- A pending change of a share (R178). -/
structure ShareWr where
  part : Nat
  share : Nat
  core : Nat
  due : Nat
  reg : Nat
  id : Nat
  deriving DecidableEq, Repr

end Sys2Proof.Machine
end

