-- ==== Sys2Proof/Machine/SideTypes.lean ====
section
/-! DEFINITION. The two sides of a core and what a pair shares: everything that travels with a task's image, the
segment and its journal, the lantern context, and the matrix array of a pair (chapters "The tensor identifier and
the matrix array", "Segments, errors and traps", "Groups, teams and the scheduler" R167 to R171). -/
namespace Sys2Proof.Machine

/-- The segment states of R430; `none` before the first SEG bundle. -/
inductive SegSt where
  | none | open' | committed | rewinding | replaying | dropped
  deriving DecidableEq, Repr

/-- The state code of R430; a core that never opened a segment reads as outside one, code 1. -/
def SegSt.code : SegSt → Nat
  | .open' => 0
  | .none | .committed => 1
  | .rewinding => 2
  | .replaying => 3
  | .dropped => 4

/-- What the register journal restores (R427): the context at the entry boundary, with its results in flight, the
channels' NEXT counters, and the accumulators. -/
structure Journal where
  ctx : Ctx
  nexts : List Nat
  accs : List Acc
  deriving DecidableEq, Repr

/-- The segment of a core (R426 to R431): its state, the entry address, the bundles issued since the entry, the store
buffer, the journal, the cycle a rewind began, checks still to report (package cycles), and the number
from which on operations are its own. -/
structure Segment where
  st : SegSt := .none
  entry : Word := 0
  count : Nat := 0
  buf : List MemOp := []
  jr : Option Journal := none
  began : Nat := 0
  checks : List Nat := []
  firstId : Nat := 0
  fail : Bool := false
  deriving DecidableEq, Repr

/-- The operation in the array of a pair (R233): its core and number, the package cycle at whose end it is complete,
and what is complete then: accumulators, bytes of the scratchpad, and the mismatch of an MCHK (slot and bundle); whether it
is the lantern context's. -/
structure ArrOp where
  core : Nat
  op : Op
  id : Nat
  endc : Nat
  accs : List Acc
  bytes : List Host.Cell := []
  bad : Option (Nat × Word) := none
  lan : Bool := false
  deriving DecidableEq, Repr

/-- An unfinished MSEQ (R241): the ports of its trigger, the entries it read there, the next step, the number of
steps, its operation number, and its bundle. -/
structure Mseq where
  a : Word
  b : Word
  c : Word
  ta : Tid
  tb : Tid
  next : Nat := 0
  steps : Nat
  id : Nat
  pc : Word := 0
  deriving DecidableEq, Repr

/-- The `ls` trigger of the bundle that trapped FIRMWARE_ASSIST (R270): its operation, the ports as it latched them, and
the data of a VSCAT, and the cycle since which, and the byte for which, its completion waits for a region. -/
structure Latched where
  op : Op
  u : UPorts
  data : VReg := 0
  since : Option Nat := none
  at' : Word := 0
  deriving DecidableEq, Repr

/-- A pending operation of the control or copy unit whose answer comes from an agent (R167): its operation, register
and number, and what it asked. -/
structure Ask where
  op : Op
  reg : Nat
  id : Nat
  a : Nat := 0
  b : Nat := 0
  limit : Option Nat := none
  since : Nat := 0
  data : List Nat := []
  deriving DecidableEq, Repr

/-- Membership of a task in an atomic region (R363, R373): the handle, whether it has voted, its abort target, and its
region stores not yet retired. -/
structure Member where
  handle : Word
  voted : Bool := false
  target : Word := 0
  stores : Nat := 0
  noted : Option Nat := none
  deriving DecidableEq, Repr

/-- Everything of a core that belongs to its task and travels with its image (R169): the user context, scratchpad and
allocations, identifiers, accumulators, deque, scout state, tag table, channels and transfers, porters, bus claim,
accesses and deliveries under way, segment, latched `ls` ports, and the message handlers whose retirement is not yet a
release (job, and the operation number before which everything must be performed), of completed records the tile and the
operation number before which their writes stand, while one is not performed (R143), and the cycle after that of the scout's
last probe. -/
structure User where
  task : Option Task := none
  ctx : Ctx := {}
  spad : Mem := { open' := [(0, 0xC0000, 0)] }
  allocs : List Alloc := []
  tids : Tab Tid := []
  accs : List Acc := List.replicate 8 {}
  ptKey : Option (Nat × Nat × Nat × Nat) := none
  mseq : Option Mseq := none
  deque : List LRec := []
  lfsr : BitVec 16 := 1
  transit : List (Nat × LRec) := []
  tags : Tab (BitVec 54) := []
  chans : List Chan := List.replicate 4 {}
  xfers : List Xfer := []
  cpwaits : List CpWait := []
  porters : List Porter := [{}, {}]
  claim : BitVec 32 := 0
  mops : List MemOp := []
  delivs : List Deliv := []
  asks : List Ask := []
  seg : Segment := {}
  member : Option Member := none
  latched : Option Latched := none
  waive : Bool := false
  after : List TrapRec := []
  retiring : List (Nat × Nat) := []
  completing : List (Nat × Nat) := []
  probed : Nat := 0
  resume : Option (Nat × Nat) := none
  deriving DecidableEq, Repr

/-- An image at rest (R169, R170): the user side of a stopped core, with the tile it belongs to, the core that it left, its
address in the park area where PARK named one, and whether it is damaged, which no event of the table makes it. -/
structure Image where
  launch : Nat
  tile : Nat
  usr : User
  core : Nat := 0
  at' : Option Nat := none
  bad : Bool := false
  deriving DecidableEq, Repr

/-- A stop (R167): the request cycle T_r, the common cycles counted since, whether the core has reached its stopping
boundary, whether the image is then saved, and to which core (none: the park area), and the SNAP that asked for it. -/
structure Stop where
  at' : Nat
  common : Nat := 0
  reached : Bool := false
  park : Bool := false
  dest : Option Nat := none
  forSnap : Option (Nat × Nat × Word) := none
  deriving DecidableEq, Repr

/-- The lantern side of a core (R16, R180, R446): its context, a waiting IDLE and whether a stop, a debugger's request or a
command of Basecamp has come meanwhile, accesses and deliveries under way, and
the generation of the firmware image it runs. -/
structure Lantern where
  ctx : Ctx := {}
  idle : Option Ask := none
  called : Bool := false
  asks : List Ask := []
  mops : List MemOp := []
  delivs : List Deliv := []
  image : Nat := 0
  trapSeen : Bool := false
  fwCons : Nat := 0
  deriving DecidableEq, Repr

/-- One Wilod core (R14): its two sides, L1 TLB, the translations settled for the bundle that waits (R262), the walk it asks
for (address, whether a store), the fault it came to,
since when and for which address a bundle waits, park table, one more than the cycle in which it last
served a barrier operation, of each scratchpad bank the first cycle in which it is free (R267), bivouac image, stop request,
gated units and the one that wakes,
error counters, injection, trap record and held state, one more than the cycle in which one of its contexts last issued
(R16), and a debugger's address watches (space, first and last byte), which no event of the table sets (R173), and the physical addresses of the bundles
that its instruction cache holds, the latest first (R14). -/
structure WCore where
  usr : User := {}
  lan : Lantern := {}
  tlb : List TlbEnt := []
  settled : List TlbEnt := []
  walk : Option (Word × Bool) := none
  walkFault : Option (Nat × Word) := none
  waitFrom : Option (Nat × Word) := none
  park : List Park := []
  served : Nat := 0
  banks : Tab Nat := []
  biv : Option Image := none
  stop : Option Stop := none
  gated : BitVec 192 := 0
  wake : Option (Nat × Nat) := none
  corrected : Word := 0
  uncorrectable : Word := 0
  lastDrop : Nat := 0
  injMask : BitVec 11 := 0
  injKind : BitVec 22 := 0
  trapAt : Nat := 0
  debugHeld : Bool := false
  debugStep : Bool := false
  spent : Nat := 0
  watch : List (Nat × Nat × Nat) := []
  icache : List Nat := []
  deriving DecidableEq, Repr

/-- The matrix array of a pair (R17, R166, R233): the operation it runs, and the window length and mode of the team
most recently started or resumed on the even core. -/
structure Pair where
  run : Option ArrOp := none
  len : Nat := 8
  solo : Bool := false
  deriving DecidableEq, Repr

end Sys2Proof.Machine
end

