-- ==== Sys2Proof/Machine/HubTypes.lean ====
section
/-! DEFINITION. The state of the hub's objects: harts, continuations, streams, launches, teams, partitions (chapters
"The continuation", "The stream and its packets", "Groups, teams and the scheduler"). -/
namespace Sys2Proof.Machine

/-! ### Host harts (R18, R80, R86, R88, R94) -/

/-- Why a hart is waiting inside an instruction (R94, R96, R97): a CJOIN with its target and limit cycle, a CKILL, a CSAVE,
a CLOAD, or a CCKPT; or, before an instruction that comes after its earlier stores, for these (R93, R361). -/
inductive HWait where
  | none
  | stores
  | join (rd : Nat) (target : Word) (limit : Option Nat)
  | kill (rd : Nat) (block : Nat)
  | save (rd : Nat) (block : Nat)
  | load (rd : Nat) (block : Nat)
  | ckpt (rd : Nat)
  deriving DecidableEq, Repr

/-- A hart: x1 to x31, f0 to f31, the floating-point flags and rounding mode, v0 to v31 with the registers of the vector
extension, pc, whether it is in S-mode, its binding, the registers of S-mode with `sstatus` in its fields, and the line that a
load-reserved holds. -/
structure Hart where
  x : Vector Word 32 := Vector.replicate 32 0
  f : Vector Word 32 := Vector.replicate 32 0
  fflags : BitVec 5 := 0
  frm : BitVec 3 := 0
  v : Vector (BitVec 128) 32 := Vector.replicate 32 0
  vl : Nat := 0
  vtype : Word := 0x8000000000000000
  vstart : BitVec 7 := 0
  vxrm : BitVec 2 := 0
  vxsat : Bool := false
  pc : Word := 0
  sup : Bool := true
  binding : Nat := 0
  scause : Word := 0
  stval : Word := 0
  sepc : Word := 0
  stvec : Word := 0
  spp : Bool := false
  sie : Bool := false
  spie : Bool := false
  sieBits : Word := 0
  sipBits : Word := 0
  satp : Word := 0
  fs : BitVec 2 := 0
  vs : BitVec 2 := 0
  sum : Bool := false
  mxr : Bool := false
  sscratch : Word := 0
  scounteren : Word := 0
  resv : Option Nat := none
  wait : HWait := .none
  deriving DecidableEq, Repr

/-! ### Continuations and streams -/

/-- The states of a continuation (R77). -/
inductive ContSt where
  | free | idle | running | waiting | faulted | parked | killing | dead | orphaned
  deriving DecidableEq, Repr

def ContSt.code : ContSt → Nat
  | .free => 0
  | .idle => 1
  | .running => 2
  | .waiting => 3
  | .faulted => 4
  | .parked => 5
  | .killing => 6
  | .dead => 7
  | .orphaned => 8

def ContSt.ofCode (n : Nat) : ContSt :=
  nth .free [.free, .idle, .running, .waiting, .faulted, .parked, .killing, .dead, .orphaned] n

/-- The states of a stream (R118). -/
inductive StrSt where
  | dry | active | stalled | fetchFault | bad | held
  deriving DecidableEq, Repr

def StrSt.code : StrSt → Nat
  | .dry => 0
  | .active => 1
  | .stalled => 2
  | .fetchFault => 3
  | .bad => 4
  | .held => 5

/-- A started packet that has not retired (R100, R105): its type, TAG, depth and offset, whether its effect is
complete, its launch, and for a COPY what is left to do and whether it is paused at a fault; a WAIT keeps its counter,
value and limit cycle in `src`, `dst` and `len`; a COPY that waits for a region keeps in `since` the cycle since which. -/
structure Started where
  ty : Nat
  tag : Nat
  depth : Nat
  off : Nat
  hdr : Word
  over' : Bool
  done : Bool := false
  launch : Option Nat := none
  src : Nat := 0
  dst : Nat := 0
  len : Nat := 0
  pos : Nat := 0
  donePa : Option Nat := none
  amount : Nat := 0
  paused : Bool := false
  since : Option Nat := none
  deriving DecidableEq, Repr

/-- An active LOOP (R112, R113): the depth and first word of its body, its length, the passes left, and the body words
held, by index within the body. -/
structure PktLoop where
  depth : Nat
  start : Nat
  len : Nat
  passes : Nat
  own : Bool
  held : Tab Nat := []
  deriving DecidableEq, Repr

/-- A level of the call stack (R114): the buffer's address and size in words (depth 0: the ring), the next word, and the
CALL that entered it. -/
structure BufLevel where
  base : Nat
  size : Nat
  next : Nat
  call : Option Started := none
  deriving DecidableEq, Repr

/-- A call in flight (R121, R122): its index, whether it is strong, the core and operation that asked, the delivery
register, and whether it is published yet. -/
structure SysCall where
  n : Nat
  strong : Bool
  core : Nat
  launch : Nat
  tile : Nat
  reg : Nat
  id : Nat
  published : Bool
  slot : List Word := []
  inl : List Host.Cell := []
  deriving DecidableEq, Repr

/-- A stream (R98 to R122): its state and the state before a hold, the predicate, the call stack (innermost first),
the held words of the buffer that executes (by index), the active LOOPs (innermost first), the LOOPs whose last pass has run and not retired (R113), started packets in the order of
counting, the record address, skip counts, whether a WAIT waits, the cycle after that of its last step, the system
calls, the header that a stop found, and whether an FFENCE's words are still to be read again. -/
structure Stream where
  st : StrSt := .dry
  was : StrSt := .dry
  pred : Bool := true
  levels : List BufLevel := [{ base := 0, size := 0, next := 0 }]
  window : Tab Nat := []
  loops : List PktLoop := []
  ending : List PktLoop := []
  started : List Started := []
  record : Nat := 0
  skpk : Nat := 0
  skfl : Nat := 0
  waiting : Bool := false
  cons : Nat := 0
  calls : List SysCall := []
  faultHdr : Option Nat := none
  refill : Bool := false
  deriving DecidableEq, Repr

/-- A fault record as it stands in the control block (R75): class, cause, slot, core, launch identifier, address, FPCA
and time, and what CRESUME acts on. -/
inductive FObj where
  | task (launch tile : Nat)
  | xfer (launch tile ch id : Nat)
  | porter (launch tile side : Nat)
  | stream
  | copyPkt
  | message (n : Nat)
  deriving DecidableEq, Repr

structure FRec where
  cls : Nat
  cause : Nat
  slot : Nat := 0
  core : Nat := 0
  flid : Nat := 0
  addr : Word := 0
  fpca : Word := 0
  time : Nat := 0
  obj : FObj := .stream
  posted : Option (Nat × Nat) := none
  deriving DecidableEq, Repr

/-- A binding-table entry (R281). -/
structure Bind where
  base : Nat := 0
  slog : Nat := 0
  counter : Nat := 0
  deriving DecidableEq, Repr

/-- The engine's live copy of a continuation (R75, R76): the fields of its block, its stream, the fault record and the
faults waiting behind it, the binding table, the launch count, whether a parking is under way and whether a checkpoint
asked for it, the posts (index and cycle) that FETCH had not passed when the last was made, and what CRESUME has decided
for the fault of a parked one: it is done at unparking. -/
structure Cont where
  block : Nat
  st : ContSt
  pst : ContSt := .idle
  resident : Bool := false
  prio : Nat := 0
  part : Nat := 0
  anchor : Nat := 0
  xp : Bool := false
  ap : Bool := false
  sbase : Nat := 0
  slog : Nat := 12
  progress : Nat := 0
  fetch : Nat := 0
  drops : Nat := 0
  cid : Nat := 0
  atp : Word := 0
  btab : Nat := 0
  cring : Nat := 0
  clog : Nat := 12
  pbase : Nat := 0
  plog : Nat := 16
  fault : Option FRec := none
  later : List FRec := []
  ckgen : Nat := 0
  binds : List Bind := List.replicate 64 {}
  stream : Stream := {}
  launches : Nat := 0
  parking : Bool := false
  ckpt : Bool := false
  posts : List (Nat × Nat) := []
  fate : Option Nat := none
  deriving DecidableEq, Repr

/-! ### Launches, teams, partitions -/

/-- The states of a launch (R151). -/
inductive LaunchSt where
  | posted | ready | placing | active | draining | done
  deriving DecidableEq, Repr

/-- The states of a team (R158). -/
inductive TeamSt where
  | waiting | starting | running | stopping | swapped | ended
  deriving DecidableEq, Repr

/-- An estimating launch's field (R408). -/
structure EstCfg where
  n : Nat
  seed : Word
  mode : Nat
  k : Nat
  nmin : Nat
  tol : Nat
  z : Nat
  record : Nat
  recordPa : Nat := 0
  deriving DecidableEq, Repr

/-- A launch (R109, R151 to R160): its continuation's block, identifier, depth and parent, the packet's fields, the
image tables read at submission, its state, rectangle, teams, rotation, the saved images of its tasks, and whether the
stop under way ends in READY (a displacement) or in a parking. -/
structure Launch where
  block : Nat
  cid : Nat
  lid : Nat
  part : Nat
  depth : Nat := 0
  parent : Option Nat := none
  image : Nat
  code : Nat
  entry : Nat
  bundles : Nat
  maxseg : Nat
  wlog : Nat
  hlog : Nat
  gx : Nat
  gy : Nat
  prio : Nat
  ceil : Nat
  opts : Word := 0
  args : List Word := []
  donePa : Option Nat := none
  amount : Nat := 0
  est : Option EstCfg := none
  job : Option Nat := none
  allocs : List Alloc := []
  tidDecl : List (Nat × Word × Word) := []
  loops : List LRec := []
  porters : List (Option (List (BitVec 32))) := [none, none]
  st : LaunchSt := .posted
  readyAt : Nat := 0
  eff : Nat := 0
  aged : Nat := 0
  shifted : Option Nat := none
  x0 : Nat := 0
  y0 : Nat := 0
  teams : Tab TeamSt := []
  cur : Nat := 0
  startAt : Option Nat := none
  quantumEnd : Nat := 0
  saved : List Image := []
  over' : List (Nat × TaskSt) := []
  noDone : Bool := false
  killed : Bool := false
  leaving : Bool := false
  deriving DecidableEq, Repr

def Launch.W (l : Launch) : Nat := 2 ^ l.wlog
def Launch.H (l : Launch) : Nat := 2 ^ l.hlog
/-- ⌈GX/W⌉, the teams in a row (R158). -/
def Launch.teamsX (l : Launch) : Nat := (l.gx + l.W - 1) / l.W
def Launch.teamsY (l : Launch) : Nat := (l.gy + l.H - 1) / l.H
def Launch.free (l : Launch) : Bool := l.opts.getLsbD 0
def Launch.solo (l : Launch) : Bool := l.opts.getLsbD 1
def Launch.winLen (l : Launch) : Nat := 8 * 2 ^ (l.opts.toNat / 4 % 4)
/-- The team quantum in package cycles (R109: 0 means 1 ms; R158: 1,200 package cycles per µs). -/
def Launch.quantum (l : Launch) : Nat :=
  let q := l.opts.toNat / 2 ^ 32 % 2 ^ 16
  1200 * (if q = 0 then 1000 else q)

/-- A partition's register block (R161), the engine's index of its attention ring and the entries (block and cause) that wait for a place in it, and
whether landing is closed after a reset of its function (R398). -/
structure Part where
  en : Bool := false
  hard : Bool := false
  dbg : Bool := false
  share : Nat := 6
  rprio : Nat := 0
  ring : Nat := 0
  hart : Nat := 0xFF
  next : Nat := 0
  waiting : List (Nat × Nat) := []
  closed : Bool := false
  deriving DecidableEq, Repr

/-- A cluster (R11, R161, R266): its home partition and the partition it belongs to now, whether its home reclaims it, a
retry of a waiting reclaim,
whether it is gated; and of the present cycle the drive of its bus and the landings (R302). -/
structure Cluster where
  home : Option Nat := none
  cur : Option Nat := none
  reclaim : Bool := false
  retryAt : Option Nat := none
  gated : Bool := true
  drive : Option (Nat × BitVec 512) := none
  lands : List (Nat × Nat) := []
  deriving DecidableEq, Repr

end Sys2Proof.Machine
end

