-- ==== Sys2Proof/Machine/LinkTypes.lean ====
section
/-! DEFINITION. The state of atomic regions, the Stolpin fabric and PCI Express, estimates, and the module's firmware,
keys, flash and power (chapters "The atomic region", "Links: the Stolpin fabric and PCI Express landing", "The
estimating launch", "The firmware image, security and bring-up"). -/
namespace Sys2Proof.Machine

/-! ### Atomic regions (R362 to R375) -/

/-- The states of a region (R368). -/
inductive RegSt where
  | open' | voting | committing | committed | aborting | aborted | freed
  deriving DecidableEq, Repr

def RegSt.code : RegSt → Nat
  | .open' => 0
  | .voting => 1
  | .committing => 2
  | .committed => 3
  | .aborting => 4
  | .aborted => 5
  | .freed => 6

/-- A member of a region as its home counts it: a task of this package (its launch and tile) or one of another package
(its number), and whether its outcome is still to be delivered. -/
structure RMember where
  pkg : Nat
  launch : Nat
  tile : Nat
  voted : Bool := false
  told : Bool := false
  deriving DecidableEq, Repr

/-- A region slot (R362, R365, R368): its handle and generation, state, whether the last vote was received, the members, votes, job,
cause, the opener's launch, the lines of the read and write sets, and the tentative bytes. -/
structure RSlot where
  handle : Word
  gen : Nat
  st : RegSt := .open'
  locking : Bool := false
  members : List RMember := []
  votes : Nat := 0
  job : Nat := 0
  cause : Nat := 0
  opener : Nat := 0
  rset : List Nat := []
  wset : List Nat := []
  tent : Tab Byte := []
  deriving DecidableEq, Repr

/-- What another package has sent to this one as a region's home, or as the home of a line (R366, R369): its number, the
package, core and task (launch, tile, job) it comes from, the operation, the handle, and of an access its address, length
and bytes. -/
structure RegReq where
  n : Nat
  pkg : Nat
  core : Nat
  launch : Nat
  tile : Nat
  job : Nat
  op : Op
  handle : Word
  pa : Nat := 0
  len : Nat := 0
  bytes : List Byte := []
  deriving DecidableEq, Repr

/-- What the home of a region, another package, has sent to this one (R369 to R372): its answer to an operation, an outcome
for this package's members (cause 0: the commit), or an order to the directories of this package. -/
inductive RegOrder where
  | answer (id : Nat) (v : Word) (st : Status)
  | outcome (handle : Word) (cause : Nat)
  | lock (handle : Word)
  | write (handle : Word)
  | discard (handle : Word)
  deriving DecidableEq, Repr

/-! ### The fabric (R383 to R407) -/

/-- The states of a Stolpin port (R385). -/
inductive PortSt' where
  | down | training | up | degraded
  deriving DecidableEq, Repr

def PortSt'.code : PortSt' → Nat
  | .down => 0
  | .training => 1
  | .up => 2
  | .degraded => 3

/-- What a fabric message does at its destination (R404, R405); `answer` is the reply, or the loss notice, to a fetching
RAMO: no message of R389, it carries the header sequence of what it answers. -/
inductive MsgKind where
  | msg (core tmpl doff : Nat) (payload : List Byte)
  | rwr (va : Nat) (payload : List Byte)
  | ramo (va : Nat) (aop : Nat) (w32 : Bool) (b : Word) (fetch : Bool)
  | rred (va : Nat) (b : Word)
  | amoWin (va : Nat) (b : Word)
  | answer (ref : Nat) (v : Word) (lost : Bool)
  deriving DecidableEq, Repr

/-- A message (R383, R389): its number, source and destination package, job, the sender's key of R396, what it does,
the register and operation its reply goes to, whether it is held at the destination (R394, R404), the operation of its
sender, and the header sequence its sender gave it (R386). -/
structure Msg where
  seq : Nat
  src : Nat
  dst : Nat
  job : Nat
  key : Nat
  kind : MsgKind
  reply : Option (Nat × Nat × Nat) := none
  held : Bool := false
  op : Nat := 0
  ref : Nat := 0
  deriving DecidableEq, Repr

/-- A Stolpin port (R384, R385, R387): state, peer switch, RETRY, refusals in a row, the cycle its training began, and
the messages it has not had acknowledged. -/
structure Stolpin where
  st : PortSt' := .down
  peer : Nat := 0xFF
  retry : Nat := 0
  fails : Nat := 0
  began : Nat := 0
  replay : List Msg := []
  deriving DecidableEq, Repr

/-- The wave's state of a job at this package (R391). -/
inductive JobSt where
  | active | probing | confirming | quiet
  deriving DecidableEq, Repr

def JobSt.code : JobSt → Nat
  | .active => 0
  | .probing => 1
  | .confirming => 2
  | .quiet => 3

/-- A held job (R388, R389, R391): its holder, counters, last-loss cause, wave state, the sums of the last completed
pass and of pass 1 of the wave in progress, and the cycle in which that wave's pass 1 began. -/
structure Job where
  holder : Nat
  inj : Word := 0
  cons : Word := 0
  loss : Word := 0
  cause : Nat := 0
  st : JobSt := .active
  sumI : Word := 0
  sumC : Word := 0
  p1I : Word := 0
  p1C : Word := 0
  deriving DecidableEq, Repr

/-- A contribution to an element of a reduction window (R396): its key, value and job, the package it comes from, and the
operation of its core, which orders those of one core. -/
structure Contrib where
  elem : Nat
  key : Nat
  val : Word
  job : Nat
  src : Nat
  op : Nat := 0
  deriving DecidableEq, Repr

/-- A reduction window (R395): its two words, whether it is installed, and the contributions of unfinished rounds. -/
structure RWin where
  w0 : Word := 0
  w1 : Word := 0
  installing : Bool := false
  en : Bool := false
  got : List Contrib := []
  deriving DecidableEq, Repr

/-- A landing window (R399): BASE, SLOG, DBELL, EN as their two words. -/
structure LWin where
  w0 : Word := 16
  w1 : Word := 0
  deriving DecidableEq, Repr

/-- A PCI Express port (R398): link trained, contained by DPC, an Unsupported Request reported through AER (R400). -/
structure Pcie where
  up : Bool := false
  dpc : Bool := false
  aer : Bool := false
  deriving DecidableEq, Repr

/-- The fabric interface of the package (R383, R389, R391): ports, jobs by identifier, messages that have arrived and are
not yet performed, the messages received (source and number), windows, the wave: its pass and the cycle its pass 1
began, what has arrived from other packages about regions, and what this package's homes have answered them (number, value,
status). -/
structure Fabric where
  ports : Tab Stolpin := []
  jobs : Tab Job := []
  msgs : List Msg := []
  seen : List (Nat × Nat) := []
  nextSeq : Nat := 1
  wins : Tab RWin := []
  land' : Tab LWin := []
  pcie : Tab Pcie := []
  wave : Option (Nat × Nat) := none
  lastWave : Nat := 0
  regReqs : List RegReq := []
  regOrders : List RegOrder := []
  regSaid : List (Nat × Word × Status) := []
  deriving DecidableEq, Repr

/-! ### Estimates (R408 to R424) -/

/-- The states of an estimate (R410). -/
inductive EstSt where
  | armed | sampling | stopping | stopped | exhausted
  deriving DecidableEq, Repr

def EstSt.code : EstSt → Nat
  | .armed => 0
  | .sampling => 1
  | .stopping => 2
  | .stopped => 3
  | .exhausted => 4

/-- A running mean (R414): count, mean and M2 as FP64 codes. -/
structure Moments where
  n : Nat := 0
  mean : Nat := 0
  m2 : Nat := 0
  deriving DecidableEq, Repr

/-- An estimate (R408 to R419): its field, state, WHY, positions handed out and not yet ended (with the tile that holds
them), values buffered, positions ended (of a dropped one the tile that held it), the leading moments, the accumulators of the cores, counts, the frozen state. -/
structure Estimate where
  cfg : EstCfg
  st : EstSt := .armed
  why : Nat := 0
  next : Nat := 0
  outst : Tab Nat := []
  vals : Tab Word := []
  ended : List (Nat × Option Nat) := []
  merged : Nat := 0
  lead : Moments := {}
  accs : Tab Moments := []
  accepted : Nat := 0
  last : Moments := {}
  frozen : Option (Moments × Nat) := none
  late : Nat := 0
  droppedN : Nat := 0
  deriving DecidableEq, Repr

/-! ### Firmware, keys, flash, power (R444 to R455) -/

/-- The states of an image object (R445). -/
inductive ImgSt where
  | none | receiving | verified | staged | activating | active | rejected
  deriving DecidableEq, Repr

def ImgSt.code : ImgSt → Nat
  | .none => 0
  | .receiving => 1
  | .verified => 2
  | .staged => 3
  | .activating => 4
  | .active => 5
  | .rejected => 6

/-- One of the two image slots of flash (R444): the image in it, whether it has passed the check, the SVN and DIGEST of
its header, whether it is marked bootable as pending. -/
structure ImgSlot where
  bytes : List Byte := []
  valid : Bool := false
  svn : Nat := 0
  digest : List Byte := []
  pending : Bool := false
  deriving DecidableEq, Repr

/-- A key of the Canister (R448): its handle and its bits. -/
structure Key where
  handle : Word
  bits : BitVec 256
  valid : Bool := true
  deriving DecidableEq, Repr

/-- One continuation of a checkpoint generation (R90): its fields and stream, its launches and their images, its
estimates, POST and OWNER, and the pages saved for it: the bounds of each and what memory held there. -/
structure CkptCont where
  cont : Cont
  post : Nat
  owner : Nat
  launches : List (Nat × Launch)
  ests : List (Nat × Estimate)
  pages : List (Nat × Nat × Mem)
  deriving DecidableEq, Repr

/-- A checkpoint generation in flash (R90, R453). -/
structure Ckpt where
  gen : Nat
  conts : List CkptCont
  deriving DecidableEq, Repr

/-- The module outside the dies (R443 to R455): image slots and the image in update, the fused minimum SVN, the active
slot, the count of images activated, the keys, the event that drew each partition's memory key, INTERVAL, GEN, the flash
checkpoint and the one in progress, whether the checkpoint area is full or has failed (R92), the dump, whether the module has come up and whether only the PLDM service runs, the
power cap, the throttle exponent, the windows below the cap, and whether power is on. -/
structure Module where
  slots : List ImgSlot := [{ valid := true }, {}]
  upd : ImgSt := .none
  updSlot : Nat := 1
  activeSlot : Nat := 0
  minSvn : Nat := 0
  imageGen : Nat := 0
  serial : Nat := 1
  keys : List Key := []
  memKeyGen : Tab Nat := []
  interval : Nat := 0
  gen : Nat := 0
  ckpt : Option Ckpt := none
  pending : Option (List Nat) := none
  areaLost : Bool := false
  ckNext : Option Nat := none
  dump : List Word := []
  booted : Bool := false
  onlyPldm : Bool := false
  cap : Nat := 3000
  throttle : Option Nat := none
  below : Nat := 0
  powered : Bool := true
  deriving DecidableEq, Repr

def Module.slot (m : Module) (n : Nat) : ImgSlot := nth {} m.slots n

end Sys2Proof.Machine
end

