-- ==== Sys2Proof/Machine/State.lean ====
section
/-! DEFINITION. The state of one KG9-M package, its reset, and the reasons for which a step can stop.

One step is one row of the table of operations and events. `agenda` says which step comes next; where it is empty, the
schedule of Machine/Step.lean picks the step. `actor` is the agent whose instruction runs. Both are the model's own
(log 3), as are `fresh`, which numbers the free values taken (log 2), and `nextOp`, which numbers the operations under
way, so that an answer finds the core or the saved image that waits for it, and `ended`, one more than the cycle whose agents
have answered (the first part of a cycle's end); `engine` lists the harts whose next instruction the continuation engine
takes in its place in the cycle's order (R78). -/
namespace Sys2Proof.Machine

/-- The agent that executes an instruction: a core's user or lantern context (R16), a hart (R18), a porter (R305). -/
inductive Actor where
  | core (n : Nat)
  | lantern (n : Nat)
  | hart (h : Nat)
  | porter (c side : Nat)
  deriving DecidableEq, Repr

/-- What the next step of the package is: a step of the table without a word of its own, an agent's next instruction (a
hart's at once or in the engine's place), the next block of a transfer, of one in a saved image, or of a COPY packet, the firmware's answer to a trap, or the end of a package cycle. -/
inductive Turn where
  | event (i : Instr)
  | core (n : Nat)
  | lantern (n : Nat)
  | hart (h : Nat)
  | engine (h : Nat)
  | porter (c side : Nat)
  | firmware (c : Nat)
  | copyBlock (c ch id : Nat)
  | imageBlock (k tile ch id : Nat)
  | hubCopy (k : Nat)
  | tick
  deriving DecidableEq, Repr

/-- The package. `cores`, `harts`, `pairs`, `clusters`, `regions` hold what differs from reset: an absent entry is in
its reset state. -/
structure State where
  cyc : Nat := 0
  actor : Actor := .core 0
  agenda : List Turn := []
  fresh : Nat := 0
  nextOp : Nat := 1
  mem : Mem := {}
  unc : List Nat := []
  dies : List Die := List.replicate 4 {}
  regions : Tab Region2M := []
  cores : Tab WCore := []
  pairs : Tab Pair := []
  clusters : Tab Cluster := []
  parts : List Part := List.replicate 16 {}
  harts : Tab Hart := []
  conts : Tab Cont := []
  launches : Tab Launch := []
  nextLaunch : Nat := 1
  rslots : Tab RSlot := []
  ropens : Nat := 1
  ests : Tab Estimate := []
  fab : Fabric := {}
  mod : Module := {}
  shoot : Shootdown := {}
  slotWrs : List SlotWr := []
  shareWrs : List ShareWr := []
  plan : Plan := {}
  hostq : List (Nat × List Byte) := []
  engine : List Nat := []
  answers : List (Nat × List Byte) := []
  touched : List (Place × Nat) := []
  ended : Nat := 0
  deriving DecidableEq, Repr

/-- Why the machine stops with a fault. -/
inductive Fault where
  /-- Raised by a step while the module has no power (R455: a thermal trip has cut it) and no POWER_ON is on the
  agenda. Safe: nothing in the package runs then. -/
  | noPower
  /-- Raised by HOST_STORE at an address that the memory map (R258) gives to nothing. Safe: the spec says no such memory exists. -/
  | noMemory (addr : Nat)
  deriving DecidableEq, Repr

/-- Why a step has no meaning. -/
inductive Refusal where
  /-- Raised by `exec` for a row of the table that has no meaning yet. Safe. -/
  | notModelled (mnemonic : String)
  deriving DecidableEq, Repr

/-- The outcome of a step of this machine. -/
abbrev Out := Host.Outcome State Fault Refusal

/-- The package at power-on, before POWER_ON (R452): every register at the value the spec gives for reset or the log
names, no byte of memory determined. -/
def State.reset : State := { mem := { open' := [(0, 2 ^ 64, 0)] } }

end Sys2Proof.Machine
end

