-- ==== Sys2Proof/Machine/Ops.lean ====
section
/-! DEFINITION. The named operations over memory, the cores and the tables of the package that the meanings share. -/
namespace Sys2Proof.Machine

/-! ### Bytes (R2) and byte memory -/

/-- The listed byte of an address. -/
def cellAt : List Host.Cell → Nat → Option Byte
  | [], _ => none
  | (k, v) :: t, a => if k = a then some v else cellAt t a

/-- List a byte, keeping the addresses strictly rising. -/
def cellPut : List Host.Cell → Nat → Byte → List Host.Cell
  | [], a, b => [(a, b)]
  | (k, v) :: t, a, b => if a < k then (a, b) :: (k, v) :: t else if a = k then (a, b) :: t else (k, v) :: cellPut t a b

/-- Take an address off the list. -/
def cellDel : List Host.Cell → Nat → List Host.Cell
  | [], _ => []
  | (k, v) :: t, a => if k = a then cellDel t a else (k, v) :: cellDel t a

/-- The addresses rise strictly. -/
def cellsRise : List Host.Cell → Bool
  | [] => true
  | [_] => true
  | (a, _) :: (b, y) :: t => decide (a < b) && cellsRise ((b, y) :: t)

/-- The event that left an address unspecified, if it lies in an open range. -/
def openGen : List (Nat × Nat × Nat) → Nat → Option Nat
  | [], _ => none
  | (lo, hi, g) :: t, a => if lo ≤ a ∧ a < hi then some g else openGen t a

/-- What an unlisted address reads as: a free value in an open range, 0 elsewhere (log 1). -/
def Mem.unlisted (m : Mem) (a : Nat) : Byte :=
  match openGen m.open' a with
  | some g => Config.freeByte g a
  | none => 0

/-- The byte at an address. -/
def Mem.rd (m : Mem) (a : Nat) : Byte := (cellAt m.cells a).getD (m.unlisted a)

/-- Write a byte: outside the open ranges a 0 is kept by listing nothing. -/
def Mem.wr (m : Mem) (a : Nat) (b : Byte) : Mem :=
  if (openGen m.open' a).isNone ∧ b = 0 then { m with cells := cellDel m.cells a }
  else { m with cells := cellPut m.cells a b }

/-- The canonical form: addresses strictly rising, and no 0 listed outside the open ranges. -/
def Mem.wf (m : Mem) : Bool :=
  cellsRise m.cells && m.cells.all (fun c => (openGen m.open' c.1).isSome || decide (c.2 ≠ 0))

/-- `n` bytes from an address. -/
def Mem.rdN (m : Mem) (a : Nat) : Nat → List Byte
  | 0 => []
  | n + 1 => m.rd a :: m.rdN (a + 1) n

/-- Write bytes from an address on. -/
def Mem.wrN (m : Mem) (a : Nat) : List Byte → Mem
  | [] => m
  | b :: t => (m.wr a b).wrN (a + 1) t

/-- A little-endian number of `n` bytes (R2). -/
def Mem.num (m : Mem) (a n : Nat) : Nat := ofBytesLE (m.rdN a n)

/-- The open ranges with the part from `lo` to `hi` taken out. -/
def openCut (lo hi : Nat) : List (Nat × Nat × Nat) → List (Nat × Nat × Nat)
  | [] => []
  | (a, b, g) :: t =>
    (if a < lo ∧ a < b then [(a, min b lo, g)] else []) ++ (if hi < b ∧ a < b then [(max a hi, b, g)] else [])
      ++ openCut lo hi t

/-- The bytes from `lo` to `hi` become zero. -/
def Mem.zero (m : Mem) (lo hi : Nat) : Mem :=
  { cells := m.cells.filter (fun c => decide (c.1 < lo ∨ hi ≤ c.1)), open' := openCut lo hi m.open' }

/-- The bytes from `lo` to `hi` become unspecified. -/
def Mem.spoil (m : Mem) (lo hi g : Nat) : Mem :=
  { cells := m.cells.filter (fun c => decide (c.1 < lo ∨ hi ≤ c.1)), open' := (lo, hi, g) :: openCut lo hi m.open' }

/-! ### Topology (R9 to R12, R252, R258) -/

def cx (c : Nat) : Nat := c % 64
def cy (c : Nat) : Nat := c / 64
/-- The core at a coordinate (R9). -/
def coreAt (x y : Nat) : Nat := 64 * y + x
/-- The die that holds a core (R9). -/
def dieOf (c : Nat) : Nat := cx c / 32 + 2 * (cy c / 16)
/-- The pair of a core (R10). -/
def pairOf (c : Nat) : Nat := 32 * cy c + cx c / 2
/-- The cluster of a core (R11). -/
def clusterOf (c : Nat) : Nat := 8 * (cy c / 4) + cx c / 8
/-- The member index of a core in its cluster (R252). -/
def memberOf (c : Nat) : Nat := 8 * (cy c % 4) + cx c % 8
/-- The core that is member `m` of cluster `k`. -/
def memberCore (k m : Nat) : Nat := coreAt (8 * (k % 8) + m % 8) (4 * (k / 8) + m / 8)
/-- The 32 cores of a cluster. -/
def clusterCores (k : Nat) : List Nat := (upto 0 32).map (memberCore k)
/-- The die of a cluster (R11). -/
def clusterDie (k : Nat) : Nat := dieOf (memberCore k 0)

/-- Edges between two dies: 0 for the same die, 1 for edge-adjacent ones, 2 for diagonal ones (R9). -/
def dieHops (a b : Nat) : Nat := if a = b then 0 else if a + b = 3 then 2 else 1

/-- Whether a physical address lies in an HBM stack (R258). -/
def inHbm (pa : Nat) : Bool := decide (pa / 2 ^ 36 < 8) && decide (pa % 2 ^ 36 < 64000000000)

/-- The home die of a C, K or L line, PA[38:37] (R258). -/
def homeDie (pa : Nat) : Nat := pa / 2 ^ 37 % 4

/-! ### Cores, contexts, tasks -/

def State.core (s : State) (c : Nat) : WCore := s.cores.getD c {}
def State.setCore (s : State) (c : Nat) (w : WCore) : State := { s with cores := s.cores.put c w }
def State.modCore (s : State) (c : Nat) (f : WCore → WCore) : State := s.setCore c (f (s.core c))
def State.usr (s : State) (c : Nat) : User := (s.core c).usr
def State.modUsr (s : State) (c : Nat) (f : User → User) : State := s.modCore c (fun w => { w with usr := f w.usr })
def State.modLan (s : State) (c : Nat) (f : Lantern → Lantern) : State := s.modCore c (fun w => { w with lan := f w.lan })
def State.modTask (s : State) (c : Nat) (f : Task → Task) : State := s.modUsr c (fun u => { u with task := u.task.map f })

/-- The context of one side of a core: the lantern's, or the user's. -/
def State.ctx (s : State) (c : Nat) (lan : Bool) : Ctx := if lan then (s.core c).lan.ctx else (s.usr c).ctx

def State.modCtx (s : State) (c : Nat) (lan : Bool) (f : Ctx → Ctx) : State :=
  if lan then s.modLan c (fun l => { l with ctx := f l.ctx }) else s.modUsr c (fun u => { u with ctx := f u.ctx })

/-- The task of a core, if it holds one. -/
def State.task? (s : State) (c : Nat) : Option Task := (s.usr c).task

/-- The launch of a core's task. -/
def State.launchOf? (s : State) (c : Nat) : Option Launch :=
  match s.task? c with
  | some t => s.launches.find? t.launch
  | none => none

/-- The continuation of a core's task. -/
def State.contOf? (s : State) (c : Nat) : Option Cont :=
  match s.launchOf? c with
  | some l => s.conts.find? l.block
  | none => none

/-- The number under which the model keeps tile (tx, ty) of a launch; the rectangle's cores without a tile have numbers
outside the grid. -/
def Launch.tile (l : Launch) (tx ty : Nat) : Nat := ty * (l.teamsX * l.W) + tx
def Task.tile (t : Task) (l : Launch) : Nat := l.tile t.tx t.ty

/-- The launch and tile of a core's task. -/
def State.taskKey (s : State) (c : Nat) : Nat × Nat :=
  match s.task? c, s.launchOf? c with
  | some t, some l => (t.launch, t.tile l)
  | _, _ => (0, 0)

def State.modLaunch (s : State) (l : Nat) (f : Launch → Launch) : State := { s with launches := s.launches.upd l f }
def State.modCont (s : State) (k : Nat) (f : Cont → Cont) : State := { s with conts := s.conts.upd k f }
def State.modStream (s : State) (k : Nat) (f : Stream → Stream) : State := s.modCont k (fun q => { q with stream := f q.stream })
def State.die (s : State) (d : Nat) : Die := nth {} s.dies d
def State.modDie (s : State) (d : Nat) (f : Die → Die) : State := { s with dies := setAt s.dies d (f (s.die d)) }
def State.part (s : State) (p : Nat) : Part := nth {} s.parts p
def State.modPart (s : State) (p : Nat) (f : Part → Part) : State := { s with parts := setAt s.parts p (f (s.part p)) }
def State.cluster (s : State) (k : Nat) : Cluster := s.clusters.getD k {}
def State.modCluster (s : State) (k : Nat) (f : Cluster → Cluster) : State := { s with clusters := s.clusters.put k (f (s.cluster k)) }
def State.pair (s : State) (p : Nat) : Pair := s.pairs.getD p {}
def State.setPair (s : State) (p : Nat) (x : Pair) : State := { s with pairs := s.pairs.put p x }
def State.hart (s : State) (h : Nat) : Hart := s.harts.getD h {}
def State.setHart (s : State) (h : Nat) (x : Hart) : State := { s with harts := s.harts.put h x }
def State.region (s : State) (pa : Nat) : Region2M := s.regions.getD (pa / 2 ^ 21) {}

/-- Put steps at the front of the agenda. -/
def State.soon (s : State) (ts : List Turn) : State := { s with agenda := ts ++ s.agenda }

/-- A number for an operation. -/
def State.newId (s : State) : Nat × State := (s.nextOp, { s with nextOp := s.nextOp + 1 })

/-- Take a free word (log 2). -/
def State.takeWord (s : State) : Word × State := (Config.freeWord s.fresh, { s with fresh := s.fresh + 1 })

/-- A number for an event that leaves bytes unspecified (log 1). -/
def State.takeGen (s : State) : Nat × State := (s.fresh, { s with fresh := s.fresh + 1 })

/-- The cores that hold a task which a predicate holds of. -/
def State.coresWith (s : State) (f : Task → Bool) : List Nat :=
  s.cores.filterMap (fun (n, w) => match w.usr.task with | some t => if f t then some n else none | none => none)

/-- The cores of a launch's current team. -/
def State.coresOf (s : State) (l : Nat) : List Nat := s.coresWith (fun t => decide (t.launch = l))

/-! ### Scratchpad -/

def State.spad (s : State) (c : Nat) : Mem := (s.usr c).spad
def State.modSpad (s : State) (c : Nat) (f : Mem → Mem) : State := s.modUsr c (fun u => { u with spad := f u.spad })

/-- The allocation that holds an offset. -/
def allocAt : List Alloc → Nat → Option Alloc
  | [], _ => none
  | a :: t, o => if a.covers o 1 then some a else allocAt t o

/-- The bank that serves the word at an offset (R267). -/
def bankOf (allocs : List Alloc) (o : Nat) : Nat :=
  let row := o / 512
  let w := o / 16 % 32
  let sp := ((allocAt allocs o).map Alloc.span).getD 0
  if sp = 0 then w
  else
    let g := sp - 1
    (Nat.xor (w / 2 ^ g) (row % (32 / 2 ^ g))) * 2 ^ g + w % 2 ^ g

/-- How often a bank number stands in a list. -/
def countNat (n : Nat) : List Nat → Nat
  | [] => 0
  | x :: t => (if x = n then 1 else 0) + countNat n t

/-- The cycles by which the words of an access collide in one bank: one less than the most words of one bank (R267). -/
def bankDelay (banks : List Nat) : Nat := (upto 0 32).foldl (fun m b => max m (countNat b banks)) 1 - 1

/-- The 16-byte words that `n` bytes from `o` touch. -/
def wordsOf (o n : Nat) : List Nat := if n = 0 then [] else (upto (o / 16) ((o + n - 1) / 16 - o / 16 + 1)).map (· * 16)

/-! ### The die caches' B lines (R257, R316, R325) -/

/-- Byte `i` of a line. -/
def BLine.byte (l : BLine) (i : Nat) : Byte := BitVec.ofNat 8 (l.data.toNat / 2 ^ (8 * i))

/-- A number with the byte at index `i` replaced. -/
def numSetByte (n i : Nat) (b : Byte) : Nat :=
  n - n / 2 ^ (8 * i) % 256 * 2 ^ (8 * i) + b.toNat * 2 ^ (8 * i)

/-- The byte of a B page that die `d` sees: of its cache's line a dirty byte, and any byte once the line is filled; else
memory's (R316, R333). -/
def State.rdB (s : State) (d pa : Nat) : Byte :=
  match (s.die d).blines.find? (pa / 128) with
  | some l => if l.here || l.dirty.getLsbD (pa % 128) then l.byte (pa % 128) else s.mem.rd pa
  | none => s.mem.rd pa

/-- A load fills a B line into die `d`'s cache: the bytes that are not dirty there come from memory (R316, R333). -/
def State.fillB (s : State) (d line : Nat) : State :=
  match (s.die d).blines.find? line with
  | some l =>
    if l.here then s
    else
      let l : BLine := { l with data := BitVec.ofNat 1024 (ofBytesLE ((upto 0 128).map (fun i => s.rdB d (line * 128 + i)))), here := true }
      s.modDie d (fun x => { x with blines := x.blines.put line l })
  | none =>
    let l : BLine := { data := BitVec.ofNat 1024 (s.mem.num (line * 128) 128), dirty := 0 }
    s.modDie d (fun x => { x with blines := x.blines.put line l })

/-- Store a byte of a B page in die `d`'s cache, under its byte mask, without a fill (R316, R333). -/
def State.wrB (s : State) (d : Nat) (pa : Nat) (b : Byte) : State :=
  s.modDie d (fun x =>
    let l := (x.blines.find? (pa / 128)).getD { data := 0, dirty := 0, here := false }
    let l : BLine := { l with
      data := BitVec.ofNat 1024 (numSetByte l.data.toNat (pa % 128) b), dirty := l.dirty ||| BitVec.ofNat 128 (2 ^ (pa % 128)) }
    { x with blines := x.blines.put (pa / 128) l })

/-- A load's C, K or L lines are present in their home die's cache from then on (R333). -/
def State.fillC (s : State) (lines : List Nat) : State :=
  lines.foldl (fun (s : State) (l : Nat) =>
    s.modDie (homeDie (l * 128)) (fun x => if x.lines.contains l then x else { x with lines := l :: x.lines })) s

/-- Write memory: the bytes reach the home, clear the poison of a page-table line they touch (R263), and correct an
uncorrectable word they overwrite. -/
def State.wrMem (s : State) (pa : Nat) (bs : List Byte) : State :=
  let hit (x sz : Nat) : Bool := decide (x * sz < pa + bs.length ∧ pa < (x + 1) * sz)
  { s with
    mem := s.mem.wrN pa bs
    unc := s.unc.filter (fun w => !hit w 8)
    dies := s.dies.map (fun d => { d with poison := d.poison.filter (fun l => !hit l 64) }) }

/-- Write the dirty bytes of a line back to memory; a filled line stays, clean (R316). -/
def State.writeBack (s : State) (d line : Nat) : State :=
  match (s.die d).blines.find? line with
  | none => s
  | some l =>
    let dirty := (upto 0 128).filter (fun i => l.dirty.getLsbD i)
    let s := dirty.foldl (fun s i => s.wrMem (line * 128 + i) [l.byte i]) s
    s.modDie d (fun x => { x with blines := if l.here then x.blines.upd line (fun l => { l with dirty := 0 }) else x.blines.erase line })

/-- The lines of a die cache that meet a condition. -/
def State.blinesOf (s : State) (d : Nat) (f : Nat → Bool) : List Nat :=
  ((s.die d).blines.filter (fun (n, _) => f n)).map Prod.fst

/-- Write back, and where asked invalidate, the lines of a die cache that meet a condition. -/
def State.flushB (s : State) (d : Nat) (drop : Bool) (f : Nat → Bool) : State :=
  (s.blinesOf d f).foldl (fun s l =>
    let s := s.writeBack d l
    if drop then s.modDie d (fun x => { x with blines := x.blines.erase l }) else s) s

/-- The 64 KiB instruction cache of a core holds the bundle at a physical address, as the latest (R14). -/
def State.cacheCode (s : State) (c : Nat) (pa : Option Nat) : State :=
  match pa with
  | some a => s.modCore c (fun w => { w with icache := (a :: w.icache.filter (fun x => decide (x ≠ a))).take 2048 })
  | none => s

/-! ### Deliveries (R40, R41, R167) -/

/-- A delivery lands: the value, its status, the register full and no longer pending (R40, R41). A number that names
neither an s, a v nor a b register takes nothing. -/
def Ctx.deliver (x : Ctx) (n : Nat) (v : Val) (st : Status) : Ctx :=
  let w : Word := match v with | .sc a => a | .vec a => BitVec.ofNat 64 (a.toNat % 2 ^ 64)
  let vv : VReg := match v with | .sc a => spread a | .vec a => a
  if n < 0x40 then { x with s := rset x.s n { v := w, full := true, pend := false, tag := st } }
  else if n < 0x60 then { x with v := rset x.v (n - 0x40) { v := vv, full := true, pend := false } }
  else if n < 0x70 then { x with b := rset x.b (n - 0x60) { v := w, full := true, pend := false, tag := st } }
  else x

/-- Whether the user side waits for the answer of operation `id`. -/
def User.waits (u : User) (id : Nat) : Bool :=
  u.asks.any (fun a => decide (a.id = id)) || u.xfers.any (fun x => decide (x.op = id))
    || u.cpwaits.any (fun x => decide (x.op = id)) || u.mops.any (fun m => decide (m.id = id))
    || u.porters.any (fun p => decide (p.token.map Prod.snd = some id) || p.sigs.any (fun g => decide (g.2 = id)))

/-- The core whose user side waits for operation `id`. -/
def State.coreWaiting (s : State) (id : Nat) : Option Nat :=
  (List.find? (fun (_, w) => w.usr.waits id) s.cores).map Prod.fst

/-- Change the user side that waits for operation `id`, on its core or in its saved image. -/
def State.modWaiting (s : State) (id : Nat) (f : User → User) : State :=
  let g (u : User) : User := if u.waits id then f u else u
  let gi (i : Image) : Image := { i with usr := g i.usr }
  { s with
    cores := s.cores.map (fun (n, w) => (n, { w with usr := g w.usr, biv := w.biv.map gi }))
    launches := s.launches.map (fun (n, l) => (n, { l with saved := l.saved.map gi })) }

/-- A value on its way to a register of core `c`. -/
def State.send (s : State) (c : Nat) (d : Deliv) : State :=
  if d.lan then s.modLan c (fun l => { l with delivs := l.delivs ++ [d] })
  else s.modUsr c (fun u => { u with delivs := u.delivs ++ [d] })

/-- Deliver at the end of this cycle (`Deliver` of R6). -/
def State.deliverNow (s : State) (c : Nat) (lan : Bool) (id reg : Nat) (v : Word) (st : Status) : State :=
  s.send c { id := id, reg := reg, val := .sc v, tag := st, due := s.cyc, lan := lan }

/-- An agent answers operation `id` of a user context: the ask ends, and the value lands at the end of this cycle on
the core, or at once in the saved image of a task that is off its core (R167). -/
def State.answer (s : State) (id : Nat) (reg : Nat) (v : Word) (st : Status) : State :=
  let drop (u : User) : User := { u with asks := u.asks.filter (fun a => decide (a.id ≠ id)) }
  match s.coreWaiting id with
  | some c =>
    (s.modUsr c drop).send c { id := id, reg := reg, val := .sc v, tag := st, due := s.cyc }
  | none => s.modWaiting id (fun u => drop { u with ctx := u.ctx.deliver reg (.sc v) st })

/-- An agent answers an operation of the lantern context. -/
def State.answerLan (s : State) (c id reg : Nat) (v : Word) (st : Status) : State :=
  (s.modLan c (fun l => { l with asks := l.asks.filter (fun a => decide (a.id ≠ id)) })).send c
    { id := id, reg := reg, val := .sc v, tag := st, due := s.cyc, lan := true }

end Sys2Proof.Machine
end

