-- ==== Sys2Proof/Machine/Operands.lean ====
section
/-! DEFINITION. The operands of a move: sources, destinations, ports and conversions (R28 to R38, R44, R45), and the
header's fields (R26). -/
namespace Sys2Proof

/-! ### The header (R26) -/

def hdrFld (b : Bundle) (lo w : Nat) : Nat := fld b.hdr.toNat lo w
def Bundle.limm (b : Bundle) (k : Nat) : Bool := decide (k < 8) && b.hdr.getLsbD k
def Bundle.arv (b : Bundle) (k : Nat) : Bool := decide (k < 8) && b.hdr.getLsbD (8 + k)
def Bundle.arvAny (b : Bundle) : Bool := decide (hdrFld b 8 8 ≠ 0)
def Bundle.arb (b : Bundle) : Nat := hdrFld b 16 4
def Bundle.shs (b : Bundle) : Bool := b.hdr.getLsbD 20
def Bundle.shv (b : Bundle) : Bool := b.hdr.getLsbD 21
def Bundle.seg (b : Bundle) : Bool := b.hdr.getLsbD 22
def Bundle.rdv (b : Bundle) : Bool := b.hdr.getLsbD 23
def Bundle.idle (b : Bundle) : Nat := hdrFld b 24 4
def Bundle.np (b : Bundle) : Bool := b.hdr.getLsbD 28
/-- The word of slot `k`. -/
def Bundle.word (b : Bundle) (k : Nat) : BitVec 24 := nth 0 b.slots k
/-- Whether slot `k` is a shadow (R45). -/
def Bundle.shadow (b : Bundle) (k : Nat) : Bool := (b.shs && decide (k = 1)) || (b.shv && decide (k = 4))

end Sys2Proof

namespace Sys2Proof.Machine

/-! ### Moves (R28) -/

/-- A move of a bundle: its slot, its word, and whether it is a shadow. -/
structure Mv where
  k : Nat
  w : BitVec 24
  shadow : Bool := false
  deriving DecidableEq, Repr

def Mv.guard (m : Mv) : Nat := fld m.w.toNat 21 3
def Mv.e (m : Mv) : Bool := m.w.getLsbD 20
def Mv.srcN (m : Mv) : Nat := fld m.w.toNat 10 10
def Mv.dstN (m : Mv) : Nat := fld m.w.toNat 0 10
def Mv.empty (m : Mv) : Bool := decide (m.w = 0)

/-- What a source names (R30, R35, R41). -/
inductive Src where
  | reg (n : Nat)
  | port (u p : Nat)
  | imm (v : Word)
  | long
  | pc
  | npc
  | ones
  | st (n : Nat)
  | reserved
  deriving DecidableEq, Repr

/-- The source of SRC (R30). -/
def srcOf (n : Nat) : Src :=
  let p := n % 256
  match n / 256 % 4 with
  | 0 => .reg p
  | 1 => .port (p / 32) (p % 32)
  | 2 => .imm ((BitVec.ofNat 8 p).signExtend 64)
  | _ =>
    if 128 ≤ p then .long
    else if 64 ≤ p then .st (p - 64)
    else match p with
      | 0 => .pc
      | 1 => .npc
      | 2 => .ones
      | _ => .reserved

/-- What a destination names (R31). -/
inductive Dst where
  | reg (n : Nat)
  | port (u p : Nat)
  | trig (o : Op)
  | discard
  | busdrive
  | busland
  | reserved
  deriving DecidableEq, Repr

/-- The destination of DST (R31). -/
def dstOf (n : Nat) : Dst :=
  let q := n % 256
  match n / 256 % 4 with
  | 0 => .reg q
  | 1 => .port (q / 32) (q % 32)
  | 2 => .trig (Op.ofCode q)
  | _ => match q with
    | 0 => .discard
    | 1 => .busdrive
    | 2 => .busland
    | _ => .reserved

def Mv.src (m : Mv) : Src := srcOf m.srcN
def Mv.dst (m : Mv) : Dst := dstOf m.dstN

/-- Whether a register number may be read (R33, R34). -/
def regReadable (n : Nat) : Bool := decide (n ≤ 0x92)
/-- Whether a register number may be written: not p0, of the special registers only fpc, fps and seed (R33, R34). -/
def regWritable (n : Nat) : Bool :=
  (decide (n < 0x80) && decide (n ≠ 0x70)) || decide (n = 0x8F) || decide (n = 0x90) || decide (n = 0x92)
/-- Whether a register number names a vector register. -/
def isVReg (n : Nat) : Bool := decide (0x40 ≤ n) && decide (n < 0x60)

/-- The result ports of R37. -/
def resultPort (u p : Nat) : Bool :=
  match u with
  | 0 | 1 => decide (p ≤ 1)
  | 3 | 4 | 5 => decide (p = 0)
  | 6 => decide (p = 2)
  | _ => false

/-- The operand ports of R37. -/
def operandPort (u p : Nat) : Bool :=
  match u with
  | 0 | 1 => decide (p ≤ 1)
  | 2 => decide (p ≤ 3) || decide (p = 5)
  | 3 | 4 => decide (p ≤ 2) || decide (p = 4)
  | 5 => decide (p ≤ 2) || decide (p = 6)
  | 6 => decide (p ≤ 3)
  | 7 => decide (p ≤ 1) || decide (p = 3)
  | _ => false

/-- Whether a source gives a vector value (R36). -/
def Src.vector : Src → Bool
  | .reg n => isVReg n
  | .port u _ => decide (u = 3 ∨ u = 4 ∨ u = 6)
  | _ => false

/-- Whether a destination takes a vector value (R36). A trigger's operand goes to port `a` of the slot's unit. -/
def Dst.takesVector (k : Nat) : Dst → Bool
  | .reg n => isVReg n
  | .port u p => ((decide (u = 3) || decide (u = 4)) && decide (p ≤ 1)) || (decide (u = 2) && decide (p = 1))
  | .trig _ => decide (k = 3 ∨ k = 4)
  | .discard => true
  | .busdrive => true
  | _ => false

/-- ILLEGAL_PORT as far as a move's word decides it (R31, R33, R35 to R37, R302). -/
def Mv.illegalPort (m : Mv) : Bool :=
  let badSrc := match m.src with
    | .reg n => !regReadable n
    | .port u p => !resultPort u p
    | .reserved => true
    | _ => false
  let badDst := match m.dst with
    | .reg n => !regWritable n
    | .port u p => !operandPort u p
    | .busdrive => !m.src.vector
    | .reserved => true
    | _ => false
  !m.empty && (badSrc || badDst || (m.src.vector && !m.dst.takesVector m.k))

end Sys2Proof.Machine

namespace Sys2Proof
open Machine

/-- The moves of a bundle, in slot order: the slots that are not surrendered. -/
def Bundle.moves (b : Bundle) : List Mv :=
  ((upto 0 8).filter (fun k => !b.limm k)).map (fun k => { k := k, w := b.word k, shadow := b.shadow k })

/-! ### Long immediates (R32) -/

/-- The value of a long immediate whose move stands in slot `k`. -/
def Bundle.longImm (b : Bundle) (k : Nat) : Word :=
  let p := fld (b.word k).toNat 10 7
  let w1 := (b.word (k + 1)).toNat
  if b.limm (k + 2) then (BitVec.ofNat 55 (p + 2 ^ 7 * w1 + 2 ^ 31 * (b.word (k + 2)).toNat)).signExtend 64
  else (BitVec.ofNat 31 (p + 2 ^ 7 * w1)).signExtend 64

/-- Whether the move of slot `k` has a long-immediate source. -/
def Bundle.longSrc (b : Bundle) (k : Nat) : Bool :=
  !b.limm k && decide (srcOf (fld (b.word k).toNat 10 10) = .long)

/-- The conditions of R32 broken at slot `k`. -/
def Bundle.badLimm (b : Bundle) (k : Nat) : Bool :=
  (b.longSrc k && !b.limm (k + 1)) || (!b.limm k && !b.longSrc k && b.limm (k + 1))
    || (b.limm k && b.limm (k + 1) && b.limm (k + 2))

end Sys2Proof

namespace Sys2Proof.Machine

/-! ### Ports -/

/-- The ports of a unit. -/
def Ctx.unit (x : Ctx) (u : Nat) : UPorts := rget {} x.u u

/-- The scalar a value gives: a vector's first two lanes (R275). -/
def Val.word : Val → Word
  | .sc v => v
  | .vec v => BitVec.ofNat 64 (v.toNat % 2 ^ 64)

/-- The vector a value gives: a scalar's low 32 bits in every lane (R36). -/
def Val.vreg : Val → VReg
  | .sc v => spread v
  | .vec v => v

/-- Write operand port `p` of unit `u`, converted under R36: `a` and `b` of a vector unit hold vectors, `ls.b` keeps
what was written, every other port a scalar. -/
def UPorts.write (x : UPorts) (u p : Nat) (v : Val) : UPorts :=
  let w := if u = 3 ∨ u = 4 then Val.vec v.vreg else if u = 2 then v else .sc v.word
  match p with
  | 0 => { x with a := if u = 2 then .sc v.word else w }
  | 1 => { x with b := w }
  | 2 => { x with c := v.word }
  | 3 => { x with d := v.word }
  | 4 => { x with m := v.word }
  | 5 => { x with h := v.word }
  | _ => { x with g := v.word }

def Ctx.setUnit (x : Ctx) (u : Nat) (p : UPorts) : Ctx := { x with u := rset x.u u p }
def Ctx.writePort (x : Ctx) (u p : Nat) (v : Val) : Ctx := x.setUnit u ((x.unit u).write u p v)

/-- Write result port 0 (`x`) or 1 (`y`). -/
def Ctx.setResult (x : Ctx) (u p : Nat) (v : Val) : Ctx :=
  x.setUnit u (if p = 0 then { x.unit u with x := v } else { x.unit u with y := v })

/-- The value of a result port; the bus latch has its 64 bytes in lanes 0 to 15 (R38). -/
def Ctx.resultVal (x : Ctx) (u p : Nat) : Val :=
  if u = 6 then .vec (x.latch.setWidth 2048)
  else if u = 3 ∨ u = 4 then .vec ((x.unit u).x.vreg)
  else if p = 0 then (x.unit u).x else (x.unit u).y

/-! ### Registers -/

/-- The scalar cell of an s or b register. -/
def Ctx.sreg (x : Ctx) (n : Nat) : SReg := if n < 0x40 then rget {} x.s n else rget {} x.b (n - 0x60)
def Ctx.setSReg (x : Ctx) (n : Nat) (r : SReg) : Ctx :=
  if n < 0x40 then { x with s := rset x.s n r } else { x with b := rset x.b (n - 0x60) r }
def Ctx.vreg (x : Ctx) (n : Nat) : VCell := rget {} x.v (n - 0x40)
def Ctx.setVReg (x : Ctx) (n : Nat) (r : VCell) : Ctx := { x with v := rset x.v (n - 0x40) r }

/-- Whether a register number names an s or b register. -/
def isSReg (n : Nat) : Bool := decide (n < 0x40) || (decide (0x60 ≤ n) && decide (n < 0x70))

/-- Whether a register is full; registers without a full bit always are (R33, R40). -/
def Ctx.full (x : Ctx) (n : Nat) : Bool :=
  if isSReg n then (x.sreg n).full else if isVReg n then (x.vreg n).full else true

/-- Whether a register is pending (R40). -/
def Ctx.pending (x : Ctx) (n : Nat) : Bool :=
  if isSReg n then (x.sreg n).pend else if isVReg n then (x.vreg n).pend else false

/-- Predicate `k`: p0 reads true (R33). -/
def Ctx.pred (x : Ctx) (k : Nat) : Bool := decide (k = 0) || x.p.getLsbD k

/-- Mask register qk. -/
def Ctx.q? (x : Ctx) (k : Nat) : Word := rget 0 x.q k

/-- Write `fpc`: its fields are IDZ, TNV to TNX and RM (R65). -/
def fpcMask (v : Word) : Word := v &&& 0x7E3
/-- Write `fps`: its fields are the seven flags (R65). -/
def fpsMask (v : Word) : Word := v &&& 0x7F

/-- The bit of predicate `k`. -/
def predBit (k : Nat) : BitVec 8 := BitVec.ofNat 8 (2 ^ k)

/-- A move writes a register: full, status OK, the value converted under R36. -/
def Ctx.writeReg (x : Ctx) (n : Nat) (v : Val) : Ctx :=
  if isSReg n then x.setSReg n { x.sreg n with v := v.word, full := true, tag := stOK }
  else if isVReg n then x.setVReg n { x.vreg n with v := v.vreg, full := true }
  else if n < 0x78 then
    if n = 0x70 then x else { x with p := if v.word.getLsbD 0 then x.p ||| predBit (n - 0x70) else x.p &&& ~~~(predBit (n - 0x70)) }
  else if n < 0x80 then { x with q := rset x.q (n - 0x78) v.word }
  else if n = 0x8F then { x with fpc := fpcMask v.word }
  else if n = 0x90 then { x with fps := fpsMask v.word }
  else if n = 0x92 then { x with seed := v.word }
  else x

/-- A trigger names a delivery register: empty and pending (R40). -/
def Ctx.mark (x : Ctx) (n : Nat) : Ctx :=
  if isSReg n then x.setSReg n { x.sreg n with full := false, pend := true }
  else if isVReg n then x.setVReg n { x.vreg n with full := false, pend := true }
  else x

/-! ### Matrix windows (R166, R235) -/

/-- The window that package cycle `t` lies in: whether it is the even core's, and the cycles elapsed in it. -/
def windowAt (len t : Nat) : Bool × Nat := (decide (t % 128 / len % 2 = 0), t % len)

/-- Whether a team has started on a core and has not left it. -/
def User.teamed (u : User) : Bool := match u.task with | some t => t.st != .pending && t.st != .placed | none => false

/-- The array of a core's pair with the window length and mode in force (R166): those of the team most recently started or
resumed on the even core, or, where that has no team, those of the odd core's. -/
def State.windows (s : State) (c : Nat) : Pair :=
  let p := s.pair (pairOf c)
  let even := c - c % 2
  match s.launchOf? (even + 1) with
  | some l => if !(s.usr even).teamed && (s.usr (even + 1)).teamed then { p with len := l.winLen, solo := l.solo } else p
  | none => p

/-- Whether the window of the present cycle belongs to a core. -/
def State.ownsWindow (s : State) (c : Nat) : Bool :=
  let p := s.windows c
  let even := decide (cx c % 2 = 0)
  if p.solo then even else (windowAt p.len s.cyc).1 == even

/-- Whether the array works for a core (R235). -/
def State.arrayBusy (s : State) (c : Nat) : Bool :=
  (match (s.pair (pairOf c)).run with | some r => decide (r.core = c) | none => false) || (s.usr c).mseq.isSome

/-- The special register `mxwin` (R235). -/
def State.mxwin (s : State) (c : Nat) : Word :=
  if (s.launchOf? c).isNone then 0
  else
    let p := s.windows c
    BitVec.ofNat 64 ((windowAt p.len s.cyc).2 + 2 ^ 8 * p.len + (if s.arrayBusy c then 2 ^ 16 else 0)
      + (if s.ownsWindow c then 2 ^ 17 else 0) + (if p.solo then 2 ^ 18 else 0))

/-! ### Special registers (R34) -/

/-- The partition a core's cluster belongs to, or 0. -/
def State.partOf (s : State) (c : Nat) : Nat := ((s.cluster (clusterOf c)).cur).getD 0

/-- A special register as a context of core `c` reads it. The launch's registers read 0 on a core without a task
(log 6). -/
def State.special (s : State) (c : Nat) (x : Ctx) (n : Nat) : Word :=
  let w (k : Nat) : Word := BitVec.ofNat 64 k
  let t := s.task? c
  let l := s.launchOf? c
  let ofT (f : Task → Nat) : Word := w ((t.map f).getD 0)
  let ofL (f : Launch → Nat) : Word := w ((l.map f).getD 0)
  match n with
  | 0x81 => w (cx c)
  | 0x82 => w (cy c)
  | 0x83 => ofT Task.tx
  | 0x84 => ofT Task.ty
  | 0x85 => ofL Launch.gx
  | 0x86 => ofL Launch.gy
  | 0x87 => ofL Launch.W
  | 0x88 => ofL Launch.H
  | 0x89 => ofT Task.team
  | 0x8A => ofL Launch.lid
  | 0x8B => ofL Launch.cid
  | 0x8C => w ((l.map Launch.part).getD (s.partOf c))
  | 0x8D => x.sched
  | 0x8E => w s.cyc
  | 0x8F => x.fpc
  | 0x90 => x.fps
  | 0x91 => s.mxwin c
  | 0x92 => x.seed
  | _ => 0

/-- The value of a register. -/
def State.regVal (s : State) (c : Nat) (x : Ctx) (n : Nat) : Val :=
  if isVReg n then .vec (x.vreg n).v
  else if n < 0x70 then .sc (x.sreg n).v
  else if n < 0x78 then .sc (if x.pred (n - 0x70) then 1 else 0)
  else if n < 0x80 then .sc (x.q? (n - 0x78))
  else .sc (s.special c x n)

/-- The value of a source at the start of the cycle (R24, R30). -/
def State.srcVal (s : State) (c : Nat) (x : Ctx) (b : Bundle) (m : Mv) : Val :=
  match m.src with
  | .reg n => s.regVal c x n
  | .port u p => x.resultVal u p
  | .imm v => .sc v
  | .long => .sc (b.longImm m.k)
  | .pc => .sc x.pc
  | .npc => .sc (x.pc + 32)
  | .ones => .sc (BitVec.allOnes 64)
  | .st n => .sc ((x.sreg n).tag.setWidth 64)
  | .reserved => .sc 0

/-- The register whose full bit a source observes (R40, R41). -/
def Src.watched : Src → Option Nat
  | .reg n => if n < 0x70 then some n else none
  | .st n => some n
  | _ => none

end Sys2Proof.Machine
end

