-- ==== Sys2Proof/Machine/RegionOps.lean ====
section
/-! DEFINITION. The directories of atomic regions, and every write to and read of global memory with them (chapter "The
atomic region", R362 to R371). A slot is known by die · 256 + INDEX; a region whose home is another package by its
handle, which is larger. -/
namespace Sys2Proof.Machine

/-! ### Handles (R362, R363) -/

def handlePkg (h : Word) : Nat := fld h.toNat 58 6
def handleDie (h : Word) : Nat := fld h.toNat 56 2
def handleIndex (h : Word) : Nat := fld h.toNat 48 8
def handleGen (h : Word) : Nat := fld h.toNat 0 40

/-- The handle of a slot (R362). -/
def mkHandle (pkg die index gen : Nat) : Word :=
  BitVec.ofNat 64 (pkg * 2 ^ 58 + die * 2 ^ 56 + index * 2 ^ 48 + gen % 2 ^ 40)

/-- Whether a handle is malformed (R376). -/
def State.badHandle (s : State) (h : Word) : Bool :=
  decide (fld h.toNat 40 8 ≠ 0) || !s.plan.joined.contains (handlePkg h)

/-- The slot that a handle names: one of this package, or that of a region of another package. -/
def State.slotKey (s : State) (h : Word) : Nat :=
  if handlePkg h = s.plan.pkg then handleDie h * 256 + handleIndex h else h.toNat

/-- The region of a handle; none if the handle is stale (R362). -/
def State.region? (s : State) (h : Word) : Option RSlot :=
  match s.rslots.find? (s.slotKey h) with
  | some r => if r.handle = h ∧ r.st ≠ .freed then some r else none
  | none => none

def State.modSlot (s : State) (k : Nat) (f : RSlot → RSlot) : State := { s with rslots := s.rslots.upd k f }

/-- The age of a region: the tuple (GEN, PKG, DIE, INDEX), as one number (R363). -/
def regionAge (h : Word) : Nat :=
  handleGen h * 2 ^ 16 + handlePkg h * 2 ^ 10 + handleDie h * 2 ^ 8 + handleIndex h

/-! ### Sets and conflicts -/

/-- Whether a region can still be aborted by a conflict: before its last vote (R370). -/
def RSlot.loose (r : RSlot) : Bool := !r.locking && (r.st == .open' || r.st == .voting)
/-- Whether a region holds its write set locked (R371). -/
def RSlot.locked (r : RSlot) : Bool := r.locking && (r.st == .voting || r.st == .committing)
/-- Whether a line lies in a set. -/
def RSlot.reads (r : RSlot) (line : Nat) : Bool := r.rset.contains line
def RSlot.writes (r : RSlot) (line : Nat) : Bool := r.wset.contains line

/-- The slots whose region meets a condition. -/
def State.slotsWith (s : State) (f : RSlot → Bool) : List Nat := (s.rslots.filter (fun (_, r) => f r)).map Prod.fst

/-- The 128-byte lines that `n` bytes from `pa` touch. -/
def linesOf (pa n : Nat) : List Nat := if n = 0 then [] else upto (pa / 128) ((pa + n - 1) / 128 - pa / 128 + 1)

/-- A region's entries are discarded, with its tentative bytes. -/
def RSlot.discard (r : RSlot) : RSlot := { r with rset := [], wset := [], tent := [] }

/-- An abort before the last vote: ABORTING with its cause, the entries discarded (R369, R370). The step
REGION_ENTRIES_DISCARDED then sends the outcomes. -/
def State.abortRegion (s : State) (k cause : Nat) : State :=
  match s.rslots.find? k with
  | some r =>
    if r.loose then
      (s.modSlot k (fun r => { r.discard with st := .aborting, cause := cause })).soon [.event (.regionEntriesDiscarded k)]
    else s
  | none => s

/-- Abort the region of a handle, unless the handle is stale. -/
def State.abortHandle (s : State) (h : Word) (cause : Nat) : State :=
  match s.region? h with
  | some _ => s.abortRegion (s.slotKey h) cause
  | none => s

/-- The slot in which this package's directories hold a region: of a region whose home is another package it is made at
the first access (R365). -/
def State.meetRegion (s : State) (h : Word) : State :=
  if handlePkg h ≠ s.plan.pkg ∧ (s.rslots.find? h.toNat).isNone then
    { s with rslots := s.rslots.put h.toNat { handle := h, gen := handleGen h } }
  else s

/-- The tentative bytes of a region reach memory: the bytes are written at one point of the fabric order (R328, R371). -/
def State.writeTentative (s : State) (k : Nat) : State :=
  match s.rslots.find? k with
  | some r => (r.tent.foldl (fun s (pa, b) => s.wrMem pa [b]) s).modSlot k (fun r => { r with tent := [], wset := [], rset := [], locking := false, st := .committed })
  | none => s

/-- An access that finds a line locked waits until the line is unlocked (R371); no time is fixed for that, and here
the commit that holds the lock is brought to its end before the access goes on (log 12). -/
def State.unlockLines (s : State) (lines : List Nat) : State :=
  (s.slotsWith (fun r => r.locked && lines.any r.writes)).foldl (fun s k =>
    (s.writeTentative k).soon [.event (.regionLinesWritten k)]) s

/-- A write by an agent that is no member: regions that hold a line of it abort (R370). -/
def State.conflictStore (s : State) (lines : List Nat) : State :=
  (s.slotsWith (fun r => r.loose && lines.any (fun l => r.reads l || r.writes l))).foldl
    (fun s k => s.abortRegion k 0x1E) s

/-- Harts lose the reservations that they hold on lines (log 96). -/
def State.loseResv (s : State) (f : Nat → Bool) : State :=
  { s with harts := s.harts.map (fun ((h, x) : Nat × Hart) => (h, if x.resv.any f then { x with resv := none } else x)) }

/-- A plain write to memory by any agent (R370, R371). -/
def State.storeMem (s : State) (pa : Nat) (bs : List Byte) : State :=
  let ls := linesOf pa bs.length
  (((s.unlockLines ls).conflictStore ls).wrMem pa bs).loseResv ls.contains

/-! ### Region accesses (R365 to R367, R370) -/

/-- What a region access of region `k` does at a line's directory before it is performed: locked lines are unlocked,
of two regions in conflict the younger aborts. The answer says whether the access goes on. -/
def State.conflictRegion (s : State) (k line : Nat) (store : Bool) : Bool × State :=
  let s := s.unlockLines [line]
  match s.rslots.find? k with
  | none => (false, s)
  | some me =>
    if !me.loose then (false, s)
    else
      let foes := s.slotsWith (fun r => r.loose && decide (r.handle ≠ me.handle)
        && (r.writes line || (store && r.reads line)))
      let older := foes.any (fun f => match s.rslots.find? f with
        | some r => decide (regionAge r.handle < regionAge me.handle)
        | none => false)
      if older then (false, s.abortRegion k 0x1E)
      else (true, foes.foldl (fun s f => s.abortRegion f 0x1E) s)

/-- Add a line to a set, at most 32,768 lines (R365). -/
def addLine (l : List Nat) (line : Nat) : Option (List Nat) :=
  if l.contains line then some l else if l.length < 32768 then some (line :: l) else none

/-- A region access reaches the directories of its lines: each is added to its set, or the region aborts. The answer
says whether the access is performed. -/
def State.regionLines (s : State) (k : Nat) (store : Bool) : List Nat → Bool × State
  | [] => (true, s)
  | line :: t =>
    match s.conflictRegion k line store with
    | (false, s) => (false, s)
    | (true, s) =>
      match s.rslots.find? k with
      | none => (false, s)
      | some r =>
        match addLine (if store then r.wset else r.rset) line with
        | none => (false, s.abortRegion k 0x1F)
        | some l =>
          (s.modSlot k (fun r => if store then { r with wset := l } else { r with rset := l })).regionLines k store t

/-- Put tentative bytes (R366: the order in which they reach the directory). -/
def tentPut (t : Tab Byte) (pa : Nat) : List Byte → Tab Byte
  | [] => t
  | b :: bs => tentPut (t.put pa b) (pa + 1) bs

/-- The byte a member's region load sees (R366). -/
def State.regionByte (s : State) (k pa : Nat) : Byte :=
  match s.rslots.find? k with
  | some r => (r.tent.find? pa).getD (s.mem.rd pa)
  | none => s.mem.rd pa

end Sys2Proof.Machine
end

