-- ==== Sys2Proof/Machine/Walk.lean ====
section
/-! DEFINITION. Translation (R256 to R259, R262, R263), the address checks of R255, the ownership of regions (R260,
R261) and the slot tables (R164), as an access finds them. -/
namespace Sys2Proof.Machine

/-! ### Causes (R436) -/

def cILLEGAL_OPCODE : Nat := 0x01
def cILLEGAL_SLOT : Nat := 0x02
def cILLEGAL_BUNDLE : Nat := 0x03
def cILLEGAL_PORT : Nat := 0x04
def cEMPTY_SOURCE : Nat := 0x05
def cPRIVILEGED : Nat := 0x06
def cMISALIGNED : Nat := 0x07
def cPAGE_ABSENT : Nat := 0x08
def cPAGE_PROTECTION : Nat := 0x09
def cOWNERSHIP_TIMEOUT : Nat := 0x0A
def cPTE_UNCORRECTABLE : Nat := 0x0B
def cADDRESS_RANGE : Nat := 0x0C
def cSCRATCH_RANGE : Nat := 0x0D
def cREMOTE_SCRATCH_DENIED : Nat := 0x0E
def cCOUNTER_PAGE_MISUSE : Nat := 0x0F
def cTID_INVALID : Nat := 0x10
def cTID_GEOMETRY : Nat := 0x11
def cMATRIX_WINDOW : Nat := 0x12
def cMATRIX_BUSY : Nat := 0x13
def cGATHER_INDEX : Nat := 0x14
def cCODEBOOK_INVALID : Nat := 0x15
def cCOPY_DESCRIPTOR : Nat := 0x16
def cCOPY_FAULT : Nat := 0x17
def cTOKEN_BUSY : Nat := 0x18
def cBUS_SLOT_CONFLICT : Nat := 0x19
def cBARRIER_OVERRUN : Nat := 0x1A
def cBARRIER_TIMEOUT : Nat := 0x1B
def cCOUNTER_TIMEOUT : Nat := 0x1C
def cATOMIC_SPACE : Nat := 0x1D
def cREGION_ABORT : Nat := 0x1E
def cREGION_CAPACITY : Nat := 0x1F
def cREGION_STATE : Nat := 0x20
def cESTIMATE_STATE : Nat := 0x21
def cSYS_RING_FULL : Nat := 0x22
def cDEQUE_OVERFLOW : Nat := 0x23
def cLOOP_RECORD_INVALID : Nat := 0x24
def cCALL_DEPTH : Nat := 0x25
def cINT_DIVIDE : Nat := 0x26
def cFP_EXCEPTION : Nat := 0x27
def cSDC_MISMATCH : Nat := 0x28
def cUNCORRECTABLE_CONSUMED : Nat := 0x29
def cSEGMENT_OVERFLOW : Nat := 0x2A
def cSEGMENT_DROPPED : Nat := 0x2B
def cRENDEZVOUS_TIMEOUT : Nat := 0x2C
def cMESSAGE_UNDELIVERABLE : Nat := 0x2D
def cQUIET_TIMEOUT : Nat := 0x2E
def cREDUCTION_WINDOW : Nat := 0x2F
def cSTREAM_BADPKT : Nat := 0x30
def cSTREAM_FETCH_FAULT : Nat := 0x31
def cSTREAM_IB_DEPTH : Nat := 0x32
def cSLOT_TABLE_VIOLATION : Nat := 0x33
def cPARTITION_RESET : Nat := 0x34
def cKILLED : Nat := 0x35
def cDEBUG_STEP : Nat := 0x36
def cBREAKPOINT : Nat := 0x37
def cWATCHPOINT : Nat := 0x38
def cKEY_HANDLE_INVALID : Nat := 0x39
def cCRYPTO_AUTH_FAIL : Nat := 0x3A
def cSHARE_VIOLATION : Nat := 0x3B
def cFIRMWARE_ASSIST : Nat := 0x3C
def cUSER_TRAP : Nat := 0x3D
def cWATCHDOG : Nat := 0x3E
def cFATAL : Nat := 0x3F

/-- Whether a cause is a failure of R432, which a trap does not commit the segment for (R429). -/
def isFailure (cause : Nat) : Bool := cause == cSDC_MISMATCH || cause == cUNCORRECTABLE_CONSUMED

/-- Whether R259 classes a translation cause as resolvable. -/
def resolvable (cause : Nat) : Bool := cause == cPAGE_ABSENT || cause == cOWNERSHIP_TIMEOUT || cause == cPTE_UNCORRECTABLE

/-! ### The page walk -/

/-- What a walk finds: a translation, a cause, and the poisoned line if the cause is PTE_UNCORRECTABLE. -/
inductive WalkRes where
  | ok (e : TlbEnt)
  | fault (cause : Nat) (line : Nat := 0)
  deriving DecidableEq, Repr

/-- Whether a walk may read the 64-byte page-table line: not poisoned on the die (if one walks), no uncorrectable word
in it (R263). -/
def State.lineOk (s : State) (die : Option Nat) (line : Nat) : Bool :=
  !(match die with | some d => (s.die d).poison.contains line | none => false) && !s.unc.any (fun w => w / 8 == line)

/-- The leaf of a walk (R256 to R259): `lvl` its level, `n` the entry, `hub` whether the agent accepts 4 KiB leaves. -/
def leafOf (asid va lvl n : Nat) (hub store : Bool) : WalkRes :=
  let bit (k : Nat) : Bool := decide (n / 2 ^ k % 2 = 1)
  let ppn := n / 2 ^ 10 % 2 ^ 44
  let napot := bit 63
  let size := if lvl = 0 then (if napot then 2 ^ 16 else 2 ^ 12) else 2 ^ (12 + 9 * lvl)
  let shape := match lvl with
    | 0 => if napot then decide (ppn % 16 = 8) else hub
    | 1 => !napot && decide (ppn % 2 ^ 9 = 0)
    | 2 => !napot && decide (ppn % 2 ^ 18 = 0)
    | _ => false
  let pa := if lvl = 0 ∧ napot then ppn / 16 * 2 ^ 16 else ppn * 2 ^ 12
  let base := pa / size * size
  if !shape || decide (n / 2 ^ 54 % 2 ^ 7 ≠ 0) || !bit 4 || (!bit 1 && bit 2) || (store && !bit 2) || (!store && !bit 1)
      || !inHbm (base + va % size) then .fault cPAGE_PROTECTION
  else if !bit 6 || (store && !bit 7) then .fault cPAGE_ABSENT
  else .ok { va := va / size * size, size := size, asid := asid, glob := bit 5, pa := base
             attr := match n / 2 ^ 8 % 4 with | 0 => .C | 1 => .B | 2 => .K | _ => .L
             rd := bit 1, wr := bit 2, user := bit 4, dirty := bit 7 }

/-- A page-table entry as a walker of a die reads it: from the die's walk cache if that holds the line (R262), else from
memory, as the hub's walks do. -/
def State.ptNum (s : State) (die : Option Nat) (pa : Nat) : Nat :=
  match die.bind (fun d => (s.die d).wlines.find? (fun (l : Nat × Nat) => decide (l.1 = pa / 64))) with
  | some (_, n) => n / 2 ^ (8 * (pa % 64)) % 2 ^ 64
  | none => s.mem.num pa 8

/-- One entry of a walk at level `lvl`, in the table at physical address `tab`: the walk's end, or the next table
(R256, R259, R263). -/
def State.entry (s : State) (die : Option Nat) (asid va : Nat) (hub store : Bool) (lvl tab : Nat) : WalkRes ⊕ Nat :=
  let pa := tab + va / 2 ^ (12 + 9 * lvl) % 2 ^ 9 * 8
  if !inHbm pa then .inl (.fault cPAGE_PROTECTION)
  else if !s.lineOk die (pa / 64) then .inl (.fault cPTE_UNCORRECTABLE (pa / 64))
  else
    let n := s.ptNum die pa
    let bit (k : Nat) : Bool := decide (n / 2 ^ k % 2 = 1)
    if !bit 0 then .inl (.fault cPAGE_ABSENT)
    else if bit 1 || bit 2 || bit 3 then .inl (leafOf asid va lvl n hub store)
    else if bit 63 || bit 6 || bit 7 || bit 4 || decide (n / 2 ^ 54 % 2 ^ 7 ≠ 0) then .inl (.fault cPAGE_PROTECTION)
    else .inr (n / 2 ^ 10 % 2 ^ 44 * 2 ^ 12)

/-- The walk from a level down; a pointer entry at level 0 faults (R259). -/
def State.walkFrom (s : State) (die : Option Nat) (asid va : Nat) (hub store : Bool) : Nat → Nat → WalkRes
  | 0, tab =>
    match s.entry die asid va hub store 0 tab with
    | .inl r => r
    | .inr _ => .fault cPAGE_PROTECTION
  | l + 1, tab =>
    match s.entry die asid va hub store (l + 1) tab with
    | .inl r => r
    | .inr t => s.walkFrom die asid va hub store l t

/-- The mode of an ATP, its ASID and its root (R75: the `satp` layout of RV64). -/
def atpMode (a : Word) : Nat := fld a.toNat 60 4
def atpAsid (a : Word) : Nat := fld a.toNat 44 16
def atpRoot (a : Word) : Nat := fld a.toNat 0 44 * 2 ^ 12

/-- A walk of the page tables that ATP names; a mode other than Sv57 (code 10) traps PAGE_PROTECTION (R256). -/
def State.walk (s : State) (die : Option Nat) (atp : Word) (va : Nat) (hub store : Bool) : WalkRes :=
  if atpMode atp ≠ 10 then .fault cPAGE_PROTECTION
  else s.walkFrom die (atpAsid atp) va hub store 4 (atpRoot atp)

/-- The page-table lines that a die's walk reads, from level `lvl` down (R262). -/
def State.walkLines (s : State) (die : Option Nat) (asid va : Nat) : Nat → Nat → List Nat
  | 0, tab => [(tab + va / 2 ^ 12 % 2 ^ 9 * 8) / 64]
  | l + 1, tab =>
    (tab + va / 2 ^ (12 + 9 * (l + 1)) % 2 ^ 9 * 8) / 64 ::
      (match s.entry die asid va false false (l + 1) tab with
        | .inl _ => []
        | .inr t => s.walkLines die asid va l t)

/-- A die's walk leaves the lines that it read in the walk cache of 1,024 lines, which drops its oldest (R262, log 10). -/
def State.cacheWalk (s : State) (d : Nat) (atp : Word) (va : Nat) : State :=
  if atpMode atp ≠ 10 then s
  else (s.walkLines (some d) (atpAsid atp) va 4 (atpRoot atp)).foldl (fun (s : State) (l : Nat) =>
    if (s.die d).wlines.any (fun (x : Nat × Nat) => decide (x.1 = l)) || !inHbm (l * 64) then s
    else s.modDie d (fun x => { x with wlines := (if 1024 ≤ x.wlines.length then x.wlines.drop 1 else x.wlines) ++ [(l, s.mem.num (l * 64) 64)] })) s

/-- The physical address of a virtual one. -/
def TlbEnt.phys (e : TlbEnt) (va : Nat) : Nat := e.pa + (va - e.va)

/-- Whether a held translation serves an address for an access: its page may reach past the end of an HBM stack, and
those addresses it does not serve (R258). -/
def TlbEnt.serves (e : TlbEnt) (asid va : Nat) (store : Bool) : Bool :=
  decide (e.va ≤ va ∧ va < e.va + e.size) && (e.glob || decide (e.asid = asid)) && e.user
    && (if store then e.wr && e.dirty else e.rd) && inHbm (e.phys va)

/-- The leaves of a table that a range of virtual addresses meets, as (first virtual address, physical address, size):
`lvl` the table's level, `base` the first virtual address that it maps, `i` the index from which on it is read. -/
def State.leavesIn (s : State) (lo hi : Nat) : Nat → Nat → Nat → List (Nat × Nat × Nat)
  | lvl, tab, base =>
    let span := 2 ^ (12 + 9 * lvl)
    let first := (lo - base) / span
    let last := min 511 ((hi - 1 - base) / span)
    (upto first (last + 1 - first)).flatMap (fun (i : Nat) =>
      let n := s.mem.num (tab + 8 * i) 8
      let bit (k : Nat) : Bool := decide (n / 2 ^ k % 2 = 1)
      let ppn := n / 2 ^ 10 % 2 ^ 44
      let va := base + i * span
      if !bit 0 then []
      else if bit 1 || bit 2 || bit 3 then
        (if bit 63 then [(va / 2 ^ 16 * 2 ^ 16, ppn / 16 * 2 ^ 16, 2 ^ 16)] else [(va, ppn * 2 ^ 12, span)])
      else match lvl with
        | 0 => []
        | l + 1 => s.leavesIn lo hi l (ppn * 2 ^ 12) va)

/-- Whether a physical line lies in a range of virtual addresses under a root of the page tables. -/
def inLeaves (lo hi line : Nat) (ls : List (Nat × Nat × Nat)) : Bool :=
  ls.any (fun ((va, pa, n) : Nat × Nat × Nat) =>
    decide (pa / 128 ≤ line ∧ line * 128 < pa + n) && (let v := va + (line * 128 - pa); decide (lo < v + 128 ∧ v < hi)))

/-- The ranges of the binding table whose counter is at virtual address `k` (R281, R323). -/
def boundRanges (binds : List Bind) (k : Nat) : List (Nat × Nat) :=
  (binds.filter (fun (b : Bind) => decide (b.slog ≠ 0 ∧ b.counter = k))).map (fun (b : Bind) => (b.base, b.base + 2 ^ b.slog))

/-- The write-back of a bound release, and with `drop` the invalidation of a bound acquire, on die `d` for the counter
at virtual address `k` of a continuation: of every line of its ranges, whichever core reached it (R323, R324). -/
def State.flushBound (s : State) (d block k : Nat) (drop : Bool) : State :=
  match s.conts.find? block with
  | none => s
  | some q => (boundRanges q.binds k).foldl (fun (s : State) ((lo, hi) : Nat × Nat) =>
      if (s.die d).blines.isEmpty then s
      else
        let ls := s.leavesIn lo hi 4 (atpRoot q.atp) 0
        s.flushB d drop (fun (n : Nat) => inLeaves lo hi n ls)) s
def findTlb (l : List TlbEnt) (asid va : Nat) (store : Bool) : Option TlbEnt := l.find? (fun e => e.serves asid va store)

/-- The translation of an agent of the hub: it walks afresh (R256, R260). -/
def State.hubPhys (s : State) (atp : Word) (va : Nat) (store : Bool) : Nat ⊕ Nat :=
  match s.walk none atp va true store with
  | .ok e => .inl (e.phys va)
  | .fault c _ => .inr c

/-! ### What an access of a core finds -/

/-- The answer to a check: go on, trap with a cause and an address, wait (frozen) and be considered afresh. -/
inductive Chk where
  | ok
  | trap (cause : Nat) (addr : Word)
  | wait
  deriving DecidableEq, Repr

/-- The first answer that is not `ok`. -/
def Chk.or : Chk → Chk → Chk
  | .ok, x => x
  | x, _ => x

/-- A check that traps when its condition holds. -/
def trapIf (b : Bool) (cause : Nat) (addr : Word := 0) : Chk := if b then .trap cause addr else .ok

/-- Whether member core `m` runs a task of the same team as core `c` (R255). -/
def State.sameTeam (s : State) (c m : Nat) : Bool :=
  match s.task? c, s.task? m with
  | some a, some b => decide (a.launch = b.launch ∧ a.team = b.team) && !b.st.over'
  | _, _ => false

/-- Whether `n` bytes from `o` lie in one shared allocation of a core (R266). -/
def State.inShared (s : State) (c o n : Nat) : Bool := (s.usr c).allocs.any (fun a => a.shared && a.covers o n)

/-- R255 for an access of `n` bytes; a barrier operation may write through the cluster space, and the issuing core's own
allocation must be shared too (R342). -/
def State.addrCheck (s : State) (c : Nat) (space : Nat) (a : Word) (n : Nat) (store : Bool) (barrier : Bool := false) : Chk :=
  let v := a.toNat
  match space with
  | 0 => trapIf (decide (v / 2 ^ 56 ≠ 0)) cADDRESS_RANGE a
  | 1 => trapIf (decide (v / 2 ^ 20 ≠ 0 ∨ v % 2 ^ 20 + n > spadTop)) cSCRATCH_RANGE a
  | _ =>
    let m := memberCore (clusterOf c) (v / 2 ^ 20 % 32)
    (trapIf (decide (v / 2 ^ 25 ≠ 0 ∨ v % 2 ^ 20 + n > spadTop)) cSCRATCH_RANGE a).or
      ((trapIf (store && !barrier) cREMOTE_SCRATCH_DENIED a).or
        (trapIf ((barrier || decide (m ≠ c)) && !(s.sameTeam c m && s.inShared m (v % 2 ^ 20) n)) cREMOTE_SCRATCH_DENIED a))

/-- The ATP a core's task translates through. -/
def State.atpOf (s : State) (c : Nat) : Word := ((s.contOf? c).map Cont.atp).getD 0

/-- The translation of an address of core `c`'s task: from the core's TLB, or one that settled for the bundle that waits
and has already made room there for another of its pages (R262). -/
def State.coreTlb (s : State) (c va : Nat) (store : Bool) : Option TlbEnt :=
  findTlb ((s.core c).tlb ++ (s.core c).settled) (atpAsid (s.atpOf c)) va store

/-- Whether the region of a physical address is the accelerator's (R260). -/
def State.owned (s : State) (pa : Nat) : Bool := (s.region pa).st == .accel

/-- Translation and ownership of an address, as a bundle finds them: settled, at fault, or to be waited for (R262). -/
def State.settle (s : State) (c va : Nat) (store : Bool) : Chk :=
  let open' : Chk := match (s.core c).walkFault with
    | some (cause, a) => if a.toNat = va then .trap cause a else .wait
    | none => .wait
  match s.coreTlb c va store with
  | none => open'
  | some e => if s.owned (e.phys va) then .ok else open'

/-- What a waiting bundle asks for: a walk, or the transfer of the region it needs (R261, R262). -/
def State.ask (s : State) (c va : Nat) (store : Bool) : State :=
  let a := BitVec.ofNat 64 va
  let s := s.modCore c (fun w => { w with walkFault := none, waitFrom := some ((w.waitFrom.map Prod.fst).getD s.cyc, a) })
  match s.coreTlb c va store with
  | none => s.modCore c (fun w => { w with walk := some (a, store) })
  | some e =>
    let r := e.phys va / 2 ^ 21
    if s.owned (e.phys va) then s
    else { s with regions := s.regions.put r { (s.regions.getD r {}) with wantA := true } }

/-! ### Slot tables (R164) -/

/-- The owner of a cell; a cell the table does not list is FREE. -/
def State.cellOwner (s : State) (d row lane : Nat) : Nat := ((s.die d).cells.find? (row * 64 + lane)).getD 0x1F

/-- The lane of a core (R164). -/
def laneOfCore (c : Nat) : Nat := cx c % 8 + 8 * (cy c % 8)

/-- Whether some cell of lane `l` of die `d`'s table can accept a request of partition `p` (R164). -/
def State.laneOk (s : State) (d l p : Nat) (free : Bool) : Bool :=
  (upto 0 256).any (fun row => decide (s.cellOwner d row l = p) || (free && decide (s.cellOwner d row l = 0x1F)))

/-- SLOT_TABLE_VIOLATION for a request of core `c` that die `d` serves (R164). -/
def State.slotCheck (s : State) (c d : Nat) (a : Word) : Chk :=
  match s.launchOf? c with
  | some l => trapIf (!s.laneOk d (laneOfCore c) l.part l.free) cSLOT_TABLE_VIOLATION a
  | none => .ok

/-- The die that performs an access to a location (R164, R271). -/
def servingDie (c : Nat) (attr : Attr) (pa : Nat) : Nat := if attr = .B then dieOf c else homeDie pa

/-- The dies of an access's requests, each of at most 128 bytes, in order (R164). -/
def reqDies (c : Nat) (attr : Attr) (p : Piece) : List Nat :=
  (upto 0 ((p.len + 127) / 128)).map (fun i => servingDie c attr (p.pa + 128 * i))

end Sys2Proof.Machine
end

