-- ==== Sys2Proof/Machine/Atomic.lean ====
section
/-! DEFINITION. What atomics, counters and barriers compute (chapter "Counters, barriers and atomics"), as plain
functions of the words they read. -/
namespace Sys2Proof.Machine

/-- A word of `w` bytes as a signed number. -/
def sgn (w n : Nat) : Int := if 2 * n < 2 ^ (8 * w) then n else (n : Int) - 2 ^ (8 * w)

/-- AMO's operation AOP on words of `w` bytes (R344). -/
def amoNew (aop w old b : Nat) : Nat :=
  match aop with
  | 0 => (old + b) % 2 ^ (8 * w)
  | 1 => Nat.land old b
  | 2 => Nat.lor old b
  | 3 => Nat.xor old b
  | 4 => if sgn w b < sgn w old then b else old
  | 5 => if sgn w old < sgn w b then b else old
  | 6 => min old b
  | 7 => max old b
  | _ => b

/-- What a read-modify-write does: the word it writes, if any, the value and the status it delivers. -/
structure Rmw where
  new : Option Nat
  val : Nat
  st : Status
  deriving DecidableEq, Repr

/-- AMO (R349). -/
def amoRes (aop w old b : Nat) : Rmw := ⟨some (amoNew aop w old b), old, stOK⟩
/-- CAS (R350): `e` is the value read from the delivery register at issue. -/
def casRes (old e b : Nat) : Rmw := if old = e then ⟨some b, old, stOK⟩ else ⟨none, old, stFAIL⟩
/-- QINCB (R351). -/
def qincbRes (old b : Nat) : Rmw := if old < b then ⟨some (old + 1), old, stOK⟩ else ⟨none, old, stFULL⟩
/-- QINCW (R351). -/
def qincwRes (old b : Nat) : Rmw := if b = 0 then ⟨none, old, stERROR⟩ else ⟨some ((old + 1) % b), old, stOK⟩
/-- QDECP (R351). -/
def qdecpRes (old : Nat) : Rmw := if old = 0 then ⟨none, 0, stEMPTY⟩ else ⟨some (old - 1), old, stOK⟩
/-- QADDL (R351): `lim` is the word after the one at a. -/
def qaddlRes (old b lim : Nat) : Rmw := if old + b ≤ lim then ⟨some (old + b), old, stOK⟩ else ⟨none, old, stFAIL⟩

/-- An atomic with its words cut to `w` bytes. -/
def rmwRes (op : Op) (aop w old b e lim : Nat) : Rmw :=
  let b := b % 2 ^ (8 * w)
  match op with
  | .amo => amoRes aop w old b
  | .cas => casRes old (e % 2 ^ (8 * w)) b
  | .qincb => qincbRes old b
  | .qincw => qincwRes old b
  | .qdecp => qdecpRes old
  | .qaddl => qaddlRes old b lim
  | _ => ⟨none, old, stERROR⟩

/-- An add to a counter: the new value and the status (R335, R352). -/
def ctrAdd (old b : Nat) : Nat × Status := if old + b > 2 ^ 64 - 1 then (2 ^ 64 - 1, stOVERFLOW) else (old + b, stOK)

/-! ### Barriers (R340, R341) -/

/-- Word 1 of a barrier. -/
def barN (w1 : Nat) : Nat := w1 % 2 ^ 16
def barOvr (w1 : Nat) : Nat := w1 / 2 ^ 20 % 2 ^ 12
def barTov (w1 : Nat) : Bool := decide (w1 / 2 ^ 32 % 2 = 1)
def barScope (w1 : Nat) : Nat := w1 / 2 ^ 40 % 2 ^ 8
/-- The reserved bits of word 1. -/
def barReserved (w1 : Nat) : Bool :=
  decide (w1 / 2 ^ 48 % 2 ^ 16 ≠ 0 ∨ w1 / 2 ^ 33 % 2 ^ 7 ≠ 0 ∨ w1 / 2 ^ 16 % 2 ^ 4 ≠ 0)
/-- The state INVALID (R341). -/
def barInvalid (w1 : Nat) : Bool := decide (barN w1 = 0 ∨ barScope w1 > 5) || barReserved w1
/-- The phase (R341). -/
def barPhase (count w1 : Nat) : Nat := count / barN w1 % 16
/-- Word 1 with another OVR. -/
def barSetOvr (w1 ovr : Nat) : Nat := w1 - barOvr w1 * 2 ^ 20 + ovr * 2 ^ 20

/-- The image check of BARINIT (R355). -/
def barinitBad (b : Nat) : Bool :=
  decide (b % 2 ^ 16 = 0 ∨ b / 2 ^ 40 % 2 ^ 8 > 5 ∨ b / 2 ^ 48 ≠ 0 ∨ b / 2 ^ 33 % 2 ^ 7 ≠ 0 ∨ b / 2 ^ 16 % 2 ^ 4 ≠ 0)

/-- The word 1 that BARINIT leaves: b with OVR 0 (R355). -/
def barinitWord (b : Nat) : Nat := barSetOvr b 0

/-- What an arrival of `b` does: the new words, the value and status delivered, and whether it traps
BARRIER_OVERRUN (R341, R356). -/
structure BarRes where
  count : Nat
  w1 : Nat
  st : Status
  overrun : Bool := false
  accepted : Bool := false
  deriving DecidableEq, Repr

def barArrive (count w1 b : Nat) : BarRes :=
  if barInvalid w1 then ⟨count, w1, stERROR, false, false⟩
  else if b > barN w1 - count % barN w1 then
    ⟨count, barSetOvr w1 (min (barOvr w1 + 1) 4095), stOVERRUN, barTov w1, false⟩
  else if count + b > 2 ^ 64 - 1 then ⟨count, w1, stOVERFLOW, false, false⟩
  else ⟨count + b, w1, stOK, false, true⟩

/-- The phase distance of BARW (R357). -/
def barDelta (count w1 ph : Nat) : Nat := (barPhase count w1 + 16 - ph % 16) % 16

/-- Whether a BARW of phase `ph` is met at once (R357). -/
def barMet (count w1 ph : Nat) : Bool := decide (1 ≤ barDelta count w1 ph ∧ barDelta count w1 ph ≤ 8)

/-- D of R338 for a location and a waiting core. -/
def wakeDelay (core : Nat) (p : Place) (pa : Nat) : Nat :=
  match p with
  | .glob _ => match dieHops (dieOf core) (homeDie pa) with | 0 => 6 | 1 => 38 | _ => 46
  | .spad c => if c = core then 1 else 4

end Sys2Proof.Machine
end

