-- ==== Sys2Proof/Machine/Access.lean ====
section
/-! DEFINITION. How an access of a core's `ls` unit is accepted, performed and delivered (R164, R271, R272, R314 to
R325, R337 to R342, R364 to R367), and how a parked wait ends. -/
namespace Sys2Proof.Machine

/-! ### The control word (R253) -/

def ctlSpace (c : Word) : Nat := fld c.toNat 0 2
def ctlOrd (c : Word) : Nat := fld c.toNat 2 2
def ctlScope (c : Word) : Nat := fld c.toNat 4 3
def ctlW32 (c : Word) : Bool := c.getLsbD 7
def ctlReg (c : Word) : Bool := c.getLsbD 8
def ctlAop (c : Word) : Nat := fld c.toNat 12 4

/-! ### Kinds of accesses -/

def Op.isStore (o : Op) : Bool := match o with | .stB | .stH | .stW | .stD | .vst | .vscat => true | _ => false
def Op.isLoad (o : Op) : Bool :=
  match o with | .ldB | .ldH | .ldW | .ldD | .ldsB | .ldsH | .ldsW | .vld | .vgath | .ldr => true | _ => false
def Op.isAtomic (o : Op) : Bool := match o with | .amo | .cas | .qincb | .qincw | .qdecp | .qaddl => true | _ => false
def Op.isBarrier (o : Op) : Bool := match o with | .barinit | .barv | .barw => true | _ => false

/-- Whether an access holds every later access of its core until it is performed (R320). -/
def MemOp.holdsLater (m : MemOp) : Bool :=
  decide (ctlOrd m.ctl % 2 = 1) && (m.op.isLoad || m.op.isAtomic || m.op == .ctrrd)

/-- Whether two places hold the same bytes under one address. -/
def samePlace : Place → Place → Bool
  | .spad i, .spad j => decide (i = j)
  | .glob _, .glob _ => true
  | _, _ => false

/-- Where a piece of an access lies. -/
def MemOp.placeOf (m : MemOp) (p : Piece) : Place := p.place.getD m.place

/-- Whether two accesses touch a common byte. -/
def MemOp.overlaps (a b : MemOp) : Bool :=
  a.pieces.any (fun p => b.pieces.any (fun q =>
    samePlace (a.placeOf p) (b.placeOf q) && decide (p.pa < q.pa + q.len ∧ q.pa < p.pa + p.len)))

/-- Whether two region accesses touch a common 128-byte line: they reach its directory in program order (R367). -/
def MemOp.sharesLine (a b : MemOp) : Bool :=
  a.handle.isSome && b.handle.isSome && a.pieces.any (fun p => b.pieces.any (fun q =>
    decide (p.pa / 128 * 128 < q.pa + q.len ∧ q.pa / 128 * 128 < p.pa + p.len)))

/-- Whether an access lies in a scratchpad: such accesses are performed in issue order (R314, R331). -/
def MemOp.local' (m : MemOp) : Bool := match m.place with | .spad _ => true | _ => false

/-- Whether an earlier access `e` of the core, not yet performed, keeps a later one `m` from being performed, whatever
their order bits. A plain load passes an earlier store to its own bytes: a plain store's value it sees (R272), a region
store's it does not (R366). -/
def MemOp.before (e m : MemOp) : Bool :=
  (e.local' && m.local') || e.sharesLine m || (e.overlaps m && !(e.op.isStore && m.op.isLoad && m.handle.isNone))

/-- Whether an access that is on its way is all the same done at scope `sc`: at core scope a global store is, from its
issue on (R314). -/
def MemOp.doneAt (m : MemOp) (sc : Nat) : Bool := decide (sc = 0) && m.op.isStore && m.handle.isNone && !m.local'

/-- The class bits of a FENCE, loads in bit 0 and stores in bit 1, that an access falls under (R279). -/
def MemOp.inClass (m : MemOp) (cls : Nat) : Bool :=
  (decide (cls % 2 = 1) && !m.op.isStore) || (decide (cls / 2 % 2 = 1) && !m.op.isLoad)

def fenceScope (m : MemOp) : Nat := fld m.va.toNat 0 3
def fencePred (m : MemOp) : Nat := fld m.va.toNat 4 2
def fenceSucc (m : MemOp) : Nat := fld m.va.toNat 8 2

/-- The accesses of one side of a core that are on their way, and its FENCEs. -/
def State.mops (s : State) (c : Nat) (lan : Bool) : List MemOp := if lan then (s.core c).lan.mops else (s.usr c).mops
def State.modMops (s : State) (c : Nat) (lan : Bool) (f : List MemOp → List MemOp) : State :=
  if lan then s.modLan c (fun l => { l with mops := f l.mops }) else s.modUsr c (fun u => { u with mops := f u.mops })

/-- The accesses of a core, of both sides. -/
def State.allMops (s : State) (c : Nat) : List MemOp := (s.usr c).mops ++ (s.core c).lan.mops

/-- Whether an array operation of core `c` before number `id` has scratchpad writes still to make; they count as stores
(R279). -/
def State.arrayWrites (s : State) (c id : Nat) : Bool :=
  match (s.pair (pairOf c)).run with
  | some r => decide (r.core = c ∧ r.id < id) && !r.bytes.isEmpty
  | none => false

/-- The class bits of a fabric operation: all count as stores, RAMO as a load as well (R329). -/
def fabricClass (ramo : Bool) : Nat := if ramo then 3 else 2

/-- Whether a fabric operation of core `c` before number `id`, in a class of `cls`, is not yet performed at fabric scope:
it is to be accepted, or its message is on its way (R329). -/
def State.fabricPending (s : State) (c id cls : Nat) : Bool :=
  (s.usr c).asks.any (fun (q : Ask) => decide (q.id < id)
      && (q.op == .msg || q.op == .rwr || q.op == .ramo || q.op == .rred) && decide (Nat.land cls (fabricClass (q.op == .ramo)) ≠ 0))
    || (s.fab.msgs ++ s.fab.ports.flatMap (fun ((_, p) : Nat × Stolpin) => p.replay)).any (fun (m : Msg) =>
      decide (m.src = s.plan.pkg ∧ m.key = s.plan.pkg * 2 ^ 11 + c ∧ m.op < id)
        && decide (Nat.land cls (fabricClass (match m.kind with | .ramo .. | .amoWin .. => true | _ => false)) ≠ 0))

/-- Whether something before number `id` on core `c`, in a class of `cls`, is not yet performed at scope `sc`: an access
of either side, an array operation's writes, a fabric operation (R313, R319, R321, R329). -/
def State.undone (s : State) (c id cls sc : Nat) : Bool :=
  (s.allMops c).any (fun (e : MemOp) => decide (e.id < id) && e.op ≠ .fence && e.inClass cls && !e.doneAt sc)
    || (decide (cls / 2 % 2 = 1) && s.arrayWrites c id) || (decide (sc = 5) && s.fabricPending c id cls)

/-- Whether an earlier FENCE or acquire of its side keeps an access back (R320, R321). -/
def State.keptBack (s : State) (c : Nat) (m : MemOp) : Bool :=
  (s.mops c m.lan).any (fun (e : MemOp) => decide (e.id < m.id) &&
    (if e.op == .fence then m.inClass (fenceSucc e) else e.holdsLater))

/-- Whether an access cannot be sent yet: it is kept back, or it is a release and something before it is not performed at
its scope (R332). An arrival waits at its barrier instead (R341). -/
def State.heldOp (s : State) (c : Nat) (m : MemOp) : Bool :=
  m.op ≠ .fence && m.op ≠ .barv &&
    (s.keptBack c m || (decide (2 ≤ ctlOrd m.ctl) && s.undone c m.id 3 (ctlScope m.ctl)))

/-- The first word of a location, read at its home. -/
def State.wordAt (s : State) (p : Place) (pa : Nat) : Nat :=
  match p with
  | .glob _ => s.mem.num pa 8
  | .spad k => (s.spad k).num pa 8

/-- A first piece's physical address. -/
def MemOp.pa (m : MemOp) : Nat := match m.pieces with | p :: _ => p.pa | [] => 0

/-- Whether an arrival at its barrier may be performed: an accepted one is a release at the SCOPE that word 1 then
holds, a refused one releases nothing (R341). -/
def State.arrivalFree (s : State) (c : Nat) (m : MemOp) : Bool :=
  let w1 := s.wordAt m.place (m.pa + 8)
  !s.keptBack c m
    && (!(barArrive (s.wordAt m.place m.pa) w1 m.b.word.toNat).accepted || !s.undone c m.id 3 (fld w1 40 8))

/-- Whether an access may be performed now: it is not held, and nothing earlier of its core keeps it (R316, R319 to R321). -/
def State.mayPerform (s : State) (c : Nat) (m : MemOp) : Bool :=
  !m.hold && !(s.allMops c).any (fun (e : MemOp) => decide (e.id < m.id) && e.op ≠ .fence && e.before m)
    && (m.op ≠ .barv || s.arrivalFree c m)
/-! ### Times (R271) -/

/-- Package cycles from the acceptance (or the sending, for a scratchpad) of a stretch at a place to its performance and
to the delivery. LDR, VGATH and VSCAT have no fixed time; here they take that of a plain access (log 9). -/
def placeTimes (c : Nat) (o : Op) (place : Place) (pa : Nat) : Nat × Nat :=
  match place with
  | .glob .B => (5, 11)
  | .glob _ =>
    match dieHops (dieOf c) (homeDie pa) with
    | 0 => (5, 11)
    | 1 => (37, 75)
    | _ => (45, 91)
  | .spad k => if o == .ldr then (3, 7) else if k = c then (0, if o == .vld || o == .vgath then 2 else 1) else (3, 7)

/-- The times of an access: the latest of its pieces'; of one without an active lane, those of an access that goes
nowhere (log 9). -/
def accessTimes (c : Nat) (m : MemOp) : Nat × Nat :=
  match m.pieces with
  | [] => (0, 1)
  | p :: ps => ps.foldl (fun (t : Nat × Nat) (q : Piece) =>
      let x := placeTimes c m.op (m.placeOf q) q.pa
      if t.2 < x.2 then x else t) (placeTimes c m.op (m.placeOf p) p.pa)

/-- The cycle at whose end an access is performed at the earliest: one that is held has none, one that sends no request has
its issue cycle. -/
def MemOp.due (c : Nat) (m : MemOp) : Option Nat :=
  if m.hold then none
  else match m.place with
    | .spad _ => some (m.issue + m.late + (accessTimes c m).1)
    | .glob _ =>
      if !m.reqs.isEmpty then none
      else match m.acc with
        | some a => some (a + (accessTimes c m).1)
        | none => if m.pieces.isEmpty then some (m.issue + m.late) else none

/-- The cycle at whose end the value of an access performed in cycle `t` lands; words of one bank delay it (R267). -/
def MemOp.lands (c : Nat) (m : MemOp) (t : Nat) : Nat := t + ((accessTimes c m).2 - (accessTimes c m).1) + m.extra

/-! ### Bytes of an access -/

/-- The bytes of a value, first lane first. -/
def Val.bytes : Val → List Byte
  | .sc v => toBytesLE 8 v.toNat
  | .vec v => toBytesLE 256 v.toNat

/-- The stretch of a value that a piece carries. -/
def Piece.data (p : Piece) (v : List Byte) : List Byte := (v.drop p.off).take p.len

/-- The byte an access would store at an address of a place: of two pieces the later stands (R277). -/
def MemOp.byteAt (m : MemOp) (at' : Place) (pa : Nat) : Option Byte :=
  (m.pieces.filter (fun p => samePlace (m.placeOf p) at' && decide (p.pa ≤ pa ∧ pa < p.pa + p.len))).getLast?.map
    (fun p => nth 0 m.b.bytes (p.off + (pa - p.pa)))

/-- A byte of a place, as core `c`'s die sees it. -/
def State.rdPlace (s : State) (c : Nat) (p : Place) (pa : Nat) : Byte :=
  match p with
  | .glob .B => s.rdB (dieOf c) pa
  | .glob _ => s.mem.rd pa
  | .spad k => (s.spad k).rd pa

/-- Store bytes at a place for core `c`. -/
def State.wrPlace (s : State) (c : Nat) (p : Place) (pa : Nat) (bs : List Byte) : State :=
  match p with
  | .glob .B => ((upto 0 bs.length).foldl (fun s i => s.wrB (dieOf c) (pa + i) (nth 0 bs i)) s)
  | .glob _ => s.storeMem pa bs
  | .spad k => s.modSpad k (fun m => m.wrN pa bs)

/-- The newest of the core's own earlier stores, not yet performed, to a byte (R272, R426): a region access sees those of
its own region too, a plain one only plain ones (R364, R366). -/
def ownByte (ms : List MemOp) (id : Nat) (h : Option Word) (p : Place) (pa : Nat) : Option Byte :=
  (ms.foldl (fun (r : Option (Nat × Byte)) e =>
    if e.op.isStore && decide (e.id < id) && (e.handle.isNone || decide (e.handle = h)) then
      match e.byteAt p pa with
      | some b => if (match r with | some (n, _) => decide (e.id < n) | none => false) then r else some (e.id, b)
      | none => r
    else r) none).map Prod.snd

/-- The stores of a core that only its own loads see: those on their way, of both sides (R315), and those that its open
segment holds (R426). -/
def State.ownStores (s : State) (c : Nat) : List MemOp := s.allMops c ++ (s.usr c).seg.buf

/-- The byte at an address of a place that access `m` reads. -/
def State.seen (s : State) (c : Nat) (m : MemOp) (p : Place) (pa : Nat) : Byte :=
  match ownByte (s.ownStores c) m.id m.handle p pa with
  | some b => b
  | none =>
    match m.handle with
    | some h => s.regionByte (s.slotKey h) pa
    | none => s.rdPlace c p pa

/-- The bytes of a load, those that no piece covers zero (R277). -/
def State.loadBytes (s : State) (c : Nat) (m : MemOp) (n : Nat) : List Byte :=
  (upto 0 n).map (fun i =>
    match m.pieces.find? (fun p => decide (p.off ≤ i ∧ i < p.off + p.len)) with
    | some p => s.seen c m (m.placeOf p) (p.pa + (i - p.off))
    | none => 0)

/-- Bytes of a scalar load's member, and whether it extends the sign (R274). -/
def loadForm : Op → Nat × Bool
  | .ldB => (1, false)
  | .ldH => (2, false)
  | .ldW => (4, false)
  | .ldsB => (1, true)
  | .ldsH => (2, true)
  | .ldsW => (4, true)
  | _ => (8, false)

/-- The value that a load delivers (R274, R276 to R278). -/
def loadVal (o : Op) (vec : Bool) (bs : List Byte) : Val :=
  let n := ofBytesLE bs
  if vec then .vec (BitVec.ofNat 2048 n)
  else
    let (w, sx) := loadForm o
    if sx && decide (2 ^ (8 * w - 1) ≤ n) then .sc (BitVec.ofInt 64 ((n : Int) - 2 ^ (8 * w))) else .sc (BitVec.ofNat 64 n)

/-! ### Parked waits (R337 to R339) -/

/-- The park table of a location: that of the home die's memory port, or of the core that holds the scratchpad. -/
def State.parkTable (s : State) : Place → Nat → List Park
  | .glob _, pa => (s.die (homeDie pa)).park
  | .spad k, _ => (s.core k).park

def State.modParkTable (s : State) (p : Place) (pa : Nat) (f : List Park → List Park) : State :=
  match p with
  | .glob _ => s.modDie (homeDie pa) (fun d => { d with park := f d.park })
  | .spad k => s.modCore k (fun w => { w with park := f w.park })

/-- Put a word at its home. -/
def State.putWord (s : State) (p : Place) (pa v : Nat) : State :=
  match p with
  | .glob _ => s.storeMem pa (toBytesLE 8 v)
  | .spad k => s.modSpad k (fun m => m.wrN pa (toBytesLE 8 v))

/-- Whether a parked wait is met by what its location holds. -/
def State.parkHolds (s : State) (w : Park) : Bool :=
  let v := s.wordAt w.place w.pa
  match w.kind with
  | .ctr th => decide (th ≤ v)
  | .bar ph => let w1 := s.wordAt w.place (w.pa + 8); !barInvalid w1 && decide (barDelta v w1 ph = 1)

/-- Whether a parked wait is met: now, or at a phase change of this cycle (R338, R341). -/
def State.parkMet (s : State) (w : Park) : Bool := w.met.isSome || s.parkHolds w

/-- The write-back of a bound release, and with `drop` the invalidation of a bound acquire, of core `c`'s task for the
counter at virtual address `k` (R323, R324). -/
def State.flushFor (s : State) (c k : Nat) (drop : Bool) : State :=
  match s.launchOf? c with
  | some l => s.flushBound (dieOf c) l.block k drop
  | none => s

/-- End a parked wait: its value lands at the end of cycle `due`, with what a status OK makes it, an acquire
(R320, R324, R339). -/
def State.endPark (s : State) (w : Park) (v : Nat) (st : Status) (due : Nat) : State :=
  let s := s.modParkTable w.place w.pa (fun t => t.filter (fun x => decide (x.id ≠ w.id)))
  let bound := (match w.kind with | .ctr _ => true | .bar _ => false) && decide (ctlOrd w.ctl % 2 = 1 ∧ 3 ≤ ctlScope w.ctl)
  let s := if st = stOK ∧ bound then s.flushFor w.core w.va.toNat true else s
  let trap : Option Nat :=
    if st = stTIMEOUT ∧ w.tbit then some (match w.kind with | .ctr _ => cCOUNTER_TIMEOUT | .bar _ => cBARRIER_TIMEOUT) else none
  s.send w.core { id := w.id, reg := w.reg, val := .sc (BitVec.ofNat 64 v), tag := st, due := due, lan := w.lan, trap := trap, slot := 2, pc := w.pc }

/-- A location was added to in this cycle: its waits are checked at the cycle's end (R338). -/
def State.touch (s : State) (p : Place) (pa : Nat) : State :=
  if s.touched.contains (p, pa) then s else { s with touched := s.touched ++ [(p, pa)] }

/-- The completed phases of the barrier at a place. -/
def State.phasesDone (s : State) (p : Place) (pa : Nat) : Nat := s.wordAt p pa / (s.wordAt p (pa + 8) % 2 ^ 16)

/-- What orders woken waits (R338): a counter's threshold, the completed phase count that ended a BARW. -/
def State.wakeKey (s : State) (w : Park) : Nat :=
  match w.kind with
  | .ctr th => th
  | .bar _ => w.met.getD (s.phasesDone w.place w.pa)

/-- Insert a wait by ascending key, ties in park order (R338). -/
def wakeInsert (key : Park → Nat) (w : Park) : List Park → List Park
  | [] => [w]
  | x :: t => if key w < key x then w :: x :: t else x :: wakeInsert key w t

/-- The woken waits, the i-th of them (from 1) landing at the end of cycle q + D + i − 1 (R338). -/
def State.sendWoken (s : State) (i : Nat) : List Park → State
  | [] => s
  | w :: t => (s.endPark w (s.wordAt w.place w.pa) stOK (s.cyc + wakeDelay w.core w.place w.pa + i)).sendWoken (i + 1) t

/-- At the end of a cycle, the waits parked on the locations added to (R338). -/
def State.wake (s : State) : State :=
  let s' := { s with touched := [] }
  s.touched.foldl (fun s (p, pa) =>
    let ws := (s.parkTable p pa).filter (fun w => decide (w.pa = pa) && samePlace w.place p && s.parkMet w)
    s.sendWoken 0 (ws.foldl (fun l w => wakeInsert s.wakeKey w l) [])) s'

/-- A phase of a barrier turns: the waits whose phase difference is now 1 are met, whatever the barrier does afterwards in
this cycle (R338, R341). -/
def State.phaseTurn (s : State) (p : Place) (pa : Nat) : State :=
  let n := s.phasesDone p pa
  s.modParkTable p pa (fun t => t.map (fun (w : Park) =>
    if decide (w.pa = pa) && samePlace w.place p && w.met.isNone && s.parkHolds w then { w with met := some n } else w))

/-- The size of a park table (R337). -/
def parkSize : Place → Nat
  | .glob _ => 1024
  | .spad _ => 64

/-- A wait is to end with this cycle in this way, if nothing stronger ends it (R339). -/
def Park.end' (w : Park) (e : ParkEnd) : Park :=
  if (match w.ending with | some x => decide (x.rank < e.rank) | none => false) then w else { w with ending := some e }

/-- The first wait of a table that keeps its entry leaves it. -/
def evictFirst : List Park → List Park
  | [] => []
  | w :: t => if w.ending = some .evicted then w :: evictFirst t else w.end' .evicted :: t

/-- Whether a wait that parks now is one of a user context that has been stopped meanwhile (R339). -/
def State.parksLate (s : State) (w : Park) : Bool :=
  !w.lan && ((match (s.core w.core).stop with | some p => p.reached | none => false)
    || (match s.task? w.core with | some t => t.st.over' || t.st == .preempted | none => true))

/-- Park a wait: a full table first gives up its earliest entry, whose wait ends EARLY (R337). -/
def State.parkWait (s : State) (w : Park) : State :=
  let w := if s.parksLate w then w.end' .stop else w
  s.modParkTable w.place w.pa (fun t =>
    (if (t.filter (fun (x : Park) => decide (x.ending ≠ some .evicted))).length < parkSize w.place then t else evictFirst t) ++ [w])

/-- Every wait of the package. -/
def State.parked (s : State) : List Park := s.dies.flatMap Die.park ++ s.cores.flatMap (fun ((_, w) : Nat × WCore) => w.park)

/-- Every wait that meets a condition is to end with this cycle (R339). -/
def State.endWaits (s : State) (e : ParkEnd) (f : Park → Bool) : State :=
  let g (t : List Park) : List Park := t.map (fun (w : Park) => if f w then w.end' e else w)
  { s with
    dies := s.dies.map (fun (d : Die) => { d with park := g d.park })
    cores := s.cores.map (fun ((n, w) : Nat × WCore) => (n, { w with park := g w.park })) }

/-- At the end of a cycle, after its wakes and limits: the waits that end otherwise deliver EARLY, with their location's
value then (R339). -/
def State.endEarly (s : State) : State :=
  (s.parked.filter (fun (w : Park) => w.ending.isSome)).foldl (fun (s : State) (w : Park) =>
    s.endPark w (s.wordAt w.place w.pa) stEARLY (s.cyc + wakeDelay w.core w.place w.pa)) s

/-- An add to a counter by any agent (R335, R336): the old value, the status, the state with its waits to be checked. -/
def State.counterAdd (s : State) (pa amount : Nat) : Nat × Status × State :=
  let old := s.wordAt (.glob .K) pa
  let (new, st) := ctrAdd old amount
  (old, st, ((s.putWord (.glob .K) pa new).touch (.glob .K) pa))

/-! ### Reduction windows (R395 to R397) -/

def rwBase (w : RWin) : Nat := fld w.w0.toNat 3 53 * 8
def rwJob (w : RWin) : Nat := fld w.w1.toNat 48 16
def rwType (w : RWin) : Nat := fld w.w1.toNat 44 2
def rwOp (w : RWin) : Nat := fld w.w1.toNat 40 2
def rwExpect (w : RWin) : Nat := fld w.w1.toNat 24 12
def rwSize (w : RWin) : Nat := fld w.w1.toNat 4 20
/-- Bytes of an element: 4 for f32, 8 for i64 and f64. -/
def rwWidth (w : RWin) : Nat := if rwType w = 1 then 4 else 8

/-- Whether a window holds a virtual address. -/
def RWin.holds (w : RWin) (va : Nat) : Bool := decide (rwBase w ≤ va ∧ va < rwBase w + rwSize w * rwWidth w)

/-- The continuation that holds a job of this package. -/
def State.holderBlock (s : State) (job : Nat) : Option Nat := (s.fab.jobs.find? job).map Job.holder

/-- The enabled window of this package that holds a virtual address of a continuation: its job is one that the
continuation holds (R395). -/
def State.windowOf (s : State) (block : Option Nat) (va : Nat) : Option (Nat × RWin) :=
  List.find? (fun ((n, w) : Nat × RWin) => w.en && w.holds va && decide (n < 64) && block.isSome && decide (s.holderBlock (rwJob w) = block)) s.fab.wins

/-- The continuation of a core's launch. -/
def State.blockOf (s : State) (c : Nat) : Option Nat := (s.launchOf? c).map Launch.block

/-- The job of a core's task, or 0. -/
def State.jobOf (s : State) (c : Nat) : Nat := ((s.launchOf? c).bind Launch.job).getD 0

/-- Whether an AMO is one that its window takes as a contribution (R397). -/
def amoFits (w : RWin) (w32 : Bool) (aop : Nat) : Bool :=
  !w32 && decide (rwType w = 0) && (match rwOp w with | 0 => decide (aop = 0) | 1 => decide (aop = 4) | _ => decide (aop = 5))

/-- One step of the merge (R396): min and max as R202, additions rounded RNE, i64 additions wrapping. -/
def rwCombine (ty op a b : Nat) : Nat :=
  match ty with
  | 0 => match op with
    | 0 => (a + b) % 2 ^ 64
    | 1 => if sgn 8 b < sgn 8 a then b else a
    | _ => if sgn 8 a < sgn 8 b then b else a
  | _ =>
    let f := if ty = 1 then fp32 else fp64
    match op with
    | 0 => (fadd f .rne a b).1
    | 1 => (fminmax f false a b).1
    | _ => (fminmax f true a b).1

/-- One level of the merge tree: an odd last value passes up. -/
def rwLevel (f : Nat → Nat → Nat) : List Nat → List Nat
  | a :: b :: t => f a b :: rwLevel f t
  | l => l

/-- The merge tree over `fuel` levels. -/
def rwTree (f : Nat → Nat → Nat) : Nat → List Nat → Nat
  | 0, l => nth 0 l 0
  | n + 1, l => if l.length ≤ 1 then nth 0 l 0 else rwTree f n (rwLevel f l)

/-- Insert a contribution by ascending key, those of one core in its program order (R396). -/
def contribInsert (x : Contrib) : List Contrib → List Contrib
  | [] => [x]
  | y :: t => if x.key < y.key ∨ x.key = y.key ∧ x.op < y.op then x :: y :: t else y :: contribInsert x t

/-- Where the holder's page tables put a virtual address of a job (R394). -/
def State.jobPhys (s : State) (job va : Nat) (store : Bool) : TlbEnt ⊕ Nat :=
  match s.fab.jobs.find? job with
  | none => .inr cMESSAGE_UNDELIVERABLE
  | some j =>
    match s.conts.find? j.holder with
    | none => .inr cMESSAGE_UNDELIVERABLE
    | some q =>
      match s.walk none q.atp va false store with
      | .ok e => .inl e
      | .fault c _ => .inr c

def State.modJob (s : State) (j : Nat) (f : Job → Job) : State := { s with fab := { s.fab with jobs := s.fab.jobs.upd j f } }
/-- A message is accepted for sending (R389, R391). -/
def State.countInj (s : State) (j : Nat) : State :=
  s.modJob j (fun x => { x with inj := x.inj + 1, st := if x.st == .quiet then .active else x.st })
/-- Messages are consumed at this package (R329, R389). -/
def State.countCons (s : State) (j n : Nat) : State := s.modJob j (fun x => { x with cons := x.cons + BitVec.ofNat 64 n })
/-- Messages are lost at this package (R393). -/
def State.countLoss (s : State) (j n cause : Nat) : State :=
  s.modJob j (fun x => { x with cons := x.cons + BitVec.ofNat 64 n, loss := x.loss + BitVec.ofNat 64 n, cause := cause })

/-- The contributions of a round to the element of `x`, with `x` last. -/
def RWin.roundWith (w : RWin) (x : Contrib) : List Contrib := (w.got ++ [x]).filter (fun y => decide (y.elem = x.elem))

/-- The fault that the home's last access to the element of a contribution meets, if it completes its round (R394). -/
def State.mergeFault (s : State) (k : Nat) (x : Contrib) : Option (Nat × Nat) :=
  match s.fab.wins.find? k with
  | none => none
  | some w =>
    let va := rwBase w + x.elem * rwWidth w
    if (w.roundWith x).length < rwExpect w then none
    else match s.jobPhys (rwJob w) va true with | .inl _ => none | .inr c => some (c, va)

/-- A contribution to its element of window `k` (R396). When the round is complete its values are merged, the home performs
the last access, and each contribution is consumed for its own job; outside C and L pages they are lost (R395). -/
def State.contribute (s : State) (k : Nat) (x : Contrib) : State :=
  match s.fab.wins.find? k with
  | none => s
  | some w =>
    let elem := x.elem
    let got := w.got ++ [x]
    let mine := got.filter (fun x => decide (x.elem = elem))
    if mine.length < rwExpect w then { s with fab := { s.fab with wins := s.fab.wins.upd k (fun w => { w with got := got }) } }
    else
      let s := { s with fab := { s.fab with wins := s.fab.wins.upd k (fun w => { w with got := got.filter (fun x => decide (x.elem ≠ elem)) }) } }
      let vals := (mine.foldl (fun l y => contribInsert y l) []).map (fun (y : Contrib) => y.val.toNat)
      let lost (s : State) (cause : Nat) : State := mine.foldl (fun (s : State) (y : Contrib) => s.countLoss y.job 1 cause) s
      let m := rwTree (rwCombine (rwType w) (rwOp w)) 12 vals
      match s.jobPhys (rwJob w) (rwBase w + elem * rwWidth w) true with
      | .inl e =>
        if e.attr = .C ∨ e.attr = .L then
          let pa := e.phys (rwBase w + elem * rwWidth w)
          let s := s.unlockLines (linesOf pa (rwWidth w))
          let old := s.mem.num pa (rwWidth w)
          mine.foldl (fun (s : State) (y : Contrib) => s.countCons y.job 1) (s.storeMem pa (toBytesLE (rwWidth w) (rwCombine (rwType w) (rwOp w) old m)))
        else lost s cREDUCTION_WINDOW
      | .inr c => lost s c

/-- A message arrives at this package's interface. -/
def State.arrive (s : State) (m : Msg) : State :=
  { s with fab := { s.fab with msgs := s.fab.msgs ++ [{ m with seq := s.fab.nextSeq, dst := s.plan.pkg }], nextSeq := s.fab.nextSeq + 1 } }

/-! ### Performing an access -/

/-- An access is performed: it is done, and what hangs on it goes on. -/
def State.retireOp (s : State) (c : Nat) (lan : Bool) (id : Nat) : State :=
  (s.modMops c lan (fun l => l.filter (fun m => decide (m.id ≠ id)))).modCtx c lan (fun x =>
    { x with arvs := x.arvs.map (fun a => if a.at' = .op id then { a with at' := .cycle s.cyc } else a) })

/-- The scratchpads that an access touches. -/
def MemOp.spads (m : MemOp) : List Nat :=
  (m.pieces.filterMap (fun (p : Piece) => match m.placeOf p with | .spad k => some k | .glob _ => none)).eraseDups

/-- The banks of core `k`'s scratchpad that an access needs, one for each 16-byte word (R267). -/
def State.banksOf (s : State) (m : MemOp) (k : Nat) : List Nat :=
  ((m.pieces.filter (fun (p : Piece) => decide (m.placeOf p = .spad k))).flatMap (fun (p : Piece) => wordsOf p.pa p.len)).eraseDups.map
    (bankOf (s.usr k).allocs)

/-- The cycles that an access waits for banks which earlier ones still occupy (R267). -/
def State.bankWait (s : State) (m : MemOp) : Nat :=
  m.spads.foldl (fun (n : Nat) (k : Nat) => (s.banksOf m k).foldl (fun (n : Nat) (b : Nat) => max n ((s.core k).banks.getD b 0 - s.cyc)) n) 0

/-- An access occupies its banks, each for one cycle a word (R267). -/
def State.takeBanks (s : State) (m : MemOp) : State :=
  m.spads.foldl (fun (z : State) (k : Nat) => z.modCore k (fun w => { w with
    banks := (s.banksOf m k).foldl (fun (t : Tab Nat) (b : Nat) => t.put b (max (t.getD b 0) s.cyc + 1)) w.banks })) s

/-- The gated units of a core wake at an access of another agent, and read zero (R269). -/
def State.awaken (s : State) (k : Nat) : State :=
  let w := s.core k
  if w.gated = 0 then s
  else
    let allocs := w.usr.allocs
    let s := s.modCore k (fun w => { w with gated := 0, wake := none })
    s.modSpad k (fun (m : Mem) => (wordsOf 0 spadTop).foldl (fun (m : Mem) (o : Nat) =>
      if w.gated.getLsbD (bankOf allocs o * 6 + o / (256 * 512)) then m.zero o (o + 16) else m) m)

/-- The scratchpad that an access reaches is awake (R269). -/
def State.wakeFor (s : State) (p : Place) : State := match p with | .spad k => s.awaken k | .glob _ => s

/-- The value of an access is on its way to its register; its arrival, if it owes one, is made when it lands. -/
def State.reply (s : State) (c : Nat) (m : MemOp) (v : Val) (st : Status) (trap : Option Nat := none) (bad : Bool := false) : State :=
  let due := m.lands c s.cyc + s.bankWait m
  let s := (s.takeBanks m).modMops c m.lan (fun l => l.filter (fun x => decide (x.id ≠ m.id)))
  match m.reg with
  | some r => s.send c { id := m.id, reg := r, val := v, tag := st, due := due, lan := m.lan, trap := trap, bad := bad, slot := m.slot, pc := m.pc, handle := m.handle }
  | none => s

/-- Whether a load's bytes hold an uncorrectable word (R432, R433). -/
def State.readsBad (s : State) (m : MemOp) : Bool :=
  match m.place with
  | .glob _ => m.pieces.any (fun p => s.unc.any (fun w => decide (w * 8 < p.pa + p.len ∧ p.pa < (w + 1) * 8)))
  | .spad _ => false

/-- What a load's stretch does where it reads: a B line is filled into the die's cache, a C, K or L line is unlocked (R371)
and is present in its home's cache from then on (R333), another core's gated units wake (R269). -/
def State.touchLines (s : State) (c : Nat) (place : Place) (p : Piece) : State :=
  match place with
  | .glob .B => (linesOf p.pa p.len).foldl (fun (s : State) (l : Nat) => s.fillB (dieOf c) l) s
  | .glob _ => (s.unlockLines (linesOf p.pa p.len)).fillC (linesOf p.pa p.len)
  | .spad k => s.awaken k

/-- The bytes that a load's register takes. -/
def MemOp.width (m : MemOp) : Nat := if (match m.reg with | some r => isVReg r | none => false) then 256 else (loadForm m.op).1

/-- A plain load is performed (R274, R276 to R278). -/
def State.performLoad (s : State) (c : Nat) (m : MemOp) : State :=
  let vec := match m.reg with | some r => isVReg r | none => false
  let s := m.pieces.foldl (fun (s : State) (p : Piece) => s.touchLines c (m.placeOf p) p) s
  s.reply c m (loadVal m.op vec (s.loadBytes c m m.width)) stOK none (s.readsBad m)

/-- A plain store is performed (R275 to R277). -/
def State.performStore (s : State) (c : Nat) (m : MemOp) : State :=
  let s := m.pieces.foldl (fun s p => (s.wakeFor (m.placeOf p)).wrPlace c (m.placeOf p) p.pa (p.data m.b.bytes)) s
  (s.takeBanks m).retireOp c m.lan m.id

/-- A member's region access reaches its directories (R365 to R367, R370): a store's bytes become tentative; an access
that its region does not survive is discarded, a load then landing zero with status ABORTED (R372). -/
def State.performRegion (s : State) (c : Nat) (m : MemOp) (h : Word) : State :=
  let k := s.slotKey h
  let s := if (s.usr c).member.any (fun (x : Member) => decide (x.handle = h)) then s.meetRegion h else s
  let (ok, s) := match s.region? h with
    | some _ => s.regionLines k m.op.isStore (m.pieces.flatMap (fun (p : Piece) => linesOf p.pa p.len))
    | none => (false, s)
  let vec := match m.reg with | some r => isVReg r | none => false
  if m.op.isStore then
    let s := if ok then
        (s.modSlot k (fun r => { r with tent := m.pieces.foldl (fun (t : Tab Byte) (p : Piece) => tentPut t p.pa (p.data m.b.bytes)) r.tent })).modUsr c
          (fun u => { u with member := u.member.map (fun x => { x with stores := x.stores + 1 }) })
      else s
    s.retireOp c m.lan m.id
  else if ok then s.reply c m (loadVal m.op vec (s.loadBytes c m m.width)) stOK
  else s.reply c m (if vec then .vec 0 else .sc 0) stABORTED

/-- The bound release and acquire of counter operations (R323, R324): package scope or wider. -/
def State.bound (s : State) (c : Nat) (m : MemOp) (drop : Bool) : State :=
  if 3 ≤ ctlScope m.ctl then s.flushFor c m.va.toNat drop else s

/-- An atomic is performed as one access (R344, R349 to R351), or is accepted as a
contribution, one message, to its window (R389, R397). -/
def State.performAtomic (s : State) (c : Nat) (m : MemOp) : State :=
  let w := if ctlW32 m.ctl then 4 else 8
  let s := match m.place with
    | .glob _ => s.unlockLines (linesOf m.pa (if m.op = Op.qaddl then 2 * w else w))
    | .spad k => s.awaken k
  let old := ofBytesLE ((upto 0 w).map (fun i => s.rdPlace c m.place (m.pa + i)))
  let lim := ofBytesLE ((upto 0 w).map (fun i => s.rdPlace c m.place (m.pa + w + i)))
  let window := match m.place with | .glob _ => s.windowOf (s.blockOf c) m.va.toNat | _ => none
  match window with
  | some (_, win) =>
    let s := (s.countInj (rwJob win)).arrive { seq := 0, src := s.plan.pkg, dst := s.plan.pkg, job := rwJob win, key := s.plan.pkg * 2 ^ 11 + c
                                               kind := .amoWin m.va.toNat m.b.word, op := m.id }
    s.reply c m (.sc 0) stOK
  | none =>
    let r := rmwRes m.op (ctlAop m.ctl) w old m.b.word.toNat m.exp.toNat lim
    let s := match r.new with
      | some v => s.wrPlace c m.place m.pa (toBytesLE w v)
      | none => s
    s.reply c m (.sc (BitVec.ofNat 64 r.val)) r.st

/-- A CTRADD is performed at the home port (R352). -/
def State.performCtradd (s : State) (c : Nat) (m : MemOp) : State :=
  let s := if ctlOrd m.ctl = 2 then s.bound c m false else s
  let (old, st, s) := s.counterAdd m.pa m.b.word.toNat
  s.reply c m (.sc (BitVec.ofNat 64 old)) st

/-- The limit cycle of a wait: LIMIT package cycles from issue; 0 means none (R353). -/
def limitOf (issue : Nat) (l : Word) : Option Nat := if fld l.toNat 0 40 = 0 then none else some (issue + fld l.toNat 0 40)

/-- A CTRWAIT is performed: it delivers at once, or parks (R337, R353). -/
def State.performCtrwait (s : State) (c : Nat) (m : MemOp) : State :=
  let v := s.wordAt m.place m.pa
  if m.b.word.toNat ≤ v then
    let s := if ctlOrd m.ctl = 1 then s.bound c m true else s
    s.reply c m (.sc (BitVec.ofNat 64 v)) stOK
  else
    (s.modMops c m.lan (fun l => l.filter (fun x => decide (x.id ≠ m.id)))).parkWait
      { core := c, id := m.id, reg := m.reg.getD 0, place := m.place, pa := m.pa, va := m.va, kind := .ctr m.b.word.toNat
        limit := limitOf m.issue m.exp, tbit := m.exp.getLsbD 63, ctl := m.ctl, lan := m.lan, pc := m.pc }

/-- A CTRRD is performed (R354). -/
def State.performCtrrd (s : State) (c : Nat) (m : MemOp) : State :=
  let s := if ctlOrd m.ctl = 1 then s.bound c m true else s
  s.reply c m (.sc (BitVec.ofNat 64 (s.wordAt m.place m.pa))) stOK

/-- A BARINIT is performed: one access, and the waits on the barrier end EARLY with the COUNT it leaves (R339, R355). -/
def State.performBarinit (s : State) (c : Nat) (m : MemOp) : State :=
  let s := s.wakeFor m.place
  let s := (s.putWord m.place m.pa 0).putWord m.place (m.pa + 8) (barinitWord m.b.word.toNat)
  let s := s.endWaits .reinit (fun w => decide (w.pa = m.pa) && samePlace w.place m.place)
  s.reply c m (.sc 0) stOK

/-! ### The dump (R443, R452) -/

/-- DUMP, or a FATAL error of core `c`: the dump is written; RESTART follows (R455), and the package runs nothing until
POWER_ON. -/
def State.fatal (s : State) (c cause : Nat) : State :=
  { s with
    mod := { s.mod with dump := [0x4B473944, BitVec.ofNat 64 c, BitVec.ofNat 64 (cause % 64), BitVec.ofNat 64 s.cyc], booted := false }
    agenda := [] }

/-- A trap of a user context taken at the first bundle boundary (R67, R343, R353, R356). -/
def State.trapAfter (s : State) (c : Nat) (t : TrapRec) : State := s.modUsr c (fun u => { u with after := u.after ++ [t] })

/-- A trap after a bundle of one side of a core: one of the lantern context is FATAL (R434). -/
def State.trapOn (s : State) (c : Nat) (lan : Bool) (t : TrapRec) : State := if lan then s.fatal c t.cause else s.trapAfter c t

/-- An arrival is performed (R341, R343, R356). -/
def State.performBarv (s : State) (c : Nat) (m : MemOp) : State :=
  let s := s.wakeFor m.place
  let r := barArrive (s.wordAt m.place m.pa) (s.wordAt m.place (m.pa + 8)) m.b.word.toNat
  let s := (s.putWord m.place m.pa r.count).putWord m.place (m.pa + 8) r.w1
  let s := if r.accepted then (if r.count % barN r.w1 = 0 then s.phaseTurn m.place m.pa else s).touch m.place m.pa else s
  let trap := if r.overrun then some cBARRIER_OVERRUN else none
  if m.arv then
    let s := s.modMops c m.lan (fun l => l.filter (fun x => decide (x.id ≠ m.id)))
    if r.overrun then s.trapOn c m.lan { cause := cBARRIER_OVERRUN, slot := m.slot, pc := m.pc, after := true } else s
  else s.reply c m (.sc (BitVec.ofNat 64 r.count)) r.st trap

/-- A BARW is performed: it delivers at once, or parks (R357). -/
def State.performBarw (s : State) (c : Nat) (m : MemOp) : State :=
  let s := s.wakeFor m.place
  let count := s.wordAt m.place m.pa
  let w1 := s.wordAt m.place (m.pa + 8)
  let ph := m.b.word.toNat
  if barInvalid w1 then s.reply c m (.sc (BitVec.ofNat 64 count)) stERROR
  else if barMet count w1 ph then s.reply c m (.sc (BitVec.ofNat 64 count)) stOK
  else
    (s.modMops c m.lan (fun l => l.filter (fun x => decide (x.id ≠ m.id)))).parkWait
      { core := c, id := m.id, reg := m.reg.getD 0, place := m.place, pa := m.pa, va := m.va, kind := .bar ph
        limit := limitOf m.issue m.exp, tbit := m.exp.getLsbD 63, ctl := m.ctl, lan := m.lan, pc := m.pc }

/-- A FENCE delivers at the end of the cycle in which its predecessors are performed (R279). -/
def State.performFence (s : State) (c : Nat) (m : MemOp) : State :=
  let s := s.modMops c m.lan (fun l => l.filter (fun x => decide (x.id ≠ m.id)))
  match m.reg with
  | some r => s.send c { id := m.id, reg := r, val := .sc 0, due := s.cyc, lan := m.lan, slot := m.slot, pc := m.pc }
  | none => s

/-- An access is performed. -/
def State.perform (s : State) (c : Nat) (m : MemOp) : State :=
  match m.handle with
  | some h => s.performRegion c m h
  | none =>
    match m.op with
    | .ctradd => s.performCtradd c m
    | .ctrwait => s.performCtrwait c m
    | .ctrrd => s.performCtrrd c m
    | .barinit => s.performBarinit c m
    | .barv => s.performBarv c m
    | .barw => s.performBarw c m
    | .fence => s.performFence c m
    | _ => if m.op.isStore then s.performStore c m else if m.op.isLoad then s.performLoad c m else s.performAtomic c m

/-- Whether what a FENCE waits for is performed at its scope (R279, R321). -/
def State.fenceReady (s : State) (c : Nat) (f : MemOp) : Bool := !s.undone c f.id (fencePred f) (fenceScope f)

/-- Whether an access has reached the place where it is performed. -/
def MemOp.there (c cyc : Nat) (m : MemOp) : Bool := match m.due c with | some t => decide (t ≤ cyc) | none => false

/-- Whether an operation on a K-page barrier stands behind another one there: the earlier arrival first, of one cycle the
lower core (R336, R341). -/
def State.queuedBehind (s : State) (c : Nat) (m : MemOp) : Bool :=
  let key (c : Nat) (m : MemOp) : Nat := ((m.due c).getD 0 * 2 ^ 11 + c) * 2 ^ 40 + m.id
  match m.place with
  | .spad _ => false
  | .glob _ => m.op.isBarrier && s.cores.any (fun ((k, _) : Nat × WCore) => (s.allMops k).any (fun (e : MemOp) =>
      e.op.isBarrier && samePlace e.place m.place && decide (e.pa = m.pa) && e.there k s.cyc && decide (key k e < key c m)))

/-- Whether an access is due and free to be performed in this cycle. -/
def State.ready (s : State) (c : Nat) (m : MemOp) : Bool :=
  if m.op == .fence then s.fenceReady c m
  else m.there c s.cyc && s.mayPerform c m && !s.queuedBehind c m

/-- The access of core `c` numbered `id`. -/
def State.findOp (s : State) (c id : Nat) : Option MemOp :=
  ((s.usr c).mops ++ (s.core c).lan.mops).find? (fun m => decide (m.id = id))

end Sys2Proof.Machine
end

