-- ==== Sys2Proof/Machine/Flags.lean ====
section
/-! DEFINITION. The flags of `fps`, and the fixed-latency results that raise them (R39, R62, R65 to R67, R211). -/
namespace Sys2Proof.Machine

/-- The flags whose traps `fpc` enables: TNX to TNV in bits 5 to 9, IDZ in bit 10 (R65). SAT has no trap. -/
def enabledFlags (fpc : Word) : Flags := BitVec.ofNat 7 (fld fpc.toNat 5 5 + 32 * fld fpc.toNat 10 1)

/-- The cause that landing flags raise under the traps enabled when the operation was triggered (R34, R67), if any:
INT_DIVIDE for IDZ, FP_EXCEPTION for the others (log 7). -/
def flagTrap (en fl : Flags) : Option Nat :=
  let r := fl &&& en
  if r = 0 then none else if r = flIDZ then some 0x26 else some 0x27

/-- Put a landed result on its port: 0x18 + k is mask register qk (R212). -/
def Ctx.land (x : Ctx) (e : Pipe) : Ctx :=
  let x := if 0x18 ≤ e.port then { x with q := rset x.q (e.port - 0x18) e.val.word } else x.setResult e.unit e.port e.val
  { x with fps := x.fps ||| e.fl.setWidth 64 }

/-- The results that land in this user cycle, in the order of their triggers (R39: the later trigger's value stands;
R211: `vb` stands over `va` on one mask register, which lower units landing first gives). -/
def landingOrder (l : List Pipe) : List Pipe :=
  (l.filter (fun e => decide (e.unit ≠ 4))) ++ l.filter (fun e => decide (e.unit = 4))

/-- The trap of a cycle's landings: that of the lowest slot (R67), and of one slot's that of the operation triggered first
(log 7). -/
def landingTrap (l : List Pipe) : Option TrapRec :=
  l.foldl (fun t e =>
    match flagTrap e.en e.fl with
    | none => t
    | some cause => match t with
      | some r => if r.slot ≤ e.slot then t else some { cause := cause, slot := e.slot, pc := e.pc, after := true }
      | none => some { cause := cause, slot := e.slot, pc := e.pc, after := true }) none

/-- Work that retires after `n` more user cycles comes one cycle nearer (R46). -/
def ArvWhen.age : ArvWhen → ArvWhen
  | .user (n + 1) => .user n
  | w => w

/-- A pending arrival after one more user cycle. -/
def Arv.age (a : Arv) : Arv := { a with at' := ArvWhen.age a.at' }

/-- The end of a user cycle (R39, R43): `sched` advances, every result in flight comes one cycle nearer, those that
are due land; with the trap they raise. -/
def Ctx.userCycle (x : Ctx) : Ctx × Option TrapRec :=
  let aged := x.pipe.map (fun e => { e with rem := e.rem - 1 })
  let due := landingOrder (aged.filter (fun e => decide (e.rem = 0)))
  let x := due.foldl Ctx.land { x with pipe := aged.filter (fun e => decide (e.rem ≠ 0)), sched := x.sched + 1, arvs := x.arvs.map Arv.age }
  (x, landingTrap due)

end Sys2Proof.Machine
end

