-- ==== Sys2Proof/Machine/Trigger.lean ====
section
/-! DEFINITION. What a trigger brings to its operation (R24, R58): the latched ports, the context at the start of the
cycle, and the checks and sources that operations share. -/
namespace Sys2Proof.Machine

/-- A trigger: its core and side, slot, operation, the unit's ports as they stand after the bundle's port writes with
the operand in `a`, the context at the start of the cycle, the bundle's address, the first operation number of the bundle,
whether its slot is shadowed, and whether its rendezvous ran into its limit. -/
structure Trig where
  c : Nat
  lan : Bool
  slot : Nat
  op : Op
  u : UPorts
  x0 : Ctx
  pc : Word
  lim : Nat
  shadowed : Bool := false
  late : Bool := false
  deriving Repr

def Trig.a (t : Trig) : Word := t.u.a.word
def Trig.b (t : Trig) : Word := t.u.b.word
/-- The register that port `d` names: bits [7:0] (R38). -/
def Trig.d (t : Trig) : Nat := t.u.d.toNat % 256

/-- A designator that must name an s register (R41). -/
def sDesignator (d : Nat) : Chk := trapIf (decide (0x40 ≤ d)) cILLEGAL_PORT
/-- A designator that must name a v register. -/
def vDesignator (d : Nat) : Chk := trapIf (!isVReg d) cILLEGAL_PORT

/-- Mark the delivery register empty and pending, and give the operation a number (R40). -/
def State.pend (s : State) (t : Trig) (d : Nat) : Nat × State :=
  let (id, s) := s.newId
  (id, s.modCtx t.c t.lan (fun x => x.mark d))

/-- A delivery that lands at the end of the trigger cycle (R40). -/
def State.deliverTrig (s : State) (t : Trig) (v : Word) (st : Status) : ArvWhen × State :=
  let (id, s) := s.pend t t.d
  (.cycle s.cyc, s.deliverNow t.c t.lan id t.d v st)

/-- An answer that an agent owes: the register is pending, and the agent finds the ask by its number (R167). -/
def State.askAgent (s : State) (t : Trig) (a b : Nat) (limit : Option Nat := none) (data : List Nat := []) : ArvWhen × State :=
  let (id, s) := s.pend t t.d
  let q : Ask := { op := t.op, reg := t.d, id := id, a := a, b := b, limit := limit, since := s.cyc, data := data }
  (.op id, if t.lan then s.modLan t.c (fun l => { l with asks := l.asks ++ [q] }) else s.modUsr t.c (fun u => { u with asks := u.asks ++ [q] }))

/-- Put a fixed-latency result in flight (R39). -/
def State.pushPipe (s : State) (t : Trig) (port lat : Nat) (v : Val) (fl : Flags) : State :=
  s.modCtx t.c t.lan (fun x => { x with pipe := x.pipe ++
    [{ unit := t.slot, port := port, val := v, rem := lat, fl := fl, en := enabledFlags t.x0.fpc, slot := t.slot, pc := t.pc }] })

/-- A byte of the core's scratchpad as its own later operations see it: with its stores of a number below `lim` that
are not yet performed (R236, R293). -/
def State.ownSpad (s : State) (c : Nat) (lim o : Nat) : Byte :=
  (ownByte (s.ownStores c) lim none (.spad c) o).getD ((s.spad c).rd o)

/-- A little-endian number of `n` scratchpad bytes, as a trigger finds them at the start of its cycle. -/
def State.spadNum (s : State) (t : Trig) (o n : Nat) : Nat :=
  ofBytesLE ((upto 0 n).map (fun i => s.ownSpad t.c t.lim (o + i)))

/-- Whether a segment holds back what its core does (R426). -/
def User.inSeg (u : User) : Bool := u.seg.st == .open' || u.seg.st == .replaying

end Sys2Proof.Machine
end

