-- ==== Sys2Proof/Machine/EstOps.lean ====
section
/-! DEFINITION. The estimate unit of the hub (chapter "The estimating launch", R408 to R424): the permutation, the
merge of blocks, the test, and the unit's events. An estimate is kept under its launch's key. -/
namespace Sys2Proof.Machine

/-! ### The permutation (R409) -/

/-- b: the smallest even number of at least 2 with 2^b ≥ N. -/
def permBits (n : Nat) : Nat := ((upto 1 20).find? (fun h => decide (n ≤ 2 ^ (2 * h)))).getD 20 * 2

def permF (mask v k : Nat) : Nat := Nat.land ((v * 37 + k + v / 2) % 2 ^ 32) mask

/-- Feistel's four rounds. -/
def feistel (seed h x : Nat) : Nat :=
  let (l, r) := (upto 0 4).foldl (fun (l, r) i => (r, Nat.xor l (permF (2 ^ h - 1) r (seed / 2 ^ (16 * i) % 2 ^ 16))))
    (x / 2 ^ h, x % 2 ^ h)
  l * 2 ^ h + r

/-- Walk on while the value lies outside 0..N − 1. -/
def permWalk (seed h n : Nat) : Nat → Nat → Nat
  | 0, x => x
  | f + 1, x => if x < n then x else permWalk seed h n f (feistel seed h x)

/-- Perm(p): fewer than 2^b − N + 1 values lie outside, so that many walks suffice. -/
def perm (n : Nat) (seed : Word) (p : Nat) : Nat :=
  let h := permBits n / 2
  permWalk seed.toNat h n (2 ^ (2 * h) - n) (feistel seed.toNat h p)

/-! ### Moments (R414, R415) -/

def dAdd (a b : Nat) : Nat := (fadd fp64 .rne a b).1
def dSub (a b : Nat) : Nat := (fsub fp64 .rne a b).1
def dMul (a b : Nat) : Nat := (fmul fp64 .rne a b).1
def dDiv (a b : Nat) : Nat := (fdiv fp64 .rne (unpack fp64 a) (unpack fp64 b)).1
/-- FP64(n). -/
def dOf (n : Nat) : Nat := (roundFV fp64 .rne (FV.ofInt n)).1
/-- a ≤ b; a NaN makes it false. -/
def dLe (a b : Nat) : Bool :=
  let x := unpack fp64 a
  let y := unpack fp64 b
  !x.isNan && !y.isNan && decide (FV.cmp x y ≤ 0)

/-- One value enters a running mean. -/
def Moments.step (m : Moments) (v : Word) : Moments :=
  let n := m.n + 1
  let d := dSub v.toNat m.mean
  let mean := dAdd m.mean (dDiv d (dOf n))
  { n := n, mean := mean, m2 := dAdd m.m2 (dMul d (dSub v.toNat mean)) }

/-- The merge of a block into the leading one. -/
def Moments.merge (a b : Moments) : Moments :=
  if b.n = 0 then a
  else if a.n = 0 then b
  else
    let n := a.n + b.n
    let d := dSub b.mean a.mean
    { n := n
      mean := dAdd a.mean (dDiv (dMul d (dOf b.n)) (dOf n))
      m2 := dAdd (dAdd a.m2 b.m2) (dDiv (dMul (dMul (dMul d d) (dOf a.n)) (dOf b.n)) (dOf n)) }

/-- The test (R415). -/
def EstCfg.passes (k : EstCfg) (m : Moments) : Bool :=
  decide (k.nmin ≤ m.n) &&
    dLe (dDiv (dMul (dMul k.z k.z) m.m2) (dMul (dOf (m.n - 1)) (dOf m.n))) (dMul k.tol k.tol)

/-! ### Events (R411 to R417, R424) -/

def Estimate.leadMode (e : Estimate) : Bool := decide (e.cfg.mode = 0)
def Estimate.live (e : Estimate) : Bool := e.st == .armed || e.st == .sampling

/-- The merge of the per-core accumulators in ascending core number (R417). -/
def Estimate.mergeAccs (e : Estimate) : Moments := e.accs.foldl (fun m (_, a) => m.merge a) ({} : Moments)

/-- The current merged state (R411). -/
def Estimate.current (e : Estimate) : Moments × Nat :=
  if e.leadMode then (e.lead, e.merged) else (e.mergeAccs, e.next)

/-- Freeze a state (R416): values at or beyond P are late. -/
def Estimate.freeze (e : Estimate) (m : Moments) (p why : Nat) : Estimate :=
  { e with
    frozen := some (m, p), why := why
    late := e.late + (e.vals.filter (fun (k, _) => decide (p ≤ k))).length
    vals := []
    st := if e.outst.isEmpty then .stopped else .stopping }

/-- Whether a position has been pushed or dropped. -/
def Estimate.isEnded (e : Estimate) (p : Nat) : Bool := e.ended.any (fun (q, _) => decide (q = p))
/-- Whether a task may name a position: it holds it, it held it when it was dropped, or the position has been pushed (R422). -/
def Estimate.mayName (e : Estimate) (tile p : Nat) : Bool :=
  decide (e.outst.find? p = some tile) || e.ended.any (fun ((q, t) : Nat × Option Nat) => decide (q = p ∧ (t = none ∨ t = some tile)))

/-- Merge the blocks that are complete, with a test after each (R412, R414, R415). -/
def Estimate.blocks : Nat → Estimate → Estimate
  | 0, e => e
  | f + 1, e =>
    let hi := min (e.merged + e.cfg.k) e.cfg.n
    let ps := upto e.merged (hi - e.merged)
    if e.live && decide (e.merged < e.cfg.n) && ps.all e.isEnded then
      let m := ps.foldl (fun m p => match e.vals.find? p with | some v => m.step v | none => m) ({} : Moments)
      let e := { e with
        lead := e.lead.merge m, merged := hi
        vals := e.vals.filter (fun (k, _) => decide (hi ≤ k)) }
      if e.cfg.passes e.lead then e.freeze e.lead hi 1 else Estimate.blocks f e
    else e

/-- The check of EAGER mode (R417). -/
def Estimate.check (e : Estimate) : Estimate :=
  let m := e.mergeAccs
  let e := { e with last := m }
  if e.cfg.passes m then e.freeze m e.next 1 else e

/-- What follows the end of a position: blocks, checks, exhaustion, the end of STOPPING. `accepted` says that a value
was accepted. -/
def Estimate.settle (e : Estimate) (accepted : Bool) : Estimate :=
  let last := decide (e.next = e.cfg.n) && e.outst.isEmpty
  if e.live then
    let e := if e.leadMode then Estimate.blocks (e.ended.length + 1) e
      else if (accepted && decide (e.accepted % e.cfg.k = 0)) || last then e.check else e
    if e.live && last then
      { e with st := .exhausted, why := 5, frozen := some (if e.leadMode then (e.lead, e.merged) else (e.last, e.next)) }
    else e
  else if e.st == .stopping && e.outst.isEmpty then { e with st := .stopped }
  else e

/-- A position is dropped (R413). -/
def Estimate.drop (e : Estimate) (p : Nat) : Estimate :=
  { e with outst := e.outst.erase p, ended := e.ended ++ [(p, e.outst.find? p)], droppedN := e.droppedN + 1 }.settle false

/-- The positions that a tile's task holds are dropped when it ends. -/
def Estimate.dropTile (e : Estimate) (tile : Nat) : Estimate :=
  (e.outst.filter (fun (_, t) => decide (t = tile))).foldl (fun e (p, _) => e.drop p) e

/-- A kill of the launch (R411). -/
def Estimate.kill (e : Estimate) : Estimate :=
  let n := e.outst.length
  let ended := e.ended ++ e.outst.map (fun (p, t) => (p, some t))
  let e := { e with outst := [], ended := ended, droppedN := e.droppedN + n }
  if e.live then let (m, p) := e.current; e.freeze m p 3
  else if e.st == .stopping then { e with st := .stopped }
  else e

/-- The launch drains (R411, R419). -/
def Estimate.drains (e : Estimate) : Estimate :=
  if e.live then let (m, p) := e.current; { e.freeze m p 4 with st := .stopped } else e

/-- EPOP at the unit (R421): position, item and status. -/
def Estimate.pop (e : Estimate) (tile : Nat) : (Word × Word × Status) × Estimate :=
  let sentinel (st : Status) := ((BitVec.allOnes 64, BitVec.allOnes 64, st), e)
  if e.st == .stopping || e.st == .stopped then sentinel stSTOPPED
  else if e.next = e.cfg.n then sentinel stEMPTY
  else if e.leadMode && decide (e.merged + 65536 ≤ e.next) then sentinel stBUSY
  else
    ((BitVec.ofNat 64 e.next, BitVec.ofNat 64 (perm e.cfg.n e.cfg.seed e.next), stOK),
      { e with st := .sampling, next := e.next + 1, outst := e.outst.put e.next tile })

/-- EPUSH at the unit (R422) by core `c`: status, and the estimate after it. -/
def Estimate.push (e : Estimate) (c p : Nat) (v : Word) : Status × Estimate :=
  if e.isEnded p then (stFAIL, e)
  else
    let off := { e with outst := e.outst.erase p, ended := e.ended ++ [(p, none)] }
    match e.frozen with
    | some (_, f) =>
      if f ≤ p ∨ !e.leadMode then (stLATE, ({ off with late := off.late + 1 }).settle false)
      else (stOK, off.settle false)
    | none =>
      if e.leadMode then (stOK, ({ off with vals := off.vals.put p v, accepted := off.accepted + 1 }).settle true)
      else
        (stOK, ({ off with accs := off.accs.put c ((off.accs.getD c {}).step v), accepted := off.accepted + 1 }).settle true)

/-- ESTOP at the unit (R424). -/
def Estimate.stop (e : Estimate) : Word × Status × Estimate :=
  let code := BitVec.ofNat 64 e.st.code
  if e.live then let (m, p) := e.current; (code, stOK, e.freeze m p 2) else (code, stFAIL, e)

/-- The state word (R423). -/
def Estimate.word (e : Estimate) : Nat :=
  e.st.code + 16 * e.cfg.mode + 2 ^ 5 * e.why
    + 2 ^ 23 * (match e.frozen with | some (_, p) => p | none => if e.leadMode then e.merged else 0)

/-- The moments that ESTAT and the record read (R419, R423). -/
def Estimate.shown (e : Estimate) : Moments :=
  match e.frozen with
  | some (m, _) => m
  | none => if e.leadMode then e.lead else e.last

/-- ESTAT's value (R423). -/
def Estimate.stat (e : Estimate) (a : Word) : Word × Status :=
  let w (n : Nat) : Word × Status := (BitVec.ofNat 64 n, stOK)
  match a.toNat with
  | 0 => w e.word
  | 1 => w e.shown.n
  | 2 => w e.shown.mean
  | 3 => w e.shown.m2
  | 4 => w e.next
  | 5 => w e.late
  | 6 => w e.droppedN
  | _ => (0, stERROR)

/-- The bytes of the record (R419). -/
def Estimate.recordBytes (e : Estimate) : List Byte :=
  [e.word, e.shown.n, e.shown.mean, e.shown.m2, e.next, e.late, e.droppedN, 0].flatMap (toBytesLE 8)

end Sys2Proof.Machine
end

