-- ==== Sys2Proof/Machine/Crypto.lean ====
section
/-! DEFINITION. AES-256 in Galois/counter mode, as R288 names it (NIST SP 800-38D, FIPS 197). -/
namespace Sys2Proof.Machine

/-! ### AES-256 -/

/-- The product of two bytes modulo x^8 + x^4 + x^3 + x + 1, over `n` bits of the second. -/
def gfByte : Nat → Nat → Nat → Nat
  | 0, _, _ => 0
  | n + 1, a, b =>
    Nat.xor (if b % 2 = 1 then a else 0) (gfByte n (Nat.xor (a * 2 % 256) (if 128 ≤ a then 0x1B else 0)) (b / 2))

/-- The inverse of a byte (0 gives 0): its 254th power. -/
def gfInv (a : Nat) : Nat :=
  let m (x y : Nat) : Nat := gfByte 8 x y
  let a2 := m a a
  let a3 := m a2 a
  let a12 := m (m a3 a3) (m a3 a3)
  let a15 := m a12 a3
  let a60 := m (m a15 a15) (m a15 a15)
  let a63 := m a60 a3
  let a126 := m a63 a63
  let a127 := m a126 a
  m a127 a127

/-- A byte turned left. -/
def rotl8 (v k : Nat) : Nat := v * 2 ^ k % 256 + v / 2 ^ (8 - k)

/-- The substitution of a byte. -/
def aesSub (a : Nat) : Nat :=
  let v := gfInv a
  Nat.xor 0x63 (Nat.xor v (Nat.xor (rotl8 v 1) (Nat.xor (rotl8 v 2) (Nat.xor (rotl8 v 3) (rotl8 v 4)))))

/-- Add two byte strings of one length. -/
def addBytes : List Nat → List Nat → List Nat
  | a :: s, b :: t => Nat.xor a b :: addBytes s t
  | _, _ => []

/-- The words of the key schedule, the last 8 of them first, from word `i` on for `n` words. -/
def keyWords : Nat → Nat → Nat → List (List Nat) → List (List Nat)
  | 0, _, _, ws => ws
  | n + 1, i, rc, ws =>
    let prev := nth [] ws 0
    let t := if i % 8 = 0 then addBytes ((prev.drop 1 ++ prev.take 1).map aesSub) [rc, 0, 0, 0]
      else if i % 8 = 4 then prev.map aesSub else prev
    keyWords n (i + 1) (if i % 8 = 0 then gfByte 8 rc 2 else rc) (addBytes (nth [] ws 7) t :: ws)

/-- The round keys of a 32-byte key, each of 16 bytes. -/
def roundKeys (key : List Nat) : List (List Nat) :=
  let first := (upto 0 8).map (fun i => (key.drop (4 * i)).take 4)
  let ws := (keyWords 52 8 1 first.reverse).reverse
  (upto 0 15).map (fun r => ((ws.drop (4 * r)).take 4).flatten)

/-- The rows of a state, held column by column, turned. -/
def shiftRows (st : List Nat) : List Nat := (upto 0 16).map (fun i => nth 0 st ((i + 4 * (i % 4)) % 16))

/-- A column mixed. -/
def mixColumn (col : List Nat) : List Nat :=
  (upto 0 4).map (fun i =>
    let x (k : Nat) : Nat := nth 0 col ((i + k) % 4)
    Nat.xor (gfByte 8 (x 0) 2) (Nat.xor (gfByte 8 (x 1) 3) (Nat.xor (x 2) (x 3))))

def mixColumns (st : List Nat) : List Nat := ((upto 0 4).map (fun c => mixColumn ((st.drop (4 * c)).take 4))).flatten

/-- The rounds after the first key addition. -/
def aesRounds : List (List Nat) → List Nat → List Nat
  | [], st => st
  | [k], st => addBytes (shiftRows (st.map aesSub)) k
  | k :: ks, st => aesRounds ks (addBytes (mixColumns (shiftRows (st.map aesSub))) k)

/-- AES-256 of one 16-byte block under its round keys. -/
def aesBlock (ks : List (List Nat)) (block : List Nat) : List Nat := aesRounds (ks.drop 1) (addBytes block (nth [] ks 0))

/-! ### Galois/counter mode -/

/-- A number of `n` bytes, most significant first. -/
def toBytesBE (n v : Nat) : List Nat := (upto 0 n).map (fun i => v / 256 ^ (n - 1 - i) % 256)
def ofBytesBE (l : List Nat) : Nat := l.foldl (fun a b => a * 256 + b) 0

/-- The product of two 128-bit blocks, the leftmost bit standing for x^0: `n` steps over the bits of `x`. -/
def gfBlock (x : Nat) : Nat → Nat → Nat → Nat
  | 0, _, z => z
  | n + 1, v, z =>
    gfBlock x n (if v % 2 = 1 then Nat.xor (v / 2) (0xE1 * 2 ^ 120) else v / 2)
      (if x / 2 ^ n % 2 = 1 then Nat.xor z v else z)

/-- The hash of a byte string in 16-byte blocks. -/
def ghash (h : Nat) : Nat → Nat → List Nat → Nat
  | 0, y, _ => y
  | n + 1, y, l => ghash h n (gfBlock (Nat.xor y (ofBytesBE (l.take 16))) 128 h 0) (l.drop 16)

/-- The initial counter block of a 96-bit vector: NONCE, then the low 32 bits of the transfer's identifier (R288). -/
def gcmCounter (nonce : Word) (id n : Nat) : List Nat :=
  toBytesBE 8 nonce.toNat ++ toBytesBE 4 (id % 2 ^ 32) ++ toBytesBE 4 (n % 2 ^ 32)

/-- Block `n` of the message, from 0, added to its key stream. -/
def gcmBlock (ks : List (List Nat)) (nonce : Word) (id n : Nat) (block : List Nat) : List Nat :=
  addBytes block (aesBlock ks (gcmCounter nonce id (n + 2)))

/-- A stretch of whole blocks of the message, from block `n` on. -/
def gcmCrypt (ks : List (List Nat)) (nonce : Word) (id : Nat) : Nat → Nat → List Nat → List Nat
  | 0, _, _ => []
  | f + 1, n, l => gcmBlock ks nonce id n (l.take 16) ++ gcmCrypt ks nonce id f (n + 1) (l.drop 16)

/-- The tag of a ciphertext of whole blocks; there is no additional authenticated data. -/
def gcmTag (ks : List (List Nat)) (nonce : Word) (id : Nat) (cipher : List Nat) : List Nat :=
  let h := ofBytesBE (aesBlock ks (List.replicate 16 0))
  let y := ghash h (cipher.length / 16) 0 cipher
  let s := gfBlock (Nat.xor y (cipher.length * 8)) 128 h 0
  addBytes (toBytesBE 16 s) (aesBlock ks (gcmCounter nonce id 1))

end Sys2Proof.Machine
end

