-- ==== Sys2Proof/Machine/LsOps.lean ====
section
/-! DEFINITION. The triggers of the load/store unit: their checks in the order of R273 and R346, and what issuing them
does (chapters "Pages, scratchpad and memory access" and "Counters, barriers and atomics"). -/
namespace Sys2Proof.Machine

/-! ### The bytes an access touches -/

/-- An access as a list of stretches (offset in the value, address, length), cut at 64 KiB, the smallest page that a
core's translation may have (R256). -/
def spansOf (off va n : Nat) : List (Nat × Nat × Nat) :=
  let room := 2 ^ 16 - va % 2 ^ 16
  if n ≤ room then [(off, va, n)] else [(off, va, room), (off + room, va + room, n - room)]

/-- The active lanes of an indexed access: lane and address (R277). -/
def laneAddrs (a : Word) (offs : VReg) : List (Nat × Nat) :=
  (upto 0 64).filterMap (fun l =>
    let o := lane offs l
    if o = 0xFFFFFFFF then none else some (l, (a + BitVec.ofNat 64 o).toNat))

/-- Bytes of a scalar store's member (R275). -/
def storeLen : Op → Nat
  | .stB => 1
  | .stH => 2
  | .stW => 4
  | _ => 8

/-- Whether an operation is one of those of R345. -/
def Op.isSync (o : Op) : Bool := o.isAtomic || o.isBarrier || o == .ctradd || o == .ctrwait || o == .ctrrd

/-- Bytes of one access, for the address checks. -/
def Trig.bytes (t : Trig) : Nat :=
  let w := if ctlW32 t.u.c then 4 else 8
  match t.op with
  | .vld | .vst => 256
  | .vgath | .vscat => 4
  | .ldr => if isVReg t.d then 256 else 8
  | .qaddl => 2 * w
  | .amo | .cas | .qincb | .qincw | .qdecp => w
  | .ctradd | .ctrwait | .ctrrd => 8
  | .barinit | .barv | .barw => 16
  | o => if o.isStore then storeLen o else (loadForm o).1

/-- The alignment of an access (R270, R346). -/
def Trig.align (t : Trig) : Nat :=
  match t.op with
  | .vld | .vst => 16
  | .ldr => if isVReg t.d then 16 else 8
  | _ => t.bytes

/-- The stretches of an access: offset in the value, address, length. -/
def Trig.spans (t : Trig) : List (Nat × Nat × Nat) :=
  match t.op with
  | .vgath | .vscat => (laneAddrs t.a t.u.b.vreg).map (fun (l, v) => (4 * l, v, 4))
  | .ldr => [(0, t.a.toNat % 2 ^ 20, t.bytes)]
  | _ => if ctlSpace t.u.c = 0 then spansOf 0 t.a.toNat t.bytes else [(0, t.a.toNat % 2 ^ 20, t.bytes)]

/-- Whether an access needs write permission. -/
def Trig.writes (t : Trig) : Bool :=
  t.op.isStore || t.op.isAtomic || t.op == .ctradd || t.op == .barinit || t.op == .barv

/-! ### Checks -/

/-- The control word of a plain access (R253): `ords` are the ORD values the entry accepts. -/
def ctlCheck (t : Trig) (ords : List Nat) : Chk :=
  let c := t.u.c
  trapIf (decide (fld c.toNat 16 48 ≠ 0 ∨ fld c.toNat 9 3 ≠ 0)
    || (t.op ≠ .ldr && decide (ctlSpace c = 3))
    || (decide (ctlOrd c ≠ 0) && decide (6 ≤ ctlScope c))
    || (ctlReg c && t.op ≠ .ldr && decide (ctlSpace c ≠ 0))
    || !ords.contains (ctlOrd c)) cILLEGAL_PORT

/-- The control word of an instruction of R345 (R346 steps 1 and 2). -/
def syncCtlCheck (t : Trig) : Chk :=
  let c := t.u.c
  let (spaces, ords, w32, aops) : List Nat × List Nat × Bool × Nat := match t.op with
    | .amo => ([0, 1], [0, 1, 2, 3], true, 9)
    | .cas | .qincb | .qincw | .qdecp | .qaddl => ([0, 1], [0, 1, 2, 3], true, 1)
    | .ctradd => ([0], [0, 2], false, 1)
    | .ctrwait | .ctrrd => ([0], [0, 1], false, 1)
    | .barinit => ([0, 1, 2], [0, 2], false, 1)
    | _ => ([0, 1, 2], [0], false, 1)
  (trapIf (decide (fld c.toNat 16 48 ≠ 0 ∨ fld c.toNat 9 3 ≠ 0) || ctlReg c || decide (ctlSpace c = 3)
    || !ords.contains (ctlOrd c) || (decide (ctlOrd c ≠ 0) && decide (6 ≤ ctlScope c))
    || (ctlW32 c && !w32) || !decide (ctlAop c < aops)) cILLEGAL_PORT).or
    (trapIf (!spaces.contains (ctlSpace c)) cATOMIC_SPACE)

/-- The designator `ls.d` (R274, R276 to R280, R282, R345). -/
def lsDesignator (t : Trig) : Chk :=
  match t.op with
  | .ldD => trapIf (!isSReg t.d) cILLEGAL_PORT
  | .vld | .vgath | .vscat => vDesignator t.d
  | .ldr => trapIf (decide (0x60 ≤ t.d)) cILLEGAL_PORT
  | o => if o.isStore then .ok else sDesignator t.d

/-- The operand of FENCE (R279). -/
def fenceCheck (t : Trig) : Chk :=
  let n := t.a.toNat
  trapIf (decide (6 ≤ n % 8 ∨ n / 8 % 2 ≠ 0 ∨ n / 64 % 4 ≠ 0 ∨ n / 1024 ≠ 0)) cILLEGAL_PORT

/-- Every stretch's answer, the first that is not `ok`. -/
def firstOf {α : Type} (f : α → Chk) : List α → Chk
  | [] => .ok
  | x :: t => (f x).or (firstOf f t)

/-- The member core of a window access (R278). -/
def ldrCore (a : Word) : Nat := memberCore (fld a.toNat 25 6) (fld a.toNat 20 5)

/-- Whether cluster `k` belongs to the partition of core `c`'s task, and core `m` runs a task of the same continuation
(R278). -/
def State.sameCont (s : State) (c m : Nat) : Bool :=
  match s.launchOf? c, s.launchOf? m, s.task? m with
  | some a, some b, some tk =>
    decide (a.block = b.block) && !tk.st.over' && decide ((s.cluster (clusterOf m)).cur = some a.part)
  | _, _, _ => false

/-- The address checks of an access: R255, R278. -/
def State.lsAddr (s : State) (t : Trig) : Chk :=
  let reported (v : Nat) : Word := BitVec.ofNat 64 v
  match t.op with
  | .ldr =>
    trapIf (decide (t.a.toNat / 2 ^ 31 ≠ 0 ∨ t.a.toNat % 2 ^ 20 + t.bytes > spadTop)) cSCRATCH_RANGE t.a
  | .vgath | .vscat =>
    firstOf (fun (_, v) => s.addrCheck t.c (ctlSpace t.u.c) (reported v) 4 t.op.isStore) (laneAddrs t.a t.u.b.vreg)
  | o => s.addrCheck t.c (ctlSpace t.u.c) t.a t.bytes o.isStore o.isBarrier

/-- Alignment (R270, R346); a MISALIGNED of the access that ERET 5 resumed is waived (R438). -/
def State.lsAlign (s : State) (t : Trig) : Chk :=
  let waived := !t.lan && (s.usr t.c).waive && !t.op.isSync
  match t.op with
  | .vgath | .vscat =>
    firstOf (fun (_, v) => trapIf (decide (v % 4 ≠ 0) && !waived) cMISALIGNED (BitVec.ofNat 64 v)) (laneAddrs t.a t.u.b.vreg)
  | _ => trapIf (decide (t.a.toNat % t.align ≠ 0) && !waived) cMISALIGNED t.a

/-- Whether the access of a trigger is left to firmware (R270, R438). -/
def State.emulated (s : State) (t : Trig) : Bool :=
  !t.lan && (s.usr t.c).waive && !t.op.isSync &&
    (match t.op with
      | .vgath | .vscat => (laneAddrs t.a t.u.b.vreg).any (fun (_, v) => decide (v % 4 ≠ 0))
      | _ => decide (t.a.toNat % t.align ≠ 0))

/-- Whether the access goes to global memory. -/
def Trig.global (t : Trig) : Bool := t.op ≠ .ldr && decide (ctlSpace t.u.c = 0)

/-- The attribute check of an access in a page (R257, R275, R346, R364). -/
def attrCheck (t : Trig) (at' : Attr) (va : Word) : Chk :=
  if t.op.isAtomic then
    match at' with
    | .B => .trap cATOMIC_SPACE va
    | .K => .trap cCOUNTER_PAGE_MISUSE va
    | _ => .ok
  else if t.op.isSync then trapIf (at' ≠ .K) cCOUNTER_PAGE_MISUSE va
  else trapIf (t.op.isStore && at' = .K) cCOUNTER_PAGE_MISUSE va

/-- The checks of an atomic toward reduction windows (R397). -/
def State.windowCheck (s : State) (t : Trig) : Chk :=
  if t.op.isAtomic && t.global then
    match s.windowOf (s.blockOf t.c) t.a.toNat with
    | some (_, w) => trapIf (!(t.op == .amo && amoFits w (ctlW32 t.u.c) (ctlAop t.u.c))) cREDUCTION_WINDOW t.a
    | none => .ok
  else .ok

/-- A check of every stretch's translation. -/
def State.eachPage (s : State) (t : Trig) (f : TlbEnt → Nat → Nat → Word → Chk) : Chk :=
  firstOf (fun (_, v, n) => match s.coreTlb t.c v t.writes with
    | none => .wait
    | some e => f e v n (BitVec.ofNat 64 v)) t.spans

/-- What settled translations still have to pass: that the page reaches HBM to a stretch's end (R258) and its attribute
(R257), then the region of a region access (R364), then the slot table (R164). -/
def State.lsPage (s : State) (t : Trig) : Chk :=
  let region := ctlReg t.u.c && (t.op.isLoad || t.op.isStore) && t.op ≠ .vgath && t.op ≠ .vscat
  (s.eachPage t (fun e v n a => (trapIf (!inHbm (e.phys v + (n - 1))) cPAGE_PROTECTION a).or (attrCheck t e.attr a))).or
    ((trapIf (region && (match (s.usr t.c).member with
        | some m => decide (m.handle ≠ t.u.h) || m.voted
        | none => true)) cREGION_STATE).or
      (s.eachPage t (fun e v _ a => (trapIf (region && e.attr ≠ .C) cATOMIC_SPACE a).or
        (s.slotCheck t.c (servingDie t.c e.attr (e.phys v)) a))))

/-- The trigger-time checks of an `ls` trigger (R50 step 4), in the order of R273 and R346. -/
def State.lsCheck (s : State) (t : Trig) : Chk :=
  match t.op with
  | .fence => (fenceCheck t).or (lsDesignator t)
  | .tlook | .tset => lsDesignator t
  | .bnd =>
    (lsDesignator t).or ((trapIf (decide (t.a.toNat % 16 ≠ 0)) cMISALIGNED t.a).or
      (trapIf (decide (t.a.toNat + 16 > spadTop)) cSCRATCH_RANGE t.a))
  | _ =>
    let ctl := if t.op.isSync then syncCtlCheck t
      else ctlCheck t (if t.op.isStore then [0, 2] else [0, 1])
    let remote := match t.op with
      | .ldr =>
        let m := ldrCore t.a
        trapIf (!(s.sameCont t.c m && s.inShared m (t.a.toNat % 2 ^ 20) t.bytes)) cREMOTE_SCRATCH_DENIED t.a
      | _ => .ok
    let indexed := trapIf (ctlReg t.u.c && (t.op == .vgath || t.op == .vscat || t.op == .ldr)) cILLEGAL_PORT
    let page := if t.global && !s.emulated t then
        (firstOf (fun (_, v, _) => s.settle t.c v t.writes) t.spans).or (s.lsPage t)
      else .ok
    ctl.or ((lsDesignator t).or ((s.lsAddr t).or ((s.lsAlign t).or (remote.or (page.or (indexed.or ((s.windowCheck t).or
      (trapIf (!t.lan && (s.usr t.c).inSeg && t.op.isStore && decide (64 ≤ (s.usr t.c).seg.buf.length)) cSEGMENT_OVERFLOW))))))))

/-- What a waiting `ls` trigger asks for: the first address that is not settled. -/
def State.lsAsk (s : State) (t : Trig) : State :=
  match t.spans.find? (fun (_, v, _) => s.settle t.c v t.writes ≠ .ok) with
  | some (_, v, _) => s.ask t.c v t.writes
  | none => s

/-! ### Issuing an access -/

/-- Where an access goes: the place of its first piece, and its pieces, each with its own where it lies elsewhere: in a
page of another attribute (R257), in another member's scratchpad (R252, R277). -/
def State.planOf (s : State) (t : Trig) : Place × List Piece :=
  let plain (o : Nat) : List Piece := t.spans.map (fun (off, a, n) => { off := off, pa := a % 2 ^ 20 + o, len := n })
  match t.op with
  | .ldr => (.spad (ldrCore t.a), plain 0)
  | _ =>
    match ctlSpace t.u.c with
    | 0 =>
      let es := t.spans.map (fun (off, v, n) => (off, v, n, (s.coreTlb t.c v t.writes)))
      let attr (e : Option TlbEnt) : Attr := (e.map TlbEnt.attr).getD .C
      let first := match es with | (_, _, _, e) :: _ => attr e | _ => .C
      (.glob first, es.map (fun (off, v, n, e) =>
        { off := off, pa := (e.map (fun e => e.phys v)).getD 0, len := n, place := if attr e = first then none else some (.glob (attr e)) }))
    | 1 => (.spad t.c, plain 0)
    | _ =>
      let at' (v : Nat) : Place := .spad (memberCore (clusterOf t.c) (v / 2 ^ 20 % 32))
      let first := at' t.a.toNat
      if t.op == .vgath || t.op == .vscat then
        (first, t.spans.map (fun (off, v, n) =>
          { off := off, pa := v % 2 ^ 20, len := n, place := if at' v = first then none else some (at' v) }))
      else (first, plain 0)

/-- The cycles by which its own bank conflicts delay a scratchpad access (R267). -/
def State.bankExtra (s : State) (m : MemOp) : Nat := m.spads.foldl (fun (n : Nat) (k : Nat) => max n (bankDelay (s.banksOf m k))) 0

/-- An access issues: it goes on its way, or a store of an open segment into the store buffer (R426). -/
def State.lsSend (s : State) (t : Trig) (b : Val) (exp : Word) : ArvWhen × State :=
  let (place, pieces) := s.planOf t
  let reg := if t.op.isStore then none else some t.d
  let (id, s) := s.newId
  let s := match reg with | some d => s.modCtx t.c t.lan (fun x => x.mark d) | none => s
  let dies (p : Piece) : List Nat := match p.place.getD place with | .glob a => reqDies t.c a p | .spad _ => []
  let m : MemOp :=
    { id := id, op := t.op, place := place, pieces := pieces, ctl := t.u.c, b := b, exp := exp, reg := reg, issue := s.cyc
      reqs := pieces.flatMap dies
      lan := t.lan, handle := if ctlReg t.u.c && !t.op.isSync && t.op ≠ .ldr then some t.u.h else none
      slot := t.slot, pc := t.pc, va := t.a }
  let m := { m with extra := s.bankExtra m }
  if !t.lan && (s.usr t.c).inSeg && t.op.isStore then
    (.op id, s.modUsr t.c (fun u => { u with seg := { u.seg with buf := u.seg.buf ++ [m] } }))
  else (.op id, s.modMops t.c t.lan (fun l => l ++ [{ m with hold := s.heldOp t.c m }]))

/-- The trigger of an access that firmware completes: no access; the register is pending, the ports are latched, and
the task traps FIRMWARE_ASSIST after the bundle (R270, R438). -/
def State.lsAssist (s : State) (t : Trig) : ArvWhen × State :=
  let s := if t.op.isStore then s else s.modCtx t.c t.lan (fun x => x.mark t.d)
  (.cycle s.cyc, (s.modUsr t.c (fun u => { u with latched := some { op := t.op, u := t.u, data := (t.x0.vreg t.d).v }, waive := false })).trapAfter t.c
    { cause := cFIRMWARE_ASSIST, slot := t.slot, pc := t.pc, after := true })

/-! ### The tag table (R268, R280) -/

def tagSet (k : Word) : Nat := Nat.xor (k.toNat % 1024) (k.toNat / 1024 % 1024)
/-- The key of a valid slot. -/
def tagKey (slot : Nat) (tag : BitVec 54) : Word :=
  let t := tag.toNat
  BitVec.ofNat 64 (t * 1024 + Nat.xor (slot / 4) (t % 1024))

/-- TLOOK (R280): the lowest way of the key's set that holds its tag, or 0xFFFF. -/
def tlook (tags : Tab (BitVec 54)) (k : Word) : Word :=
  let base := 4 * tagSet k
  match (upto 0 4).find? (fun w => decide (tags.find? (base + w) = some (BitVec.ofNat 54 (k.toNat / 1024)))) with
  | some w => BitVec.ofNat 64 (base + w)
  | none => 0xFFFF

/-- TSET (R280): the value and status delivered, and the new table. -/
def tset (tags : Tab (BitVec 54)) (k b : Word) : Word × Status × Tab (BitVec 54) :=
  let n := b.toNat
  let slot := n % 4096
  if n / 2 ^ 17 ≠ 0 ∨ n / 2 ^ 12 % 16 ≠ 0 then (0, stERROR, tags)
  else if n / 2 ^ 16 % 2 = 0 ∧ slot / 4 ≠ tagSet k then (0, stFAIL, tags)
  else
    let old := tags.find? slot
    let tags := if n / 2 ^ 16 % 2 = 1 then tags.erase slot else tags.put slot (BitVec.ofNat 54 (k.toNat / 1024))
    match old with
    | some t => (tagKey slot t, stOK, tags)
    | none => (0, stEMPTY, tags)

/-- A delivery at the end of package cycle s + 1 (R280). -/
def State.deliverNext (s : State) (t : Trig) (v : Word) (st : Status) : ArvWhen × State :=
  let (id, s) := s.pend t t.d
  (.op id, s.send t.c { id := id, reg := t.d, val := .sc v, tag := st, due := s.cyc + 1, lan := t.lan })

/-! ### BND (R281, R282) -/

/-- A binding entry from its two words; none if R282 refuses it. -/
def bindOf (w0 w1 : Nat) : Option Bind :=
  let slog := w1 / 2 ^ 56
  let base := w0 / 2 ^ 7 % 2 ^ 49 * 2 ^ 7
  if w0 / 2 ^ 56 ≠ 0 ∨ w0 % 2 ^ 7 ≠ 0 ∨ w1 % 8 ≠ 0 ∨ (slog ≠ 0 ∧ (slog < 7 ∨ slog > 40)) ∨ base % 2 ^ slog ≠ 0 then none
  else some { base := base, slog := slog, counter := w1 / 8 % 2 ^ 53 * 8 }

/-- BND: the engine takes the entry image at scratchpad offset a. -/
def State.bnd (s : State) (t : Trig) : ArvWhen × State :=
  let w0 := s.spadNum t t.a.toNat 8
  let w1 := s.spadNum t (t.a.toNat + 8) 8
  match decide (t.b.toNat > 63), bindOf w0 w1, s.contOf? t.c with
  | false, some e, some q =>
    (s.modCont q.block (fun q => { q with binds := setAt q.binds t.b.toNat e })).deliverTrig t 0 stOK
  | _, _, _ => s.deliverTrig t 0 stERROR

/-- An `ls` trigger takes effect. -/
def State.lsRun (s : State) (t : Trig) : ArvWhen × State :=
  if s.emulated t then s.lsAssist t
  else
    let lim := (t.x0.sreg t.d).v
    match t.op with
    | .fence =>
      let (id, s) := s.pend t t.d
      (.op id, s.modMops t.c t.lan (fun l => l ++ [{ id := id, op := .fence, place := .glob .C, pieces := [], ctl := 0, b := .sc 0
                                                     reg := some t.d, issue := s.cyc, lan := t.lan, pc := t.pc, va := t.a }]))
    | .tlook => s.deliverNext t (tlook (s.usr t.c).tags t.a) stOK
    | .tset =>
      let (v, st, tags) := tset (s.usr t.c).tags t.a t.b
      (s.modUsr t.c (fun u => { u with tags := tags })).deliverNext t v st
    | .bnd => s.bnd t
    | .vscat => s.lsSend t (.vec (t.x0.vreg t.d).v) 0
    | .cas => s.lsSend t (.sc t.b) lim
    | .ctrwait => if fld lim.toNat 40 23 ≠ 0 then s.deliverTrig t 0 stERROR else s.lsSend t (.sc t.b) lim
    | .barinit => if barinitBad t.b.toNat then s.deliverTrig t 0 stERROR else s.lsSend t (.sc t.b) 0
    | .barv => if t.b.toNat = 0 ∨ t.b.toNat > 15 then s.deliverTrig t 0 stERROR else s.lsSend t (.sc t.b) 0
    | .barw =>
      if t.b.toNat / 16 ≠ 0 ∨ fld lim.toNat 40 23 ≠ 0 then s.deliverTrig t 0 stERROR else s.lsSend t (.sc t.b) lim
    | .vst => s.lsSend t (.vec t.u.b.vreg) 0
    | .vld | .vgath => s.lsSend t (.sc 0) 0
    | _ => s.lsSend t (.sc t.b) 0

/-- The registers that an `ls` trigger reads through its designator as E = 0 sources (R277, R350, R353, R357). -/
def lsSources (t : Trig) : List Nat :=
  match t.op with
  | .vscat | .cas | .ctrwait | .barw => [t.d]
  | _ => []

/-- Whether an `ls` trigger delivers through `ls.d`. -/
def lsDelivers (o : Op) : Bool := !o.isStore

end Sys2Proof.Machine
end

