-- ==== Sys2Proof/Machine/MatrixOps.lean ====
section
/-! DEFINITION. The triggers of the matrix unit: their checks, what the array computes, and the array's steps (chapter
"The tensor identifier and the matrix array", R230 to R250). -/
namespace Sys2Proof.Machine

/-! ### The control word (R232) -/

def mxAcc (c : Word) : Nat := fld c.toNat 0 3
def mxZa (c : Word) : Bool := c.getLsbD 3
def mxOfmt (c : Word) : Nat := fld c.toNat 4 4
def mxChk (c : Word) : Bool := c.getLsbD 8
def mxAcc2 (c : Word) : Nat := fld c.toNat 9 3
def mxSteps (c : Word) : Nat := fld c.toNat 16 8 + 1
def mxCrow (c : Word) : Nat := fld c.toNat 24 5
def mxReserved (c : Word) : Bool := decide (fld c.toNat 29 35 ≠ 0 ∨ fld c.toNat 12 4 ≠ 0)

/-! ### Identifiers and accumulators -/

def State.tid (s : State) (c n : Nat) : Tid := (s.usr c).tids.getD n {}
def State.acc (s : State) (c k : Nat) : Acc := nth {} (s.usr c).accs k
def accPartner (k : Nat) : Nat := if k % 2 = 0 then k + 1 else k - 1
/-- mk with its partner; for an even k they are m(2j), m(2j+1). -/
def State.accSet (s : State) (c k : Nat) : AccSet := { lo := s.acc c k, hi := s.acc c (accPartner k) }
def putAccs (l : List Acc) (k : Nat) (x : AccSet) : List Acc := setAt (setAt l k x.lo) (accPartner k) x.hi

/-- Whether a tag is one of an FP64 pair. -/
def AccTag.wide : AccTag → Bool
  | .f64l | .f64h => true
  | _ => false

/-- What an array operation does: its occupancy, the accumulators and scratchpad bytes complete at its end, the key
of the product table, whether its check finds a mismatch, and the value for `x` with its latency. -/
structure MxPlan where
  occ : Nat
  accs : List Acc
  bytes : List Host.Cell := []
  key : Option (Nat × Nat × Nat × Nat) := none
  mismatch : Bool := false
  x : Option (Word × Nat) := none
  deriving Repr

/-! ### Products (R240, R241) -/

def prodA (a : Word) : Nat := fld a.toNat 0 6
def prodRa (a : Word) : Nat := fld a.toNat 16 12
def prodKb (a : Word) : Nat := fld a.toNat 32 16
/-- Bits of ports `a` and `b` that must be zero. -/
def prodReserved (a b : Word) : Bool :=
  decide (fld a.toNat 6 10 ≠ 0 ∨ fld a.toNat 28 4 ≠ 0 ∨ fld a.toNat 48 16 ≠ 0 ∨ fld b.toNat 6 10 ≠ 0 ∨ fld b.toNat 28 36 ≠ 0)

/-- The pairing of two identifiers' formats. -/
def tidPairing (a b : Tid) : Option Pairing := match a.fmt?, b.fmt? with | some x, some y => pairing x y | _, _ => none

/-- The key of a CB4 product (R237), none for another. -/
def prodKey (na nb : Nat) (a b : Tid) : Option (Nat × Nat × Nat × Nat) :=
  if a.fmt = .cb4 then some (na, a.cbgen.toNat, nb, b.cbgen.toNat) else none

/-- The occupancy of a product: that of its pairing, and 8 for a rebuild of the table (R234, R237). -/
def State.prodOcc (s : State) (c na nb : Nat) (a b : Tid) : Nat :=
  let key := prodKey na nb a b
  ((tidPairing a b).map Pairing.occ).getD 8 + (if key.isSome && decide ((s.usr c).ptKey ≠ key) then 8 else 0)

/-- The rows of A: from ra on, or gathered by the lanes of a register (R240). -/
def prodRows (a : Word) (g : Option VReg) : List Nat :=
  match g with
  | some v => (upto 0 32).map (lane v)
  | none => upto (prodRa a) 32

/-- The check of a product of `n` steps (R240, R241); `g` is MMAG's register, none where its port names no v register. -/
def State.prodCheck (s : State) (c : Nat) (u : UPorts) (n : Nat) (g : Option (Option VReg)) : Chk :=
  let a := s.tid c (prodA u.a.word)
  let b := s.tid c (prodA u.b.word)
  let k := mxAcc u.c
  (trapIf (prodReserved u.a.word u.b.word) cILLEGAL_PORT).or
    ((trapIf (a.st ≠ .ready || b.st ≠ .ready) cTID_INVALID).or
      (match tidPairing a b with
        | none => .trap cTID_GEOMETRY 0
        | some p =>
          (trapIf ((p.tag.wide && decide (k % 2 = 1)) || (!mxZa u.c && decide ((s.acc c k).tag ≠ p.tag))) cTID_GEOMETRY).or
            ((trapIf (decide (prodKb u.a.word + n * p.k > a.cols ∨ prodKb u.a.word + n * p.k > b.cols
              ∨ prodKb u.a.word % p.g ≠ 0 ∨ prodRa u.b.word + 32 > b.rows)) cTID_GEOMETRY).or
              (match g with
                | none => trapIf (decide (prodRa u.a.word + 32 > a.rows)) cTID_GEOMETRY
                | some none => .trap cILLEGAL_PORT 0
                | some (some v) => trapIf ((prodRows u.a.word (some v)).any (fun r => decide (a.rows ≤ r))) cGATHER_INDEX))))

/-- One product on the accumulators of a core, with K base `kb` (R240). -/
def State.prodPlan (s : State) (c : Nat) (lim : Nat) (na nb : Nat) (a b : Tid) (rows : List Nat) (kb cb : Nat) (ctl : Word) (za : Bool) : MxPlan :=
  let p := (tidPairing a b).getD ⟨1, 8, .f32, 8⟩
  let rd := s.ownSpad c lim
  let as := rows.map (fun r => a.vec rd r kb p.k)
  let bs := (upto cb 32).map (fun r => b.vec rd r kb p.k)
  let k := mxAcc ctl
  { occ := s.prodOcc c na nb a b
    accs := putAccs (s.usr c).accs k (mmaStep p (a.fmt == .cb4) za (mxChk ctl) (mxCrow ctl) (s.accSet c k) as bs)
    key := prodKey na nb a b }

/-! ### Moves of accumulators (R243, R244) -/

def movePitch (u : UPorts) (w : Nat) : Nat := let p := fld u.b.word.toNat 0 16; if p = 0 then 4 * w else p

/-- The width of MLDC's or MSTC's elements, if OFMT is one they accept. -/
def State.moveWidth (s : State) (c : Nat) (o : Op) (u : UPorts) : Option Nat :=
  let k := mxAcc u.c
  if o == .mldc then (mldcTag (mxOfmt u.c)).map Prod.snd
  else mstcWidth (if (s.acc c k).tag.wide then .f64l else (s.acc c k).tag) (mxOfmt u.c)

/-- The check of MLDC and MSTC (R243). -/
def State.moveCheck (s : State) (t : Trig) : Chk :=
  let k := mxAcc t.u.c
  match s.moveWidth t.c t.op t.u with
  | none => .trap cILLEGAL_PORT 0
  | some w =>
    let p := fld t.b.toNat 0 16
    let wide := if t.op == .mldc then decide (w = 64) else (s.acc t.c k).tag.wide
    (trapIf (decide (p % 16 ≠ 0 ∨ fld t.b.toNat 16 48 ≠ 0 ∨ (p ≠ 0 ∧ p < 4 * w))) cILLEGAL_PORT).or
      ((trapIf (wide && decide (k % 2 = 1)) cTID_GEOMETRY).or
        ((trapIf (decide (t.a.toNat % 16 ≠ 0)) cMISALIGNED t.a).or
          (trapIf (decide (t.a.toNat + 31 * movePitch t.u w + 4 * w > spadTop)) cSCRATCH_RANGE t.a)))

/-- MLDC: 32 × 32 elements are loaded, the tag set, the check row invalidated. -/
def State.mldcPlan (s : State) (t : Trig) : MxPlan :=
  let k := mxAcc t.u.c
  match mldcTag (mxOfmt t.u.c) with
  | none => { occ := 2, accs := (s.usr t.c).accs }
  | some (tag, w) =>
    let pitch := movePitch t.u w
    let vals := (upto 0 32).flatMap (fun r => (upto 0 32).map (fun e => s.spadNum t (t.a.toNat + r * pitch + e * w / 8) (w / 8)))
    let x := s.accSet t.c k
    let lo := { x.lo with bits := accOf (vals.map (· % 2 ^ 32)), tag := tag, ckValid := false }
    let y : AccSet := if tag = .f64l then
        { lo := lo, hi := { x.hi with bits := accOf (vals.map (· / 2 ^ 32)), tag := .f64h, nan := false, ov := false, sat := false, ckValid := false } }
      else { x with lo := lo }
    { occ := moveOcc (128 * w), accs := putAccs (s.usr t.c).accs k y }

/-- The bytes of a number of `n` bytes at an offset. -/
def cellsOf (o n v : Nat) : List Host.Cell := (upto 0 n).map (fun i => (o + i, BitVec.ofNat 8 (v / 256 ^ i)))

/-- MSTC: each element is converted and stored; a clamped one sets SAT. -/
def State.mstcPlan (s : State) (t : Trig) : MxPlan :=
  let k := mxAcc t.u.c
  let x := s.accSet t.c k
  let tag : AccTag := if x.lo.tag.wide then .f64l else x.lo.tag
  let w := (mstcWidth tag (mxOfmt t.u.c)).getD 32
  let pitch := movePitch t.u w
  let vals := (x.vals tag).map (mstcElem tag (mxOfmt t.u.c))
  let bytes := (List.zipWith (fun e (v : Nat × Bool) => cellsOf (t.a.toNat + e / 32 * pitch + e % 32 * w / 8) (w / 8) v.1)
    (upto 0 1024) vals).flatten
  { occ := moveOcc (128 * w)
    accs := setAt (s.usr t.c).accs k { x.lo with sat := x.lo.sat || vals.any Prod.snd }
    bytes := bytes }

/-- The check of MCVT (R244). -/
def State.mcvtCheck (s : State) (t : Trig) : Chk :=
  let n := t.a.toNat
  let x := s.tid t.c (prodA t.a)
  (trapIf (decide (fld n 6 10 ≠ 0 ∨ fld n 28 4 ≠ 0 ∨ fld n 48 16 ≠ 0)) cILLEGAL_PORT).or
    ((trapIf (x.st ≠ .ready) cTID_INVALID).or
      (trapIf (x.fmt == .cb4 || decide (prodRa t.a + 32 > x.rows ∨ prodKb t.a + 32 > x.cols)
        || ((s.acc t.c (mxAcc t.u.c)).tag.wide && decide (mxAcc t.u.c % 2 = 1))) cTID_GEOMETRY))

/-- MCVT: each element is converted to the identifier's format. -/
def State.mcvtPlan (s : State) (t : Trig) : MxPlan :=
  let k := mxAcc t.u.c
  let d := s.tid t.c (prodA t.a)
  let x := s.accSet t.c k
  let tag : AccTag := if x.lo.tag.wide then .f64l else x.lo.tag
  let vals := (x.vals tag).map (mcvtElem tag d.fmt)
  let bytes := (List.zipWith (fun e (v : Nat × Bool) =>
      cellsOf (d.byteOf (prodRa t.a + e / 32) (prodKb t.a + e % 32)) (d.fmt.width / 8) v.1) (upto 0 1024) vals).flatten
  { occ := moveOcc (128 * d.fmt.width)
    accs := setAt (s.usr t.c).accs k { x.lo with sat := x.lo.sat || vals.any Prod.snd }
    bytes := bytes }

/-! ### Accumulators alone (R242, R245 to R247) -/

/-- MZERO: the accumulators it names, with the partners that tag F64 takes in. -/
def State.mzeroPlan (s : State) (t : Trig) : MxPlan :=
  let sel (k : Nat) : Bool := t.a.getLsbD k
  let wide := decide (fld t.a.toNat 8 2 = 2)
  let one (k : Nat) (x : Acc) : Acc :=
    if sel k || (wide && sel (accPartner k)) then
      { bits := 0, tag := match fld t.a.toNat 8 2 with | 0 => .f32 | 1 => .i32 | _ => if k % 2 = 0 then .f64l else .f64h }
    else x
  { occ := 1, accs := List.zipWith one (upto 0 8) (s.usr t.c).accs }

/-- The tag under which an operation on mk works: that of the pair for an FP64 accumulator. -/
def State.workTag (s : State) (c k : Nat) : AccTag := let t := (s.acc c k).tag; if t.wide then .f64l else t

/-- MACC, MTRN and MSCALE: new values for mk, or for its pair, with the check rows invalidated. -/
def State.accPlan (s : State) (t : Trig) (vals : List (Nat × Flags)) (flags : Bool) : MxPlan :=
  let k := mxAcc t.u.c
  let tag := s.workTag t.c k
  let x := s.accSet t.c k
  let y := x.put tag vals
  let y := if flags then y else
    { lo := { y.lo with nan := x.lo.nan, ov := x.lo.ov }, hi := y.hi }
  let y : AccSet := if tag.wide then { lo := y.lo.noCheck, hi := y.hi.noCheck } else { y with lo := y.lo.noCheck }
  { occ := if tag.wide then 16 else 8, accs := putAccs (s.usr t.c).accs k y }

def State.maccPlan (s : State) (t : Trig) : MxPlan :=
  let tag := s.workTag t.c (mxAcc t.u.c)
  s.accPlan t (List.zipWith (maccElem tag) ((s.accSet t.c (mxAcc t.u.c)).vals tag) ((s.accSet t.c (mxAcc2 t.u.c)).vals tag)) true

def State.mtrnPlan (s : State) (t : Trig) : MxPlan :=
  let tag := s.workTag t.c (mxAcc t.u.c)
  s.accPlan t ((transpose32 ((s.accSet t.c (mxAcc t.u.c)).vals tag)).map (fun v => (v, 0))) false

/-- The register of port `g`: none for 0 (R232). -/
def Trig.gReg (t : Trig) : Option VReg :=
  let g := t.u.g.toNat % 256
  if g = 0 then none else some (t.x0.vreg g).v

def State.mscalePlan (s : State) (t : Trig) : MxPlan :=
  let tag := s.workTag t.c (mxAcc t.u.c)
  let vals := (s.accSet t.c (mxAcc t.u.c)).vals tag
  let new := match t.gReg with
    | none => vals.map (mscaleElem tag (if tag.wide then t.a.toNat else t.a.toNat % 2 ^ 32))
    | some v => List.zipWith (fun e x => mscaleVElem x (lane v (e / 32)) (lane v (32 + e % 32))) (upto 0 1024) vals
  s.accPlan t new true

/-- MCHK (R246). -/
def State.mchkPlan (s : State) (t : Trig) : MxPlan :=
  let k := mxAcc t.u.c
  let tag := s.workTag t.c k
  let x := s.accSet t.c k
  let row := BitVec.ofNat 2048 (packGo (if tag.wide then 64 else 32) (rowOf (x.vals tag) x.lo.ckNo))
  let same := decide (row = x.lo.ckRow)
  { occ := 2, accs := (s.usr t.c).accs, mismatch := x.lo.ckValid && !same
    x := if !x.lo.ckValid then some (0, 2) else if same then some (1, 2) else none }

/-- A bit for each accumulator. -/
def accMask (l : List Acc) (f : Acc → Bool) : Nat := packGo 1 (l.map (fun a => if f a then 1 else 0))

/-- MSTAT (R247). -/
def State.mstatPlan (s : State) (t : Trig) : MxPlan :=
  let l := (s.usr t.c).accs
  let x := accMask l Acc.nan + 2 ^ 8 * accMask l Acc.ov + 2 ^ 16 * accMask l Acc.sat + 2 ^ 24 * accMask l Acc.ckValid
    + 2 ^ 32 * packGo 2 (l.map (fun a => a.tag.code))
  { occ := 1, x := some (BitVec.ofNat 64 x, 1)
    accs := if t.a.getLsbD 0 then l.map (fun a => { a with nan := false, ov := false, sat := false }) else l }

/-! ### Triggers -/

/-- The plan of an array operation other than MSEQ. -/
def State.mxPlan (s : State) (t : Trig) : MxPlan :=
  match t.op with
  | .mma | .mmag =>
    s.prodPlan t.c t.lim (prodA t.a) (prodA t.b) (s.tid t.c (prodA t.a)) (s.tid t.c (prodA t.b))
      (prodRows t.a (if t.op == .mmag then t.gReg else none)) (prodKb t.a) (prodRa t.b) t.u.c (mxZa t.u.c)
  | .mzero => s.mzeroPlan t
  | .mldc => s.mldcPlan t
  | .mstc => s.mstcPlan t
  | .mcvt => s.mcvtPlan t
  | .macc => s.maccPlan t
  | .mtrn => s.mtrnPlan t
  | .mchk => s.mchkPlan t
  | .mscale => s.mscalePlan t
  | _ => s.mstatPlan t

/-- The occupancy of an array trigger. -/
def State.mxOcc (s : State) (t : Trig) : Nat :=
  let wide := (s.acc t.c (mxAcc t.u.c)).tag.wide
  match t.op with
  | .mma | .mmag | .mseq => s.prodOcc t.c (prodA t.a) (prodA t.b) (s.tid t.c (prodA t.a)) (s.tid t.c (prodA t.b))
  | .mldc | .mstc => moveOcc (128 * (s.moveWidth t.c t.op t.u).getD 32)
  | .mcvt => moveOcc (128 * (s.tid t.c (prodA t.a)).fmt.width)
  | .macc | .mtrn | .mscale => if wide then 16 else 8
  | .mchk => 2
  | _ => 1

/-- The registers that an `mx` trigger reads through `g` as E = 0 sources (R232). -/
def mxSources (t : Trig) : List Nat :=
  if (t.op == .mmag || t.op == .mscale) && isVReg (t.u.g.toNat % 256) then [t.u.g.toNat % 256] else []

/-- The entry checks of an `mx` trigger. -/
def State.mxEntry (s : State) (t : Trig) : Chk :=
  let g := t.u.g.toNat % 256
  let n := t.a.toNat
  let k := mxAcc t.u.c
  let tag := (s.acc t.c k).tag
  match t.op with
  | .mma => s.prodCheck t.c t.u 1 none
  | .mseq => s.prodCheck t.c t.u (mxSteps t.u.c) none
  | .mmag => s.prodCheck t.c t.u 1 (some (if isVReg g then t.gReg else none))
  | .mzero => trapIf (decide (fld n 8 2 = 3 ∨ fld n 10 54 ≠ 0)) cILLEGAL_PORT
  | .mldc | .mstc => s.moveCheck t
  | .mcvt => s.mcvtCheck t
  | .macc =>
    let j := mxAcc2 t.u.c
    trapIf (decide ((s.acc t.c j).tag ≠ tag) || (tag.wide && decide (k % 2 = 1 ∨ j % 2 = 1))) cTID_GEOMETRY
  | .mtrn => trapIf (tag.wide && decide (k % 2 = 1)) cTID_GEOMETRY
  | .mscale =>
    (trapIf (decide (g ≠ 0) && !isVReg g) cILLEGAL_PORT).or
      (trapIf (tag == .i32 || (tag.wide && decide (g ≠ 0 ∨ k % 2 = 1))) cTID_GEOMETRY)
  | .mchk => .ok
  | .mstat => trapIf (decide (n / 2 ≠ 0)) cILLEGAL_PORT
  | .tidw =>
    trapIf (decide (fld n 6 2 ≠ 0 ∨ fld n 11 53 ≠ 0) || (!t.a.getLsbD 10 && decide (2 ≤ fld n 8 2))) cILLEGAL_PORT
  | .tidr => trapIf (decide (fld n 6 2 ≠ 0 ∨ fld n 10 54 ≠ 0)) cILLEGAL_PORT
  | .cbld =>
    (trapIf (decide (fld t.b.toNat 6 58 ≠ 0)) cILLEGAL_PORT).or
      ((trapIf (decide (n % 32 ≠ 0)) cMISALIGNED t.a).or
        ((trapIf (decide (n + 32 > spadTop)) cSCRATCH_RANGE t.a).or
          (let x := s.tid t.c (fld t.b.toNat 0 6)
           (trapIf (x.fmt? ≠ some .cb4 || x.st == .empty) cTID_INVALID).or
            (trapIf (!cbFinite (BitVec.ofNat 256 (s.spadNum t n 32))) cCODEBOOK_INVALID))))
  | _ => trapIf (decide (1 < n)) cILLEGAL_PORT

/-- Whether an `mx` operation uses the array (R233). -/
def Op.usesArray (o : Op) : Bool := match o with | .tidw | .tidr | .cbld | .mwin => false | _ => true

/-- Whether the array can start an operation of core `c` with occupancy `o` in this cycle (R233). -/
def State.arrayFits (s : State) (c o : Nat) : Bool :=
  let p := s.windows c
  p.run.isNone && s.ownsWindow c && (p.solo || decide (o ≤ p.len - (windowAt p.len s.cyc).2))

/-- The wait of an `mx` trigger (R233, R250). -/
def State.mxWait (s : State) (t : Trig) : Chk :=
  let p := s.windows t.c
  let wait (b : Bool) : Chk := if b then .wait else .ok
  if t.op == .mwin then wait (decide (t.a.toNat = 1) && !(s.ownsWindow t.c && decide ((windowAt p.len s.cyc).2 = 0)))
  else if t.op == .mseq then wait (s.arrayBusy t.c)
  else if t.op.usesArray then wait ((s.usr t.c).mseq.isSome || !s.arrayFits t.c (s.mxOcc t))
  else .ok

/-- The accumulators as core `c`'s own operation in the array leaves them, with the tags that the steps of its MSEQ put on
them: a check of a waiting trigger reads these, as it would when the array is free (log 92). -/
def State.accsAfter (s : State) (c : Nat) : State :=
  let s := match (s.pair (pairOf c)).run with
    | some r => if r.core = c then s.modUsr c (fun u => { u with accs := r.accs }) else s
    | none => s
  match (s.usr c).mseq with
  | some q => match tidPairing q.ta q.tb with
    | some p =>
      let k := mxAcc q.c
      let x := s.accSet c k
      let y : AccSet := if p.tag.wide then { lo := { x.lo with tag := .f64l }, hi := { x.hi with tag := .f64h } } else { x with lo := { x.lo with tag := p.tag } }
      s.modUsr c (fun u => { u with accs := putAccs u.accs k y })
    | none => s
  | none => s

/-- The trigger-time checks of an `mx` trigger, made in each cycle in which its bundle is considered (R233). -/
def State.mxCheck (s : State) (t : Trig) : Chk :=
  let p := s.windows t.c
  let s' := s.accsAfter t.c
  (trapIf (mxReserved t.u.c) cILLEGAL_PORT).or
    ((trapIf (p.solo && decide (cx t.c % 2 = 1)) cMATRIX_WINDOW).or
      ((s'.mxEntry t).or
        ((trapIf (t.op.usesArray && !p.solo && decide (s'.mxOcc t > p.len)) cMATRIX_BUSY).or (s.mxWait t))))

/-- An operation starts in the array. -/
def State.arrayStart (s : State) (c : Nat) (op : Op) (id : Nat) (m : MxPlan) : State :=
  let s := s.setPair (pairOf c) { (s.pair (pairOf c)) with
    run := some { core := c, op := op, id := id, endc := s.cyc + m.occ - 1, accs := m.accs, bytes := m.bytes } }
  s.modUsr c (fun u => { u with ptKey := match m.key with | some k => some k | none => u.ptKey })

/-- An `mx` trigger takes effect; the answer says when its work retires, and whether a check found a mismatch. -/
def State.mxRun (s : State) (t : Trig) : ArvWhen × Bool × State :=
  let n := t.a.toNat
  let tidX (v : Nat) (lat : Nat) (s : State) : ArvWhen × Bool × State := (.user lat, false, s.pushPipe t 0 lat (.sc (BitVec.ofNat 64 v)) 0)
  match t.op with
  | .tidw =>
    let x := s.tid t.c (fld n 0 6)
    let y := if t.a.getLsbD 10 then x.clear else x.writeWord (fld n 8 2) t.b
    tidX y.st.code 1 (s.modUsr t.c (fun u => { u with tids := u.tids.put (fld n 0 6) y }))
  | .tidr => tidX ((s.tid t.c (fld n 0 6)).readWord (fld n 8 2)).toNat 1 s
  | .cbld =>
    let k := fld t.b.toNat 0 6
    let x := s.tid t.c k
    let y := { x with cb := some (BitVec.ofNat 256 (s.spadNum t n 32)), cbgen := x.cbgen + 1, st := .ready }
    tidX y.cbgen.toNat 2 (s.modUsr t.c (fun u => { u with tids := u.tids.put k y }))
  | .mwin => tidX (s.mxwin t.c).toNat 1 s
  | .mseq =>
    let (id, s) := s.newId
    let q : Mseq := { a := t.a, b := t.b, c := t.u.c, ta := s.tid t.c (prodA t.a), tb := s.tid t.c (prodA t.b)
                      steps := mxSteps t.u.c, id := id, pc := t.pc }
    (.op id, false, s.modUsr t.c (fun u => { u with mseq := some q }))
  | _ =>
    let m := s.mxPlan t
    let (id, s) := s.newId
    let s := s.arrayStart t.c t.op id m
    let s := match m.x with
      | some (v, lat) => s.pushPipe t 0 lat (.sc v) 0
      | none => s
    (.cycle (s.cyc + m.occ - 1), m.mismatch, s)

/-! ### The array's own steps -/

/-- Whether an agent's task goes on: running, or draining. -/
def User.goes (u : User) : Bool := match u.task with | some t => t.st == .running || t.st.over' | none => false

/-- Whether the next step of a core's MSEQ can start in this cycle (R241). -/
def State.mseqReady (s : State) (c : Nat) : Bool :=
  match (s.usr c).mseq with
  | some q => (s.usr c).goes && s.arrayFits c (s.prodOcc c (prodA q.a) (prodA q.b) q.ta q.tb)
  | none => false

/-- MSEQ_STEP_START (R241): the next step of a core's MSEQ enters the array. -/
def State.mseqStep (s : State) (c : Nat) : State :=
  match (s.usr c).mseq with
  | none => s
  | some q =>
    if !s.mseqReady c then s
    else
      let k := ((tidPairing q.ta q.tb).map Pairing.k).getD 8
      let m := s.prodPlan c s.nextOp (prodA q.a) (prodA q.b) q.ta q.tb (prodRows q.a none)
        (prodKb q.a + q.next * k) (prodRa q.b) q.c (mxZa q.c && decide (q.next = 0))
      (s.arrayStart c .mseq q.id m).modUsr c (fun u => { u with mseq := some { q with next := q.next + 1 } })

/-- Whether an earlier FENCE or acquire of core `c` still keeps the scratchpad writes of its array operation `id` back: they
are stores (R279, R320, log 91). -/
def State.arrayKept (s : State) (c id : Nat) : Bool :=
  (s.allMops c).any (fun (e : MemOp) => decide (e.id < id) && (if e.op == .fence then decide (fenceSucc e / 2 % 2 = 1) else e.holdsLater))

/-- Whether the operation of pair `p`'s array is complete in this cycle. -/
def State.arrayReady (s : State) (p : Nat) : Bool :=
  match (s.pair p).run with
  | some r => decide (r.endc ≤ s.cyc) && (r.bytes.isEmpty || !s.arrayKept r.core r.id)
  | none => false

/-- ARRAY_OP_COMPLETE (R233): at the end of its last package cycle an operation's effects are complete, those of one
that began before the open segment in its journal too; after the last step of an MSEQ the MSEQ retires (R241). -/
def State.arrayComplete (s : State) (p : Nat) : State :=
  match (s.pair p).run with
  | none => s
  | some r =>
    if !s.arrayReady p then s
    else
      let s := (s.setPair p { (s.pair p) with run := none }).modUsr r.core (fun u =>
        { u with accs := r.accs, seg := { u.seg with jr := if r.id < u.seg.firstId then u.seg.jr.map (fun j => { j with accs := r.accs }) else u.seg.jr } })
      let s := (s.awaken r.core).modSpad r.core (fun m => r.bytes.foldl (fun m (a, b) => m.wr a b) m)
      match (s.usr r.core).mseq with
      | some q => if r.op == .mseq && decide (q.steps ≤ q.next) then (s.modUsr r.core (fun u => { u with mseq := none })).retireOp r.core false q.id else s
      | none => s

end Sys2Proof.Machine
end

