-- ==== Sys2Proof/Machine/FaultOps.lean ====
section
/-! DEFINITION. The continuation engine's live copy of a control block and how it is written back (R75, R76), PROGRESS
and the harts that wait for it (R94), fault records (R78) and their delivery (R86, R88). -/
namespace Sys2Proof.Machine

/-! ### The control block (R75, R76) -/

/-- The fault word at offset 0x60. -/
def FRec.word (f : FRec) : Nat :=
  f.cause % 64 + 2 ^ 6 * (f.cls % 4) + 2 ^ 8 * (f.core % 2048) + 2 ^ 20 * (f.slot % 8) + 2 ^ 32 * (f.flid % 2 ^ 32)

/-- The words of the block that the engine writes back: offset and value, the reserved ones as zero. POST and OWNER are not
among them. -/
def Cont.words (q : Cont) : List (Nat × Nat) :=
  let f := q.fault
  [(0x00, q.st.code + 2 ^ 4 * q.pst.code + 2 ^ 8 * q.prio + 2 ^ 16 * q.part + 2 ^ 32 * q.anchor
      + (if q.xp then 2 ^ 44 else 0) + (if q.ap then 2 ^ 45 else 0)),
   (0x08, q.slog + q.sbase), (0x18, q.progress), (0x20, q.fetch), (0x28, q.drops), (0x30, q.cid),
   (0x40, q.atp.toNat), (0x48, q.btab), (0x50, q.clog + q.cring), (0x58, q.plog + q.pbase),
   (0x60, (f.map FRec.word).getD 0), (0x68, (f.map (fun f => f.addr.toNat)).getD 0),
   (0x70, (f.map (fun f => f.fpca.toNat)).getD 0), (0x78, (f.map FRec.time).getD 0), (0x80, q.ckgen)]
    ++ (upto 17 15).map (fun i => (8 * i, 0))

/-- Write an 8-byte word of memory. -/
def State.putNum (s : State) (pa v : Nat) : State := s.storeMem pa (toBytesLE 8 v)

/-- The engine writes a continuation's fields back to its block; the ATP of an orphan is the operating system's. -/
def State.syncBlock (s : State) (k : Nat) : State :=
  match s.conts.find? k with
  | some q => (q.words.filter (fun (o, _) => !(q.st == .orphaned && o == 0x40))).foldl (fun s (o, v) => s.putNum (k + o) v) s
  | none => s

/-- POST lies in memory (R76). -/
def State.post (s : State) (k : Nat) : Nat := s.mem.num (k + 0x10) 8

/-- Change a continuation and write it back. -/
def State.setCont (s : State) (k : Nat) (f : Cont → Cont) : State := (s.modCont k f).syncBlock k

/-! ### Harts that wait (R94, R96) -/

/-- Write register `r` of a hart; x0 discards. -/
def Hart.wr (h : Hart) (r : Nat) (v : Word) : Hart := if r = 0 then h else { h with x := rset h.x r v }
def Hart.rd (h : Hart) (r : Nat) : Word := if r = 0 then 0 else rget 0 h.x r

/-- The join word (R94). -/
def joinWord (q : Cont) (target : Word) : Word :=
  BitVec.ofNat 64 ((if q.progress < target.toNat then 2 ^ 63 else 0) + 2 ^ 48 * min q.drops 0x7FFF + q.progress % 2 ^ 48)

/-- A waiting hart's instruction ends: rd is written and the pc moves on. -/
def State.hartDone (s : State) (h rd : Nat) (v : Word) : State :=
  let x := s.hart h
  s.setHart h { (x.wr rd v) with pc := x.pc + 4, wait := .none }

/-- The harts whose binding is a continuation, in ascending order. -/
def State.hartsOf (s : State) (k : Nat) : List Nat := (s.harts.filter (fun (_, h) => decide (h.binding = k))).map Prod.fst

/-- End every CJOIN whose condition holds (R94). -/
def State.checkJoins (s : State) (k : Nat) : State :=
  match s.conts.find? k with
  | none => s
  | some q =>
    (s.hartsOf k).foldl (fun s h =>
      match (s.hart h).wait with
      | .join rd target _ =>
        if target.toNat ≤ q.progress ∨ q.st = .killing ∨ q.st = .dead then s.hartDone h rd (joinWord q target) else s
      | _ => s) s

/-- XP becomes 1: every waiting CJOIN executes afresh (R88, R94). -/
def State.raiseXp (s : State) (k : Nat) : State :=
  let hs := (s.hartsOf k).filter (fun h => match (s.hart h).wait with | .join _ _ _ => true | _ => false)
  let s := hs.foldl (fun s h => s.setHart h { (s.hart h) with wait := .none }) (s.modCont k (fun q => { q with xp := true }))
  s.soon (hs.map Turn.hart)

/-- PROGRESS rises by `n`, saturating as every counter (R76, R100, R335). -/
def State.progressAdd (s : State) (k n : Nat) : State :=
  if n = 0 then s
  else ((s.setCont k (fun q => { q with progress := min (q.progress + n) (2 ^ 64 - 1) })).touch (.glob .K) (k + 0x18)).checkJoins k

/-- DROPS rises by one, saturating (R75, R126). -/
def State.dropsAdd (s : State) (k : Nat) : State :=
  s.setCont k (fun q => { q with drops := min (q.drops + 1) (2 ^ 64 - 1) })

/-! ### Attention (R86, R161) -/

/-- Interrupt 20 on the partition's steering hart, if one is named; one that waits in CJOIN may take it (R94). -/
def State.raiseAttention (s : State) (p : Nat) : State :=
  let h := (s.part p).hart
  if h < 192 then
    let s := s.setHart h { (s.hart h) with sipBits := (s.hart h).sipBits ||| BitVec.ofNat 64 (2 ^ 20) }
    match (s.hart h).wait with
    | .join _ _ _ => s.soon [.hart h]
    | _ => s
  else s

/-- Write the attention entries that wait, oldest first, while the next entry is free. -/
def State.attend (s : State) (p : Nat) : Nat → State
  | 0 => s
  | n + 1 =>
    let x := s.part p
    match x.waiting with
    | [] => s
    | (k, cause) :: rest =>
      let at' := x.ring + 8 * x.next
      if x.ring = 0 ∨ s.mem.num at' 8 / 2 ^ 7 % 2 = 1 then s
      else
        let s := s.putNum at' (k / 256 * 256 % 2 ^ 56 + 2 ^ 7 + cause)
        ((s.modPart p (fun x => { x with next := (x.next + 1) % 256, waiting := rest })).raiseAttention p).attend p n

/-- A resolvable fault asks for an attention entry. -/
def State.attention (s : State) (p k cause : Nat) : State :=
  (s.modPart p (fun x => { x with waiting := x.waiting ++ [(k, cause)] })).attend p ((s.part p).waiting.length + 1)

/-! ### Recording a fault (R78, R79) -/

/-- Whether a fault class is sent as attention: resolvable, or a stream fetch fault. -/
def FRec.resolvable (f : FRec) : Bool := f.cls == 1 || (f.cls == 3 && f.cause == cSTREAM_FETCH_FAULT)

/-- FAULTQ's delivery, once the engine has recorded its fault (R442). -/
def State.faultTold (s : State) (f : FRec) : State :=
  match f.posted with
  | some (id, reg) => s.answerLan f.core id reg 0 stOK
  | none => s

/-- The stream is held (R119): it takes no step until it is released. -/
def Stream.hold (t : Stream) : Stream :=
  if t.st == .fetchFault || t.st == .bad || t.st == .held then t else { t with was := t.st, st := .held }
/-- The release of a held stream. -/
def Stream.release (t : Stream) : Stream := if t.st == .held then { t with st := t.was } else t

/-- The engine records a fault as the one its continuation holds: the record and AP are written back, then comes the attention
entry (R360). -/
def State.holdFault (s : State) (k : Nat) (f : FRec) : State :=
  match s.conts.find? k with
  | none => s
  | some q =>
    let s := s.modCont k (fun q => { q with fault := some f, st := .faulted, ap := q.ap || f.resolvable, stream := q.stream.hold })
    let s := if f.resolvable then (s.syncBlock k).attention q.part k f.cause else (s.raiseXp k).syncBlock k
    s.faultTold f

/-- A fault of a continuation: recorded, or held behind the one recorded; of two in one cycle the unrecoverable one is
recorded, and the resolvable one gets its attention entry all the same (R78). -/
def State.fault (s : State) (k : Nat) (f : FRec) : State :=
  match s.conts.find? k with
  | none => s
  | some q =>
    match q.st, q.fault with
    | .killing, _ | .dead, _ | .free, _ => s
    | .parked, _ | .orphaned, _ => s.modCont k (fun q => { q with later := q.later ++ [f] })
    | .faulted, some g =>
      if g.time = s.cyc ∧ g.resolvable ∧ !f.resolvable then
        (s.modCont k (fun q => { q with later := g :: q.later })).holdFault k f
      else if g.time = s.cyc ∧ !g.resolvable ∧ f.resolvable then
        ((s.setCont k (fun q => { q with later := q.later ++ [f], ap := true }))).attention q.part k f.cause
      else s.modCont k (fun q => { q with later := q.later ++ [f] })
    | _, _ => if q.parking then s.modCont k (fun q => { q with later := q.later ++ [f] }) else s.holdFault k f

/-- The fault record of a core's task. -/
def State.frecOf (s : State) (c cls cause slot : Nat) (addr fpca : Word) (obj : FObj) : FRec :=
  { cls := cls, cause := cause, slot := slot, core := c, flid := ((s.launchOf? c).map Launch.lid).getD 0
    addr := addr, fpca := fpca, time := s.cyc, obj := obj }

/-- The class that R78 gives a cause. -/
def classOf (cause : Nat) : Nat := if Sys2Proof.Machine.resolvable cause then 1 else 2

end Sys2Proof.Machine
end

