-- ==== Sys2Proof/Machine/CopyOps.lean ====
section
/-! DEFINITION. Copy transfers (R284 to R301): the program, its checks, the blocks of the nest, the end of a transfer. -/
namespace Sys2Proof.Machine

/-! ### The program (R284 to R287) -/

def progW (p : List Word) (i : Nat) : Word := nth 0 p i
def cpCtrl (p : List Word) : Nat := (progW p 2).toNat
/-- B, the bytes of a block. -/
def cpB (p : List Word) : Nat := 16 * (fld (cpCtrl p) 8 8 + 1)
def cpKind (p : List Word) (dst : Bool) : Nat := if dst then fld (cpCtrl p) 4 3 else fld (cpCtrl p) 0 3
def cpScope (p : List Word) : Nat := fld (cpCtrl p) 16 3
def cpCvt (p : List Word) : Bool := decide (fld (cpCtrl p) 20 1 = 1)
def cpStype (p : List Word) : Option VTy := VTy.ofCode (fld (cpCtrl p) 24 4)
def cpCrypt (p : List Word) : Nat := fld (cpCtrl p) 28 2
/-- The count of level `k`, 1 to 5. -/
def cpCount (p : List Word) (k : Nat) : Nat := fld (progW p 3).toNat (12 * (k - 1)) 12 + 1
/-- The blocks of the nest. -/
def cpTotal (p : List Word) : Nat := cpCount p 1 * cpCount p 2 * cpCount p 3 * cpCount p 4 * cpCount p 5
/-- The stride of level `k` of a side. -/
def cpStride (p : List Word) (dst : Bool) (k : Nat) : Word := progW p ((if dst then 8 else 3) + k)
def cpBase (p : List Word) (dst : Bool) : Word := progW p (if dst then 1 else 0)
def cpTid (p : List Word) (dst : Bool) : Nat := fld (cpBase p dst).toNat 0 6
def cpTag (p : List Word) : Nat := (progW p 15).toNat

/-- The index of level `k` at position `pos`; level 1 varies fastest (R287). -/
def cpIndex (p : List Word) (pos k : Nat) : Nat :=
  pos / ((upto 1 (k - 1)).foldl (fun n j => n * cpCount p j) 1) % cpCount p k

/-- Where a side's block at position `pos` lies: bytes, or an element index for a tensor. -/
def cpAt (p : List Word) (dst : Bool) (pos : Nat) : Word :=
  let base := if cpKind p dst = 4 then BitVec.ofNat 64 (fld (cpBase p dst).toNat 16 48) else cpBase p dst
  (upto 1 5).foldl (fun a k => a + BitVec.ofNat 64 (cpIndex p pos k) * cpStride p dst k) base

/-- The least and the greatest first byte or element of a side's blocks. -/
def cpExtent (p : List Word) (dst : Bool) : Int × Int :=
  let base : Int := if cpKind p dst = 4 then fld (cpBase p dst).toNat 16 48 else (cpBase p dst).toNat
  (upto 1 5).foldl (fun (lo, hi) k =>
    let d : Int := ((cpCount p k : Int) - 1) * (cpStride p dst k).toInt
    (lo + min 0 d, hi + max 0 d)) (base, base)

/-- The bits of an element of a block, as a tensor side or a conversion counts them. -/
def cpWidth (p : List Word) (ts td : Tid) : Nat :=
  if cpCvt p then (cpStype p).elim 8 VTy.width
  else if cpKind p false = 4 then ts.fmt.width else if cpKind p true = 4 then td.fmt.width else 8
/-- The elements of a block. -/
def cpElems (p : List Word) (ts td : Tid) : Nat := 8 * cpB p / cpWidth p ts td

/-- The conversions of R287. -/
def cpCvtOk (p : List Word) (td : Tid) : Bool :=
  match cpStype p, td.fmt? with
  | some .i32, some .i8 => true
  | some s, some f => decide (f ≠ .i8 ∧ f ≠ .cb4) && !s.isInt && (match s.cls with | .F => true | .S => true | _ => false)
  | _, _ => false

/-! ### The checks of CPGO (R289) -/

/-- Whether a predicate holds of every number below `n`, asked from the top. -/
def allBelow (f : Nat → Bool) : Nat → Bool
  | 0 => true
  | n + 1 => f n && allBelow f n

def cpBadDescriptor (p : List Word) (td : Tid) : Bool :=
  let c := cpCtrl p
  let side (d : Bool) : Bool :=
    let k := cpKind p d
    decide (5 ≤ k) || (if k = 4 then decide (fld (cpBase p d).toNat 6 10 ≠ 0)
      else decide ((cpBase p d).toNat % 16 ≠ 0) || (upto 1 5).any (fun j => decide ((cpStride p d j).toNat % 16 ≠ 0)))
  let tensor := decide (cpKind p false = 4 ∨ cpKind p true = 4)
  decide (fld c 30 34 ≠ 0 ∨ fld c 21 3 ≠ 0 ∨ fld c 19 1 ≠ 0 ∨ fld c 7 1 ≠ 0 ∨ fld c 3 1 ≠ 0 ∨ fld (progW p 3).toNat 60 4 ≠ 0
    ∨ 6 ≤ cpScope p) || side false || side true || decide (cpKind p false = 4 ∧ cpKind p true = 4)
    || (cpCvt p && (decide (cpKind p true ≠ 4) || !cpCvtOk p td)) || decide (cpCrypt p = 3)
    || (decide (cpCrypt p ≠ 0) && (tensor || cpCvt p)) || decide (cpTag p % 16 ≠ 0)

/-- The core that a cluster or window address names. -/
def remoteCore (c kind : Nat) (a : Word) : Nat :=
  if kind = 2 then memberCore (clusterOf c) (a.toNat / 2 ^ 20 % 32) else ldrCore a

/-- The share check of R255 or R278 for a block of a remote side. -/
def State.remoteOk (s : State) (c kind : Nat) (a : Word) (n : Nat) : Bool :=
  let m := remoteCore c kind a
  let o := a.toNat % 2 ^ 20
  if kind = 2 then decide (m = c) || (s.sameTeam c m && s.inShared m o n) else s.sameCont c m && s.inShared m o n

/-- CPGO's checks in the order of R289. -/
def State.cpCheck (s : State) (c : Nat) (p : List Word) (key : Option Word) : Chk :=
  let ts := s.tid c (cpTid p false)
  let td := s.tid c (cpTid p true)
  let sides : List (Bool × Nat × Tid) := [(false, cpKind p false, ts), (true, cpKind p true, td)]
  let b := cpB p
  let n := cpElems p ts td
  let out (d : Bool) (len top : Nat) : Bool :=
    let (lo, hi) := cpExtent p d
    decide (lo < 0 ∨ (top : Int) < hi + len)
  let form (k : Nat) (a : Word) : Bool := decide (a.toNat / 2 ^ (if k = 2 then 25 else 31) = 0 ∧ a.toNat % 2 ^ 20 + b ≤ spadTop)
  (trapIf (cpBadDescriptor p td) cCOPY_DESCRIPTOR).or
    ((trapIf (sides.any (fun (_, k, t) => decide (k = 4) && t.st == .empty)) cTID_INVALID).or
      ((trapIf (sides.any (fun (d, k, t) => decide (k = 4)
          && (decide (8 * b % cpWidth p ts td ≠ 0) || out d n (t.rows * t.cols)))) cTID_GEOMETRY).or
        ((firstOf (fun (d, k, _) => trapIf (decide (k = 0) && out d b (2 ^ 56)) cADDRESS_RANGE (cpBase p d)) sides).or
          ((firstOf (fun (d, k, _) =>
              (trapIf (decide (k = 1) && out d b spadTop) cSCRATCH_RANGE (cpBase p d)).or
                (trapIf (decide (k = 2 ∨ k = 3) && !allBelow (fun i => form k (cpAt p d i)) (cpTotal p)) cSCRATCH_RANGE (cpBase p d))) sides).or
            ((trapIf (decide (cpCrypt p ≠ 0 ∧ cpTag p + 16 > spadTop)) cSCRATCH_RANGE (progW p 15)).or
              ((firstOf (fun (d, k, _) => trapIf (decide (k = 2 ∨ k = 3)
                  && !allBelow (fun i => s.remoteOk c k (cpAt p d i) b) (cpTotal p)) cREMOTE_SCRATCH_DENIED (cpBase p d)) sides).or
                (trapIf (decide (cpCrypt p ≠ 0) && key.isNone) cKEY_HANDLE_INVALID)))))))

/-! ### Global memory on the copy paths (R262, R291, R305) -/

/-- Where the bytes of a global access of a copy or porter lie: pieces with their attributes, a fault, or a region to
be waited for. -/
inductive Xlate where
  | ok (ps : List (Piece × Attr))
  | fault (cause : Nat) (addr : Word)
  | wait (pa va : Nat)
  deriving DecidableEq, Repr

/-- Translate one stretch for core `c`'s copy paths. -/
def State.xlateOne (s : State) (c off va n : Nat) (store : Bool) : Xlate :=
  let a := BitVec.ofNat 64 va
  match s.walk (some (dieOf c)) (s.atpOf c) va false store with
  | .fault cause _ => .fault cause a
  | .ok e =>
    let pa := e.phys va
    if store ∧ e.attr = .K then .fault cCOUNTER_PAGE_MISUSE a
    else if !inHbm (pa + (n - 1)) then .fault cPAGE_PROTECTION a
    else if !s.owned pa then .wait pa va
    else match s.slotCheck c (servingDie c e.attr pa) a with
      | .trap cause a => .fault cause a
      | _ => .ok [({ off := off, pa := pa, len := n }, e.attr)]

/-- Translate a whole access. -/
def State.xlate (s : State) (c va n : Nat) (store : Bool) : Xlate :=
  (spansOf 0 va n).foldl (fun r (off, v, k) =>
    match r with
    | .ok ps => match s.xlateOne c off v k store with
      | .ok qs => .ok (ps ++ qs)
      | x => x
    | x => x) (.ok [])

/-- The bytes at pieces of global memory, as core `c`'s die sees them. -/
def State.rdPieces (s : State) (c : Nat) (ps : List (Piece × Attr)) : List Byte :=
  ps.flatMap (fun (p, a) => (upto 0 p.len).map (fun i => s.rdPlace c (.glob a) (p.pa + i)))

/-- Store bytes at pieces of global memory. -/
def State.wrPieces (s : State) (c : Nat) (ps : List (Piece × Attr)) (bs : List Byte) : State :=
  ps.foldl (fun s (p, a) => s.wrPlace c (.glob a) p.pa (p.data bs)) s

/-- Whether pieces hold an uncorrectable word (R433). -/
def State.badPieces (s : State) (ps : List (Piece × Attr)) : Bool :=
  ps.any (fun (p, _) => s.unc.any (fun w => decide (w * 8 < p.pa + p.len ∧ p.pa < (w + 1) * 8)))

/-- A copy or porter waits for a region. -/
def State.wantRegion (s : State) (pa : Nat) : State :=
  { s with regions := s.regions.put (pa / 2 ^ 21) { (s.region pa) with wantA := true } }

/-! ### Blocks -/

/-- What one side of a block gives. -/
inductive Side where
  | bytes (bs : List Byte)
  | fault (cause : Nat) (addr : Word)
  | data (addr : Word)
  | wait (pa va : Nat)
  deriving DecidableEq, Repr

/-- The elements of a tensor from index `e` on, packed (R286). -/
def State.tensorGet (s : State) (c : Nat) (t : Tid) (e n : Nat) : List Byte :=
  let w := t.fmt.width
  let v := packGo w ((upto e n).map (fun i => t.elem ((s.spad c).rd) (i / t.cols) (i % t.cols)))
  toBytesLE (n * w / 8) v

/-- Write one element of a tensor; a cb4 element keeps the other half of its byte. -/
def State.tensorPut (s : State) (c : Nat) (t : Tid) (e v : Nat) : State :=
  let o := t.byteOf (e / t.cols) (e % t.cols)
  if t.fmt = .cb4 then
    let old := ((s.spad c).rd o).toNat
    let sh := 16 ^ (e % t.cols % 2)
    s.modSpad c (fun m => m.wr o (BitVec.ofNat 8 (old - old / sh % 16 * sh + v % 16 * sh)))
  else s.modSpad c (fun m => m.wrN o (toBytesLE (t.fmt.width / 8) v))

/-- The source bytes of a block. -/
def State.blockGet (s : State) (c : Nat) (x : Xfer) : Side :=
  let a := cpAt x.prog false x.pos
  let b := cpB x.prog
  match cpKind x.prog false with
  | 0 =>
    match s.xlate c a.toNat b false with
    | .ok ps => if s.badPieces ps then .data a else .bytes (s.rdPieces c ps)
    | .fault cause v => .fault cause v
    | .wait pa va => .wait pa va
  | 1 => .bytes ((s.spad c).rdN a.toNat b)
  | 4 => .bytes (s.tensorGet c x.src a.toNat (cpElems x.prog x.src x.dst))
  | k =>
    if s.remoteOk c k a b then .bytes ((s.spad (remoteCore c k a)).rdN (a.toNat % 2 ^ 20) b) else .data a

/-- One element converted (R287). -/
def cpConvert (s : VTy) (d : MFmt) (v : Nat) : Nat :=
  if d = .i8 then ((max (-128) (min 127 (VTy.i32.val v))) % 256).toNat else (fcvt s.fmt d.fmt .rne v).1

/-- Element values of a block for a tensor destination. -/
def cpValues (x : Xfer) (bs : List Byte) : List Nat :=
  let w := cpWidth x.prog x.src x.dst
  let n := ofBytesLE bs
  let vs := (upto 0 (cpElems x.prog x.src x.dst)).map (fun i => n / 2 ^ (w * i) % 2 ^ w)
  match cpCvt x.prog, cpStype x.prog with
  | true, some st => vs.map (cpConvert st x.dst.fmt)
  | _, _ => vs

/-- Write a block at its destination; none: it was written, with the state after it. -/
def State.blockPut (s : State) (c : Nat) (x : Xfer) (bs : List Byte) : Option Side × State :=
  let a := cpAt x.prog true x.pos
  match cpKind x.prog true with
  | 0 =>
    match s.xlate c a.toNat bs.length true with
    | .ok ps => (none, s.wrPieces c ps bs)
    | .fault cause v => (some (.fault cause v), s)
    | .wait pa va => (some (.wait pa va), s)
  | 1 => (none, s.modSpad c (fun m => m.wrN a.toNat bs))
  | 4 =>
    let vs := cpValues x bs
    (none, (List.zip (upto a.toNat vs.length) vs).foldl (fun s (e, v) => s.tensorPut c x.dst e v) s)
  | k =>
    if s.remoteOk c k a bs.length then
      (none, s.modSpad (remoteCore c k a) (fun m => m.wrN (a.toNat % 2 ^ 20) bs))
    else (some (.data a), s)

/-- The key of a handle, as the bytes of AES-256. -/
def State.keyBytes (s : State) (h : Word) : List Nat :=
  match s.mod.keys.find? (fun k => decide (k.handle = h)) with
  | some k => toBytesBE 32 k.bits.toNat
  | none => List.replicate 32 0

/-- A block's bytes as the transfer writes them: encrypted or decrypted under its key (R288). -/
def State.cryptBlock (s : State) (x : Xfer) (bs : List Byte) : List Byte :=
  match cpCrypt x.prog, x.key with
  | 0, _ => bs
  | _, none => bs
  | _, some h =>
    let ks := roundKeys (s.keyBytes h)
    (gcmCrypt ks (progW x.prog 14) x.id (bs.length / 16) (x.pos * (bs.length / 16)) (bs.map BitVec.toNat)).map (BitVec.ofNat 8)

/-- Change a transfer of a core. -/
def State.modXfer (s : State) (c ch id : Nat) (f : Xfer → Xfer) : State :=
  s.modUsr c (fun u => { u with xfers := u.xfers.map (fun x => if x.ch = ch ∧ x.id = id then f x else x) })

def User.xfer? (u : User) (ch id : Nat) : Option Xfer := u.xfers.find? (fun x => decide (x.ch = ch ∧ x.id = id))

/-- The limit of a wait for a region (R261). -/
def ownLimit : Nat := 120000

/-- A block meets a fault or a wait. -/
def State.blockStop (s : State) (c : Nat) (x : Xfer) : Side → State
  | .fault cause a => (s.modXfer c x.ch x.id (fun x => { x with cause := cause, fault := a, cells := none })).soon [.event (.transferElementFault c x.ch x.id)]
  | .data a => (s.modXfer c x.ch x.id (fun x => { x with cause := cCOPY_FAULT, fault := a, cells := none })).soon [.event (.transferDataFault c x.ch x.id)]
  | .wait pa va =>
    let since := x.wait.getD s.cyc
    if s.cyc - since > ownLimit then
      (s.modXfer c x.ch x.id (fun y => { y with cause := cOWNERSHIP_TIMEOUT, fault := BitVec.ofNat 64 va, wait := none })).soon
        [.event (.transferElementFault c x.ch x.id)]
    else (s.modXfer c x.ch x.id (fun x => { x with wait := some since })).wantRegion pa
  | .bytes _ => s

/-- The global pieces of a transfer's next block, as far as they translate. -/
def State.blockPieces (s : State) (c : Nat) (x : Xfer) : List (Piece × Attr) :=
  let side (dst : Bool) (n : Nat) : List (Piece × Attr) :=
    if cpKind x.prog dst = 0 then (match s.xlate c (cpAt x.prog dst x.pos).toNat n dst with | .ok ps => ps | _ => []) else []
  (if x.zeroing then [] else side false (cpB x.prog)) ++ side true (cpB x.prog)

/-- Whether pieces need a cell that core `c`'s launch can never have (R164). -/
def State.cellBad (s : State) (c : Nat) (ps : List (Piece × Attr)) : Bool :=
  ps.any (fun (p, a) => (reqDies c a p).any (fun d => match s.slotCheck c d 0 with | .trap _ _ => true | _ => false))

/-- The requests of pieces. -/
def State.cellAsk (s : State) (c : Nat) (ps : List (Piece × Attr)) : CellReq × State :=
  let (id, s) := s.newId
  ({ id := id, reqs := ps.flatMap (fun (p, a) => reqDies c a p), ready := s.cyc }, s)

/-- A transfer in flight asks for the cells of its next block; whether it may go on. -/
def State.copyAsk (s : State) (c ch id : Nat) : Bool × State :=
  match (s.usr c).xfer? ch id with
  | none => (false, s)
  | some x =>
    match x.st, x.cells, decide (x.pos < cpTotal x.prog) with
    | .inFlight, some r, true => (r.reqs.isEmpty, s)
    | .inFlight, none, true =>
      let ps := s.blockPieces c x
      if ps.isEmpty then (true, s)
      else if s.cellBad c ps then (false, s.blockStop c x (.fault cSLOT_TABLE_VIOLATION (cpAt x.prog (cpKind x.prog false ≠ 0) x.pos)))
      else
        let (r, s) := s.cellAsk c ps
        (r.reqs.isEmpty, s.modXfer c ch id (fun x => { x with cells := some r }))
    | _, _, _ => (false, s)

/-- Write zero over the destination from a transfer's position on (R288): `n` blocks, or until one meets a fault or a
wait, where the transfer stops. The answer says whether all are written. -/
def State.zeroDst (s : State) (c : Nat) (x : Xfer) : Nat → Bool × State
  | 0 => (true, s.modXfer c x.ch x.id (fun y => { y with pos := x.pos, zeroing := true, wait := none, cells := none }))
  | n + 1 =>
    match s.blockPut c x (List.replicate (cpB x.prog) 0) with
    | (none, s) => s.zeroDst c { x with pos := x.pos + 1, wait := none } n
    | (some stop, s) =>
      (false, (s.modXfer c x.ch x.id (fun y => { y with pos := x.pos, zeroing := true, cells := none })).blockStop c x stop)

/-- The scratchpads of a block are awake (R269). -/
def State.copyWakes (s : State) (c : Nat) (x : Xfer) : State :=
  [false, true].foldl (fun (s : State) (dst : Bool) => match cpKind x.prog dst with
    | 0 => s
    | 1 | 4 => s.awaken c
    | k => s.awaken (remoteCore c k (cpAt x.prog dst x.pos))) s

/-- The next block of a transfer in flight moves (R287). -/
def State.copyMove1 (s : State) (c ch id : Nat) : State :=
  match (s.usr c).xfer? ch id with
  | none => s
  | some x =>
    if x.st ≠ .inFlight ∨ cpTotal x.prog ≤ x.pos then s
    else
    let s := s.copyWakes c x
    if x.zeroing then (s.zeroDst c x (cpTotal x.prog - x.pos)).2
    else match s.blockGet c x with
      | .bytes bs =>
        let out := s.cryptBlock x bs
        match s.blockPut c x out with
        | (none, s) =>
          let cipher := match cpCrypt x.prog with | 0 => [] | 1 => out | _ => bs
          s.modXfer c ch id (fun x => { x with pos := x.pos + 1, wait := none, cells := none, acc := x.acc ++ cipher })
        | (some stop, s) => s.blockStop c x stop
      | stop => s.blockStop c x stop

/-- A transfer in flight moves its next block once its requests are accepted, and asks for the cells of the one after. -/
def State.copyBlock (s : State) (c ch id : Nat) : State :=
  match s.copyAsk c ch id with
  | (true, s) =>
    let s' := s.copyMove1 c ch id
    if (match (s.usr c).xfer? ch id, (s'.usr c).xfer? ch id with | some x, some y => decide (x.pos < y.pos) | _, _ => false)
    then (s'.copyAsk c ch id).2 else s'
  | (false, s) => s

/-! ### The end of a transfer (R290, R291) -/

/-- The CPFENCEs of a core whose predecessors are complete deliver (R300). -/
def State.cpFencesDone (s : State) (c : Nat) : State :=
  let u := s.usr c
  let done (w : CpWait) : Bool := w.onto.all (fun (ch, id) => (u.xfer? ch id).isNone)
  let s := s.modUsr c (fun u => { u with cpwaits := u.cpwaits.filter (fun w => !done w) })
  (u.cpwaits.filter done).foldl (fun s w => s.deliverNow c false w.op w.reg 0 stOK) s

/-- A transfer ends: its token becomes full with its identifier, and a trap after that where one is due. -/
def State.xferEnd (s : State) (c : Nat) (x : Xfer) (st : Status) (trap : Option Nat := none) : State :=
  let s := s.modUsr c (fun u => { u with xfers := u.xfers.filter (fun y => decide (¬ (y.ch = x.ch ∧ y.id = x.id))) })
  (s.send c { id := x.op, reg := x.reg, val := .sc (BitVec.ofNat 64 x.id), tag := st, due := s.cyc, trap := trap, slot := 6, pc := x.pc }).cpFencesDone c

/-- Every unfinished transfer that meets a condition becomes ABORTED (R291, R299); how many. -/
def State.abortXfers (s : State) (c : Nat) (f : Xfer → Bool) : Nat × State :=
  let xs := (s.usr c).xfers.filter f
  (xs.length, xs.foldl (fun s x => s.xferEnd c x stABORTED) s)

/-- The transfers of a channel that hold an in-flight place. -/
def User.placed (u : User) (ch : Nat) : Nat := (u.xfers.filter (fun x => decide (x.ch = ch) && (x.st == .inFlight || x.st == .faulted))).length

/-- Whether a transfer can start (R290, R291, R293): a free place, its predecessors complete, not held, first of the
ISSUED ones of its channel, and every access of the core before its issue point performed (R326). -/
def State.xferReady (s : State) (c : Nat) (x : Xfer) : Bool :=
  let u := s.usr c
  x.st == .issued && !x.held && decide (u.placed x.ch < 4)
    && x.preds.all (fun (ch, id) => (u.xfer? ch id).isNone)
    && !u.xfers.any (fun y => decide (y.ch = x.ch ∧ y.op < x.op) && y.st == .issued)
    && !s.undone c x.point 3 4

/-- TRANSFER_START (R291). -/
def State.xferStart (s : State) (c ch id : Nat) : State :=
  match (s.usr c).xfer? ch id with
  | some x => if s.xferReady c x then s.modXfer c ch id (fun x => { x with st := .inFlight }) else s
  | none => s
/-- TRANSFER_COMPLETE (R288, R291): with encryption the tag is written, with decryption it is compared. -/
def State.xferComplete (s : State) (c ch id : Nat) : State :=
  match (s.usr c).xfer? ch id with
  | none => s
  | some x =>
    if x.st ≠ .inFlight ∨ x.pos < cpTotal x.prog then s
    else if x.zeroing then s.xferEnd c x stERROR (some cCRYPTO_AUTH_FAIL)
    else
      let tag : List Byte := match x.key with
        | some h => (gcmTag (roundKeys (s.keyBytes h)) (progW x.prog 14) x.id (x.acc.map BitVec.toNat)).map (BitVec.ofNat 8)
        | none => []
      match cpCrypt x.prog with
      | 1 => ((s.awaken c).modSpad c (fun m => m.wrN (cpTag x.prog) tag)).xferEnd c x stOK
      | 2 =>
        let s := s.awaken c
        if (s.spad c).rdN (cpTag x.prog) 16 = tag then s.xferEnd c x stOK
        else match s.zeroDst c { x with pos := 0 } (cpTotal x.prog) with
          | (true, s) => s.xferEnd c x stERROR (some cCRYPTO_AUTH_FAIL)
          | (false, s) => s
      | _ => s.xferEnd c x stOK

/-- A transfer pauses at a faulting element, or at a data fault, and the fault is recorded (R291, R292). -/
def State.xferFault (s : State) (c ch id : Nat) : State :=
  match (s.usr c).xfer? ch id, s.launchOf? c with
  | some x, some l =>
    if x.st ≠ .inFlight ∨ x.cause = 0 then s
    else
      let s := s.modXfer c ch id (fun x => { x with st := .faulted })
      s.fault l.block (s.frecOf c (classOf x.cause) x.cause 6 x.fault x.pc (.xfer (s.taskKey c).1 (s.taskKey c).2 ch id))
  | _, _ => s

/-! ### Triggers (R296 to R301) -/

/-- The fault of a transfer of one kind: a data fault, whose cause is COPY_FAULT, or an element fault (R291). -/
def State.xferFaultIf (s : State) (c ch id : Nat) (data : Bool) : State :=
  match (s.usr c).xfer? ch id with
  | some x => if decide (x.cause = cCOPY_FAULT) == data then s.xferFault c ch id else s
  | none => s

/-- Whether a designator of the copy unit is used by an operation. -/
def cpDelivers (o : Op) : Bool := match o with | .cpset | .cpkey => false | _ => true

def State.chan (s : State) (c ch : Nat) : Chan := nth {} (s.usr c).chans ch
def State.modChan (s : State) (c ch : Nat) (f : Chan → Chan) : State := s.modUsr c (fun u => { u with chans := setAt u.chans ch (f (nth {} u.chans ch)) })

/-- Whether the Canister accepts a handle for a partition's copies (R301, R448). -/
def State.keyOk (s : State) (h : Word) (p : Nat) : Bool :=
  s.mod.keys.any (fun k => decide (k.handle = h ∧ fld h.toNat 60 4 = p ∧ fld h.toNat 58 2 = 0) && k.valid)

/-- The trigger-time checks of the copy instructions. -/
def State.copyCheck (s : State) (t : Trig) : Chk :=
  let n := t.a.toNat
  let b := t.b.toNat
  let ill (x : Bool) : Chk := trapIf x cILLEGAL_PORT
  match t.op with
  | .cpset => ill (decide (b / 2 ^ 6 ≠ 0))
  | .cpgo =>
    (ill (decide (n / 4 ≠ 0))).or ((sDesignator t.d).or ((s.cpCheck t.c (s.chan t.c n).prog (s.chan t.c n).key).or
      (if ((s.usr t.c).xfers.filter (fun x => decide (x.ch = n))).length < 16 then .ok else .wait)))
  | .cpstat => (ill (decide (n / 16 ≠ 0))).or (sDesignator t.d)
  | .cpabrt => (ill (decide (n / 8 ≠ 0 ∨ (n / 4 = 1 ∧ n % 4 ≠ 0)))).or (sDesignator t.d)
  | .cpfence => (ill (decide (n / 256 ≠ 0))).or (sDesignator t.d)
  | _ =>
    (ill (decide (b / 8 ≠ 0))).or
      (trapIf (!t.b.getLsbD 2 && !s.keyOk t.a (((s.launchOf? t.c).map Launch.part).getD 16)) cKEY_HANDLE_INVALID t.a)

/-- CPSTAT's value (R298). -/
def State.cpstatVal (s : State) (c ch sel : Nat) : Word × Status :=
  let xs := (s.usr c).xfers.filter (fun x => decide (x.ch = ch))
  let newest := ((s.chan c ch).next + 2 ^ 48 - 1) % 2 ^ 48
  match sel with
  | 0 => (BitVec.ofNat 64 (match xs with | [] => newest | x :: t => t.foldl (fun m y => min m y.id) x.id - 1), stOK)
  | 1 => (BitVec.ofNat 64 newest, stOK)
  | 2 => (BitVec.ofNat 64 xs.length, stOK)
  | _ => (0, stERROR)

/-- The unfinished transfers of the channels of a mask. -/
def User.ofMask (u : User) (m : Nat) : List (Nat × Nat) := (u.xfers.filter (fun x => m.testBit x.ch)).map (fun x => (x.ch, x.id))

/-- A copy trigger takes effect. Of a completion and an abort of one cycle the completion comes first (R291). -/
def State.copyRun (s : State) (t : Trig) : ArvWhen × State :=
  let n := t.a.toNat
  let b := t.b.toNat
  let now : ArvWhen := .cycle s.cyc
  match t.op with
  | .cpset => (now, s.modChan t.c (b / 16) (fun ch => { ch with prog := setAt ch.prog (b % 16) t.a }))
  | .cpgo =>
    let ch := s.chan t.c n
    let (id, s) := s.pend t t.d
    let u := s.usr t.c
    let x : Xfer :=
      { id := ch.next, ch := n, prog := ch.prog, reg := t.d, op := id, pc := t.pc, key := ch.key
        preds := (u.cpwaits.filter (fun w => w.succ.testBit n)).flatMap CpWait.onto
        point := id, held := !t.lan && u.inSeg, src := s.tid t.c (cpTid ch.prog false), dst := s.tid t.c (cpTid ch.prog true) }
    (.op id, (s.modUsr t.c (fun u => { u with xfers := u.xfers ++ [x] })).modChan t.c n (fun ch => { ch with next := (ch.next + 1) % 2 ^ 48 }))
  | .cpstat => let (v, st) := s.cpstatVal t.c (n % 4) (n / 4); s.deliverTrig t v st
  | .cpabrt =>
    let mine (x : Xfer) : Bool := decide (n / 4 = 1 ∨ x.ch = n % 4)
    let s := ((s.usr t.c).xfers.filter (fun x => mine x && x.st == .inFlight)).foldl (fun (s : State) (x : Xfer) => s.xferComplete t.c x.ch x.id) s
    let (k, s) := s.abortXfers t.c mine
    s.deliverTrig t (BitVec.ofNat 64 k) stOK
  | .cpfence =>
    let onto := (s.usr t.c).ofMask (n % 16)
    if onto.isEmpty then s.deliverTrig t 0 stOK
    else
      let (id, s) := s.pend t t.d
      (.op id, s.modUsr t.c (fun u => { u with cpwaits := u.cpwaits ++ [{ reg := t.d, op := id, onto := onto, succ := n / 16 }] }))
  | _ => (now, s.modChan t.c (b % 4) (fun ch => { ch with key := if t.b.getLsbD 2 then none else some t.a }))

end Sys2Proof.Machine
end

