-- ==== Sys2Proof/Machine/PorterOps.lean ====
section
/-! DEFINITION. The porters (R305 to R308): their instructions, block transfers, exceptions and faults, and the
triggers by which a core drives them. -/
namespace Sys2Proof.Machine

def State.porter (s : State) (c side : Nat) : Porter := nth {} (s.usr c).porters side
def State.modPorter (s : State) (c side : Nat) (f : Porter → Porter) : State :=
  s.modUsr c (fun u => { u with porters := setAt u.porters side (f (nth {} u.porters side)) })

def Porter.rd (p : Porter) (r : BitVec 5) : BitVec 32 := if r = 0 then 0 else rget 0 p.x r.toNat
def Porter.wr (p : Porter) (r : BitVec 5) (v : BitVec 32) : Porter := if r = 0 then p else { p with x := rset p.x r.toNat v }
/-- An instruction ends: rd is written, the pc moves on. -/
def Porter.done (p : Porter) (r : BitVec 5) (v : BitVec 32) : Porter := { (p.wr r v) with pc := p.pc + 4, one := none, since := none }

/-- The porter that executes, if the agent is one. -/
def State.porterActor (s : State) : Option (Nat × Nat) := match s.actor with | .porter c side => some (c, side) | _ => none

/-- A word of the instruction store; outside the program that placement copied its bytes are unspecified (log 1). -/
def Porter.fetch (p : Porter) (i : Nat) : BitVec 32 :=
  match p.store.find? i with
  | some w => w
  | none => BitVec.ofNat 32 (ofBytesLE ((upto 0 4).map (fun j => Config.freeByte p.sgen (4 * i + j))))

/-! ### Exceptions, faults and waits -/

/-- An exception: the porter's next event leaves it in ERROR (R305). -/
def State.porterTrap (s : State) (c side code : Nat) : State :=
  (s.modPorter c side (fun p => { p with trap := some code })).soon [.event (.porterException c side)]

/-- A fault of an access or block: the porter's next event pauses it (R306). -/
def State.porterStop (s : State) (c side cause : Nat) (a : Word) (store : Bool) : State :=
  (s.modPorter c side (fun p => { p with fault := some (cause, a, store) })).soon [.event (.porterFault c side)]

def State.porterWaits (s : State) (c side : Nat) : State := s.modPorter c side (fun p => { p with st := .waiting })

/-- The end of a program: the PSTART token, if one is owed (R308). A block at whose fault the porter ends is given up. -/
def State.porterEnd (s : State) (c side : Nat) (st : PortSt) (v cause : Nat) : State :=
  let p := s.porter c side
  let s := s.modPorter c side (fun p => { p with
    st := st, cause := cause, token := none, trap := none, fault := none, one := none, since := none
    blocks := if p.blockFault then p.blocks.drop 1 else p.blocks, blockFault := false })
  match p.token with
  | some (reg, id) => s.send c { id := id, reg := reg, val := .sc (BitVec.ofNat 64 v), tag := if st = .error then stERROR else stOK, due := s.cyc }
  | none => s

/-- PORTER_ECALL: the program ends (R305, R308). -/
def State.porterEcall (s : State) (c side : Nat) : State :=
  let p := s.porter c side
  if p.st = .running then s.porterEnd c side .idle (p.rd 10).toNat 0 else s

/-- PORTER_EXCEPTION: ERROR with the exception's code (R305). -/
def State.porterException (s : State) (c side : Nat) : State :=
  match (s.porter c side).trap with
  | some code => s.porterEnd c side .error code code
  | none => s

/-- PORTER_FAULT: the porter is FAULTED, and the fault recorded (R306). -/
def State.porterFault (s : State) (c side : Nat) : State :=
  let p := s.porter c side
  match p.fault, s.launchOf? c with
  | some (cause, a, _), some l =>
    if p.st = .faulted then s
    else
      let s := s.modPorter c side (fun p => { p with st := .faulted })
      let fpca := BitVec.ofNat 64 (2 ^ 63 + (if side = 1 then 2 ^ 62 else 0) + p.pc % 2 ^ 13)
      s.fault l.block (s.frecOf c (classOf cause) cause 6 a fpca (.porter (s.taskKey c).1 (s.taskKey c).2 side))
  | _, _ => s

/-! ### Global accesses -/

/-- The virtual address of a porter's global offset; ADDRESS_RANGE above 56 bits (R255). -/
def Porter.global (p : Porter) (off : BitVec 32) : Nat := p.gbase + off.toNat

/-- Translate a porter's access: with a region to wait for the access is tried again later. -/
def State.porterXlate (s : State) (c va n : Nat) (store : Bool) : Xlate :=
  if va + n > 2 ^ 56 then .fault cADDRESS_RANGE (BitVec.ofNat 64 va) else s.xlate c va n store

/-- A counter word of a porter's PCTR or PWAIT: its physical address, or the fault. -/
def State.porterCtr (s : State) (c va : Nat) (store : Bool) : Nat ⊕ (Nat × Word) :=
  let a := BitVec.ofNat 64 va
  if va + 8 > 2 ^ 56 then .inr (cADDRESS_RANGE, a)
  else match s.walk (some (dieOf c)) (s.atpOf c) va false store with
    | .fault cause _ => .inr (cause, a)
    | .ok e => if e.attr ≠ .K then .inr (cCOUNTER_PAGE_MISUSE, a) else .inl (e.phys va)

/-- A porter's access of its own asks for cells (R164); whether it may go on. -/
def State.porterAsk (s : State) (c side va : Nat) (store : Bool) (ps : List (Piece × Attr)) : Bool × State :=
  match (s.porter c side).one with
  | some r => (r.reqs.isEmpty, s)
  | none =>
    if s.cellBad c ps then (false, s.porterStop c side cSLOT_TABLE_VIOLATION (BitVec.ofNat 64 va) store)
    else
      let (r, s) := s.cellAsk c ps
      (r.reqs.isEmpty, s.modPorter c side (fun p => { p with one := some r }))

/-- A porter's access waits for a region, at most 120,000 package cycles (R261, R305). -/
def State.porterOwn (s : State) (c side pa va : Nat) (store : Bool) : State :=
  let since := (s.porter c side).since.getD s.cyc
  if ownLimit < s.cyc - since then
    (s.modPorter c side (fun p => { p with since := none })).porterStop c side cOWNERSHIP_TIMEOUT (BitVec.ofNat 64 va) store
  else (s.modPorter c side (fun p => { p with since := some since })).wantRegion pa

/-- The piece of a counter word. -/
def ctrPiece (pa : Nat) : List (Piece × Attr) := [({ off := 0, pa := pa, len := 8 }, .K)]

/-! ### Block transfers (R307) -/

/-- The porter stops at its oldest block. -/
def State.blockHalt (s : State) (c side cause : Nat) (a : Word) (out : Bool) : State :=
  (s.modPorter c side (fun p => { p with blockFault := true })).porterStop c side cause a out

/-- The oldest block `b` asks for its cells, waits for them, or moves its bytes, or the porter stops at it. The answer says
whether it is complete. -/
def State.moveBlock (s : State) (c side : Nat) (b : PBlock) : Bool × State :=
  let put (s : State) (b : PBlock) : State := s.modPorter c side (fun p => { p with blocks := b :: p.blocks.drop 1 })
  match s.porterXlate c b.ga b.len b.out with
  | .fault cause a => (false, s.blockHalt c side cause a b.out)
  | .wait pa va =>
    let since := b.since.getD s.cyc
    if ownLimit < s.cyc - since then (false, (put s { b with since := none }).blockHalt c side cOWNERSHIP_TIMEOUT (BitVec.ofNat 64 va) b.out)
    else (false, (put s { b with since := some since }).wantRegion pa)
  | .ok ps =>
    if b.cells.isNone then
      if s.cellBad c ps then (false, s.blockHalt c side cSLOT_TABLE_VIOLATION (BitVec.ofNat 64 b.ga) b.out)
      else
        let (r, s) := s.cellAsk c ps
        (false, put s { b with cells := some r })
    else if b.cells.any (fun r => !r.reqs.isEmpty) then (false, s)
    else
    let s := s.awaken c
    if b.out then (true, s.wrPieces c ps ((s.spad c).rdN b.lo b.len))
    else if s.badPieces ps then (false, s.blockHalt c side cCOPY_FAULT (BitVec.ofNat 64 b.ga) false)
    else (true, s.modSpad c (fun m => m.wrN b.lo (s.rdPieces c ps)))

/-- PORTER_BLOCK_COMPLETE: the oldest outstanding block transfer has moved its bytes. -/
def State.porterBlock (s : State) (c side : Nat) : State :=
  match (s.porter c side).blocks with
  | [] => s
  | b :: _ =>
    let p := s.porter c side
    if p.st = .faulted ∨ p.fault.isSome then s
    else match s.moveBlock c side b with
      | (true, s) =>
        let s := s.modPorter c side (fun p => { p with blocks := p.blocks.drop 1 })
        match (s.porter c side).blocks with
        | b :: _ => (s.moveBlock c side b).2
        | [] => s
      | (false, s) => s

/-- The bytes and the offset of a packed word. -/
def packOff (q : BitVec 32) : Nat := q.toNat % 2 ^ 20
def packCount (q : BitVec 32) : Nat := q.toNat / 2 ^ 20 + 1

/-- The exception of a block's operands, global offset and local offset, if they raise one: misaligned (R307), or outside
the scratchpad. -/
def blockTrap (off lo n : Nat) (out : Bool) : Option Nat :=
  if off % 16 ≠ 0 ∨ lo % 16 ≠ 0 then some (if out then 6 else 4)
  else if lo + n > spadTop then some (if out then 7 else 5)
  else none

/-- PLD and PST. -/
def State.porterCopy (s : State) (c side : Nat) (out : Bool) (rs2 rs1 rd : BitVec 5) : State :=
  let p := s.porter c side
  let q := p.rd rs2
  let n := 16 * packCount q
  match blockTrap (p.rd rs1).toNat (packOff q) n out with
  | some code => s.porterTrap c side code
  | none =>
    if 16 ≤ p.blocks.length then s.porterWaits c side
    else s.modPorter c side (fun p =>
      { (p.done rd 0) with blocks := p.blocks ++ [{ ga := p.global (p.rd rs1), lo := packOff q, len := n, out := out }] })

/-- PLDS. -/
def State.porterLoad (s : State) (c side : Nat) (rs1 rd : BitVec 5) : State :=
  let p := s.porter c side
  let va := p.global (p.rd rs1)
  if (p.rd rs1).toNat % 4 ≠ 0 then s.porterTrap c side 4
  else match s.porterXlate c va 4 false with
    | .fault cause a => s.porterStop c side cause a false
    | .wait pa v => (s.porterOwn c side pa v false).porterWaits c side
    | .ok ps => match s.porterAsk c side va false ps with
      | (false, s) => s.porterWaits c side
      | (true, s) => s.modPorter c side (fun p => p.done rd (BitVec.ofNat 32 (ofBytesLE (s.rdPieces c ps))))

/-- PGATH: its blocks are sent one by one, as the limit lets them. -/
def State.porterGather (s : State) (c side : Nat) (rs2 rs1 rd : BitVec 5) : State :=
  let p := s.porter c side
  let q := p.rd rs2
  let at' := (p.rd rs1).toNat
  let s := s.awaken c
  let word (i : Nat) : Nat := (s.spad c).num (at' + 4 * i) 4
  let g := word 0
  let i := p.sent + 1
  if at' % 4 ≠ 0 then s.porterTrap c side 4
  else if at' + 4 * (packCount q + 1) > spadTop then s.porterTrap c side 5
  else if g % 16 ≠ 0 ∨ g = 0 ∨ g > 4096 then s.porterTrap c side 4
  else match blockTrap (word i) (packOff q + p.sent * g) g false with
    | some code => s.porterTrap c side code
    | none =>
      if 16 ≤ p.blocks.length then s.porterWaits c side
      else
        let b : PBlock := { ga := p.global (BitVec.ofNat 32 (word i)), lo := packOff q + p.sent * g, len := g, out := false }
        s.modPorter c side (fun p =>
          let p := { p with blocks := p.blocks ++ [b], sent := i }
          if i = packCount q then { (p.done rd 0) with sent := 0 } else p)

/-- PCTR: after every earlier block transfer, an add with release at system scope, a bound one (R323). -/
def State.porterAdd (s : State) (c side : Nat) (rs2 rs1 rd : BitVec 5) : State :=
  let p := s.porter c side
  let va := p.global (p.rd rs1)
  if (p.rd rs1).toNat % 8 ≠ 0 then s.porterTrap c side 6
  else if !p.blocks.isEmpty then s
  else match s.porterCtr c va true with
    | .inr (cause, a) => s.porterStop c side cause a true
    | .inl pa =>
      if !s.owned pa then s.porterOwn c side pa va true
      else match s.porterAsk c side va true (ctrPiece pa) with
      | (false, s) => s
      | (true, s) =>
        let s := s.flushFor c va false
        let (old, _, s) := s.counterAdd pa (p.rd rs2).toNat
        s.modPorter c side (fun p => p.done rd (BitVec.ofNat 32 old))

/-- PWAIT: the counter has reached its value, and an acquire at system scope; else the porter waits. -/
def State.porterWait (s : State) (c side : Nat) (rs2 rs1 rd : BitVec 5) : State :=
  let p := s.porter c side
  let va := p.global (p.rd rs1)
  if (p.rd rs1).toNat % 8 ≠ 0 then s.porterTrap c side 4
  else match s.porterCtr c va false with
    | .inr (cause, a) => s.porterStop c side cause a false
    | .inl pa =>
      if !s.owned pa then (s.porterOwn c side pa va false).porterWaits c side
      else match s.porterAsk c side va false (ctrPiece pa) with
      | (false, s) => s.porterWaits c side
      | (true, s) =>
        let v := s.wordAt (.glob .K) pa
        if v < (p.rd rs2).toNat then s.porterWaits c side
        else
          (s.flushFor c va true).modPorter c side (fun p => { (p.done rd (BitVec.ofNat 32 v)) with st := .running })

/-- PTOK. -/
def State.porterToken (s : State) (c side : Nat) (rs2 rs1 rd : BitVec 5) : State :=
  let p := s.porter c side
  let reg := (p.rd rs1).toNat % 256
  match p.sigs.find? (fun g => decide (g.1 = reg)) with
  | some (_, id) =>
    if !p.blocks.isEmpty then s
    else
      (s.modPorter c side (fun p => { (p.done rd 0) with sigs := p.sigs.filter (fun g => decide (g.2 ≠ id)) })).send c
        { id := id, reg := reg, val := .sc ((p.rd rs2).setWidth 64), due := s.cyc }
  | none => s.modPorter c side (fun p => p.done rd 1)

/-- Whether a scratchpad access of core `c` before operation `n` is still to be performed: a PSTART or PSIG there is a
release for it at core scope (R308, R327). -/
def State.spadBehind (s : State) (c n : Nat) : Bool :=
  (s.allMops c).any (fun (m : MemOp) => decide (m.id < n) && m.local') || s.arrayWrites c n

/-- PSIGW. -/
def State.porterSigw (s : State) (c side : Nat) (rd : BitVec 5) : State :=
  match (s.porter c side).mbox, s.spadBehind c (s.porter c side).sigPt with
  | some v, false => s.modPorter c side (fun p => { (p.done rd v) with mbox := none })
  | _, _ => s.porterWaits c side

/-- PFENCE: every earlier block transfer is performed at system scope. -/
def State.porterFence (s : State) (c side : Nat) (rd : BitVec 5) : State :=
  if (s.porter c side).blocks.isEmpty then s.modPorter c side (fun p => p.done rd 0)
  else s.porterWaits c side

/-- An instruction of R307 executes on the porter that is the agent. -/
def State.onPorter (s : State) (f : State → Nat → Nat → State) : Out :=
  match s.porterActor with
  | some (c, side) => .next (f s c side)
  | none => .next s

/-! ### RV32IM (R305) -/

/-- The bytes of a load or store with funct3 `f`. -/
def Rv.width (f : Nat) : Nat := 2 ^ (f % 4)

/-- A load's value. -/
def Rv.loaded (f n : Nat) : BitVec 32 := match f with | 0 => Rv.sext 8 n | 1 => Rv.sext 16 n | _ => BitVec.ofNat 32 n

/-- An instruction of the published set. A misaligned access or target raises the misaligned exception (log 20). -/
def State.porterRv (s : State) (c side : Nat) (i : Rv) : State :=
  let p := s.porter c side
  let go (rd : BitVec 5) (v : BitVec 32) : State := s.modPorter c side (fun p => p.done rd v)
  let jump (rd : BitVec 5) (to' : BitVec 32) : State :=
    if to'.toNat % 4 ≠ 0 then s.porterTrap c side 0
    else s.modPorter c side (fun p => { (p.wr rd (BitVec.ofNat 32 (p.pc + 4))) with pc := to'.toNat })
  let pc := BitVec.ofNat 32 p.pc
  match i with
  | .lui rd imm => go rd imm
  | .auipc rd imm => go rd (pc + imm)
  | .jal rd off => jump rd (pc + off)
  | .jalr rd rs1 off => jump rd ((p.rd rs1 + off) &&& 0xFFFFFFFE)
  | .branch f rs1 rs2 off => if Rv.taken f (p.rd rs1) (p.rd rs2) then jump 0 (pc + off) else go 0 0
  | .load f rd rs1 off =>
    let a := (p.rd rs1 + off).toNat
    let n := Rv.width f
    if a + n > spadTop then s.porterTrap c side 5
    else if a % n ≠ 0 then s.porterTrap c side 4
    else
      let s := s.awaken c
      s.modPorter c side (fun p => p.done rd (Rv.loaded f ((s.spad c).num a n)))
  | .store f rs1 rs2 off =>
    let a := (p.rd rs1 + off).toNat
    let n := Rv.width f
    if a + n > spadTop then s.porterTrap c side 7
    else if a % n ≠ 0 then s.porterTrap c side 6
    else ((s.awaken c).modSpad c (fun m => m.wrN a (toBytesLE n (p.rd rs2).toNat))).modPorter c side (fun p => p.done 0 0)
  | .opImm f alt rd rs1 imm => go rd (Rv.alu f alt (p.rd rs1) imm)
  | .op f alt rd rs1 rs2 => go rd (Rv.alu f alt (p.rd rs1) (p.rd rs2))
  | .mulDiv f rd rs1 rs2 => go rd (Rv.muldiv f (p.rd rs1) (p.rd rs2))
  | .fence => go 0 0
  | .ecall => s.soon [.event (.porterEcall c side)]
  | .ebreak => s.porterTrap c side 3

/-- The word at a porter's pc, or the exception of fetching it. -/
def State.porterFetch (s : State) (c side : Nat) : BitVec 32 ⊕ Nat :=
  let p := s.porter c side
  if p.pc ≥ 8192 then .inr 1 else .inl (p.fetch (p.pc / 4))

/-- Whether the wait that a WAITING porter stands in has ended (R306, R307): the instruction at its pc would go on, or has
waited too long for a region. -/
def State.porterCanGo (s : State) (c side : Nat) : Bool :=
  let p := s.porter c side
  let late := match p.since with | some t => decide (ownLimit < s.cyc - t) | none => false
  let cells := p.one.all (fun (r : CellReq) => r.reqs.isEmpty)
  match s.porterFetch c side with
  | .inr _ => true
  | .inl w =>
    match decodePorterOp w with
    | some (.pld _ _ _) | some (.pst _ _ _) | some (.pgath _ _ _) => decide (p.blocks.length < 16)
    | some (.psigw _) => p.mbox.isSome && !s.spadBehind c p.sigPt
    | some (.pfence _) => p.blocks.isEmpty
    | some (.pwait rs2 rs1 _) =>
      match s.porterCtr c (p.global (p.rd rs1)) false with
      | .inl pa => if s.owned pa then cells && decide ((p.rd rs2).toNat ≤ s.wordAt (.glob .K) pa) else late
      | .inr _ => true
    | some (.plds rs1 _) => match s.porterXlate c (p.global (p.rd rs1)) 4 false with
      | .wait _ _ => late
      | .ok _ => cells
      | .fault _ _ => true
    | _ => true

/-- PORTER_WAKE: a wait ends, and the porter runs on (R306). -/
def State.porterWake (s : State) (c side : Nat) : State :=
  if (s.porter c side).st = .waiting ∧ s.porterCanGo c side then s.modPorter c side (fun p => { p with st := .running }) else s

/-! ### Triggers (R308) -/

def psStartSide (a : Word) : Nat := fld a.toNat 16 1

/-- The trigger-time checks of PSTART, PSIG and PSTAT. -/
def State.portCheck (s : State) (t : Trig) : Chk :=
  let n := t.a.toNat
  let b := t.b.toNat
  match t.op with
  | .pstart =>
    (trapIf (decide (fld n 13 3 ≠ 0 ∨ n / 2 ^ 17 ≠ 0 ∨ n % 4 ≠ 0 ∨ b / 2 ^ 56 ≠ 0)) cILLEGAL_PORT).or (sDesignator t.d)
  | .psig =>
    (trapIf (decide (n / 2 ^ 32 ≠ 0 ∨ b / 4 ≠ 0)) cILLEGAL_PORT).or
      ((if t.b.getLsbD 1 then .ok else sDesignator t.d).or (if (s.porter t.c (b % 2)).mbox.isSome then .wait else .ok))
  | _ => (trapIf (decide (n / 2 ≠ 0)) cILLEGAL_PORT).or (sDesignator t.d)

/-- The state word of PSTAT. -/
def Porter.word (p : Porter) : Nat :=
  p.st.code + 2 ^ 8 * (if p.st = .error then p.cause % 256 else 0) + 2 ^ 16 * p.blocks.length + 2 ^ 32 * (p.pc % 2 ^ 13)

/-- A porter trigger takes effect. -/
def State.portRun (s : State) (t : Trig) : ArvWhen × State :=
  match t.op with
  | .pstart =>
    let side := psStartSide t.a
    let p := s.porter t.c side
    if p.st = .idle ∨ p.st = .error then
      let (id, s) := s.pend t t.d
      (.op id, s.modPorter t.c side (fun p =>
        { p with x := Vector.replicate 32 0, pc := fld t.a.toNat 0 13, gbase := t.b.toNat, st := .running, cause := 0
                 token := some (t.d, id), trap := none, fault := none, sent := 0, startPt := id }))
    else s.deliverTrig t 0 stBUSY
  | .psig =>
    let side := t.b.toNat % 2
    let put (s : State) (g : List (Nat × Nat)) : State :=
      s.modPorter t.c side (fun p => { p with mbox := some (t.a.setWidth 32), sigs := p.sigs ++ g, sigPt := s.nextOp })
    if t.b.getLsbD 1 then (.cycle s.cyc, put s [])
    else let (id, s) := s.pend t t.d; (.op id, put s [(t.d, id)])
  | _ => s.deliverTrig t (BitVec.ofNat 64 (s.porter t.c (t.a.toNat % 2)).word) stOK

end Sys2Proof.Machine
end

