-- ==== Sys2Proof/Machine/SegOps.lean ====
section
/-! DEFINITION. Segments, failures and injections (R426 to R433, R440), and the triggers of the scalar and vector units,
whose checks raise failures. -/
namespace Sys2Proof.Machine

/-! ### Failures (R432) -/

/-- What ends with the issue or the trap of a bundle: its waits. -/
def State.unwait (s : State) (c : Nat) (lan : Bool) : State :=
  let s := s.modCore c (fun w => { w with settled := [], walk := none, walkFault := none, waitFrom := none })
  if lan then s else s.modTask c (fun k => { k with rdvFrom := none, rdvAt := none, rdvGo := none })

/-- Whether two failures are one event: mismatches of one cycle, or one bundle's of one cause (R195). -/
def TrapRec.joins (t x : TrapRec) : Bool :=
  decide (x.cause = t.cause ∧ x.seen = t.seen) && (t.cause == cSDC_MISMATCH || decide (x.pc = t.pc))

/-- Add a failure to the traps taken after a bundle; failures of one event are one trap, which the lowest slot names
(R195). -/
def addAfter (t : TrapRec) : List TrapRec → List TrapRec
  | [] => [t]
  | x :: l => if t.joins x then (if t.slot < x.slot then t else x) :: l else x :: addAfter t l

/-- A failure of core `c`'s user context: inside a segment the segment fails at the end of the cycle, outside one the
task traps at the first bundle boundary. -/
def State.failure (s : State) (c slot : Nat) (pc : Word) (cause : Nat) : State :=
  if (s.usr c).inSeg then s.modUsr c (fun u => { u with seg := { u.seg with fail := true } })
  else s.modUsr c (fun u => { u with after := addAfter { cause := cause, slot := slot, pc := pc, after := true, seen := s.cyc } u.after })

/-- Count an error in a saturating counter (R435). -/
def bump (w : Word) : Word := if w = BitVec.allOnes 64 then w else w + 1

/-- The kind under which unit `bit` was armed last (two bits a unit). -/
def WCore.injOf (w : WCore) (bit : Nat) : Nat := w.injKind.toNat / 4 ^ bit % 4

/-- An armed unit reports at an operation of the user context (R440): the answer says whether a check is made to report
a mismatch. -/
def State.inject (s : State) (c bit : Nat) (check : Bool) (slot : Nat) (pc : Word) : Bool × State :=
  let w := s.core c
  if !w.injMask.getLsbD bit || (decide (w.injOf bit = 3) && !check) then (false, s)
  else
    let s := s.modCore c (fun w => { w with injMask := w.injMask &&& ~~~(BitVec.ofNat 11 (2 ^ bit)) })
    match w.injOf bit with
    | 1 => (false, s.modCore c (fun w => { w with corrected := bump w.corrected }))
    | 2 => (false, (s.modCore c (fun w => { w with uncorrectable := bump w.uncorrectable })).failure c slot pc cUNCORRECTABLE_CONSUMED)
    | _ => (true, s)

/-! ### Commit and rewind (R429, R431) -/

/-- Whether every check of the open segment has reported. -/
def State.checksDone (s : State) (c : Nat) : Bool := (s.usr c).seg.checks.all (fun k => decide (k < s.cyc))

/-- Whether the commit at a trap with this cause still waits for a check of the open segment (R429). -/
def State.trapWaits (s : State) (c cause : Nat) : Bool := (s.usr c).inSeg && !isFailure cause && !s.checksDone c

/-- SEGMENT_COMMIT (R429): the buffered stores are sent as if issued now, the held transfers may start, the arrivals
held are made, the journal is cleared. -/
def State.segCommit (s : State) (c : Nat) : State :=
  if !(s.usr c).inSeg then s
  else
    let sent := (s.usr c).seg.buf.map (fun (m : MemOp) => { m with issue := s.cyc })
    let z := s.modUsr c (fun u => { u with mops := u.mops ++ sent })
    s.modUsr c (fun u =>
    { u with
      mops := u.mops ++ sent.map (fun m => { m with hold := z.heldOp c m })
      xfers := u.xfers.map (fun x => if x.held then { x with held := false, point := s.nextOp } else x)
      ctx := { u.ctx with arvs := u.ctx.arvs.map (fun a => { a with seg := false }) }
      seg := { u.seg with st := .committed, buf := [], jr := none, checks := [], fail := false } })

/-- A segment opens at a bundle (R427, R431): `x0` is the context, `lim` the first operation number, as the bundle
found them. -/
def State.segOpen (s : State) (c : Nat) (x0 : Ctx) (lim : Nat) : State :=
  s.modUsr c (fun u =>
    { u with seg := { st := .open', entry := x0.pc, firstId := lim
                      jr := some { ctx := x0, nexts := u.chans.map Chan.next, accs := u.accs } } })

/-- A rewind begins (R431): everything of the segment is discarded, and every item of the journal restored. -/
def State.rewind (s : State) (c : Nat) : State :=
  let first := (s.usr c).seg.firstId
  let mine (w : Park) : Bool := decide (w.core = c ∧ first ≤ w.id) && !w.lan
  let s : State := { s with
    dies := s.dies.map (fun (d : Die) => { d with park := d.park.filter (fun w => !mine w) })
    cores := s.cores.map (fun ((n, w) : Nat × WCore) => (n, { w with park := w.park.filter (fun x => !mine x) })) }
  let s := match (s.pair (pairOf c)).run, (s.usr c).seg.jr with
    | some r, some j =>
      if r.core = c ∧ first ≤ r.id then s.setPair (pairOf c) { (s.pair (pairOf c)) with run := some { r with accs := j.accs, bytes := [], bad := none } } else s
    | _, _ => s
  (s.unwait c false).modUsr c (fun u =>
    match u.seg.jr with
    | none => u
    | some j =>
      { u with
        mops := u.mops.filter (fun m => decide (m.id < first))
        delivs := u.delivs.filter (fun d => decide (d.id < first))
        asks := u.asks.filter (fun a => decide (a.id < first))
        xfers := u.xfers.filter (fun x => !x.held)
        chans := List.zipWith (fun (ch : Chan) n => { ch with next := n }) u.chans j.nexts
        mseq := match u.mseq with | some q => if first ≤ q.id then none else some q | none => none
        accs := j.accs
        after := []
        ctx := { j.ctx with idle := 0, cons := u.ctx.cons, arvs := u.ctx.arvs.filter (fun a => !a.seg) }
        seg := { u.seg with st := .rewinding, began := s.cyc, buf := [], checks := [], fail := false } })

/-- REWIND_DONE (R431): 32 package cycles after it began, issue resumes at the entry bundle. -/
def State.rewindDone (s : State) (c : Nat) : State :=
  let g := (s.usr c).seg
  if g.st = .rewinding ∧ g.began + 32 ≤ s.cyc then
    s.modUsr c (fun u => { u with seg := { u.seg with st := .replaying, count := 0, firstId := s.nextOp } })
  else s

/-! ### The scalar unit (R181 to R199) -/

/-- The trigger-time traps of a scalar operation (R196). -/
def scalarCheck (t : Trig) : Chk :=
  let n := t.a.toNat % 256
  match t.op with
  | .rdspec => trapIf (decide (n < 0x80 ∨ n > 0x92)) cILLEGAL_PORT
  | .wrspec => trapIf (decide (n ≠ 0x8F ∧ n ≠ 0x90 ∧ n ≠ 0x92)) cILLEGAL_PORT
  | _ => .ok

/-- What a scalar trigger reads (R181). -/
def Trig.scalarIn (t : Trig) : SIn :=
  { a := t.a, b := t.b, x := (t.x0.unit t.slot).x.word, rm := RMode.ofFpc t.x0.fpc, preds := t.x0.p ||| 1 }

/-- Put the results of an operation in flight. -/
def State.pushScalar (s : State) (t : Trig) (r : SRes) : State :=
  let lat := scalarLat t.op
  let s := match r.x with | some v => s.pushPipe t 0 lat (.sc v) r.fl | none => s
  match r.y with | some v => s.pushPipe t 1 lat (.sc v) 0 | none => s

/-- A scalar trigger takes effect: when it retires, whether a check of it found a mismatch, the state. WRSPEC's write is
made with the moves of its bundle (R183). -/
def State.scalarRun (s : State) (t : Trig) : ArvWhen × Bool × State :=
  let i := t.scalarIn
  let one (v : Word) : ArvWhen × Bool × State := (.user 1, false, s.pushPipe t 0 1 (.sc v) 0)
  match t.op with
  | .nop => (.cycle s.cyc, false, s)
  | .rdspec => one (s.special t.c t.x0 (t.a.toNat % 256))
  | .wrspec => one t.b
  | .rand =>
    if t.shadowed then one (randOut (randStep t.x0.seed))
    else
      let g := randStep (s.ctx t.c t.lan).seed
      (.user 1, false, (s.modCtx t.c t.lan (fun x => { x with seed := g })).pushPipe t 0 1 (.sc (randOut g)) 0)
  | .chkeq => (.user 1, chkeqDiffers i, s.pushScalar t (scalarRes .chkeq i))
  | .chkp => (.user 1, chkpDiffers i, s.pushScalar t (scalarRes .chkp i))
  | o => (.user (scalarLat o), false, s.pushScalar t (scalarRes o i))

/-! ### The vector unit (R207 to R225) -/

/-- The trigger-time traps of a vector operation. -/
def vectorCheck (t : Trig) : Chk := trapIf (vIllegal t.op t.u.c t.u.m) cILLEGAL_PORT

/-- What a vector trigger reads (R207). -/
def Trig.vectorIn (t : Trig) : VIn :=
  let m := t.u.m.toNat % 256
  { a := t.u.a.vreg, b := t.u.b.vreg, x := (t.x0.unit t.slot).x.vreg, c := ⟨t.u.c⟩
    m := if m = 0 then none else some (t.x0.q? (m - 0x78)), rm := RMode.ofFpc t.x0.fpc }

/-- A vector trigger takes effect (R211: a shadow writes no q register). -/
def State.vectorRun (s : State) (t : Trig) : ArvWhen × Bool × State :=
  let c : VCtl := ⟨t.u.c⟩
  let r := vectorRes t.op t.vectorIn
  let lat := vectorLat t.op c
  let s := s.pushPipe t 0 lat (.vec r.x) r.fl
  let s := match r.q with
    | some v => if vWritesQ t.op c && !t.shadowed then s.pushPipe t (0x18 + c.qd) lat (.sc v) 0 else s
    | none => s
  (.user lat, t.op == .vchk && decide (t.u.a.vreg ≠ t.u.b.vreg), s)

end Sys2Proof.Machine
end

