-- ==== Sys2Proof/Machine/TaskOps.lean ====
section
/-! DEFINITION. Tile tasks (R123 to R127): tiles of a launch, taking a trap and returning from it (R434, R438), the end
of a task, and the kill of a launch (R126, R153). -/
namespace Sys2Proof.Machine

/-! ### Tiles (R150, R158) -/

/-- Whether a tile number lies in the grid. -/
def Launch.inGrid (l : Launch) (tile : Nat) : Bool :=
  decide (tile % (l.teamsX * l.W) < l.gx ∧ tile / (l.teamsX * l.W) < l.gy)
/-- The tiles of team `j` that lie in the grid. -/
def Launch.tilesOf (l : Launch) (j : Nat) : List (Nat × Nat) :=
  (upto 0 l.H).flatMap (fun y => (upto 0 l.W).map (fun x => (j % l.teamsX * l.W + x, j / l.teamsX * l.H + y)))
    |>.filter (fun (x, y) => decide (x < l.gx ∧ y < l.gy))
/-- The teams of a launch (R158). -/
def Launch.teamCount (l : Launch) : Nat := l.teamsX * l.teamsY
/-- Whether every task of team `j` is over. -/
def Launch.teamOver (l : Launch) (j : Nat) : Bool :=
  l.killed || (l.tilesOf j).all (fun (x, y) => l.over'.any (fun (t, _) => decide (t = l.tile x y)))
/-- Whether every task of the launch is over. -/
def Launch.allOver (l : Launch) : Bool := l.killed || decide (l.over'.length = l.gx * l.gy)
/-- The cores of a placed rectangle, in the order of R150. -/
def Launch.rect (l : Launch) : List Nat := (upto 0 l.H).flatMap (fun y => (upto 0 l.W).map (fun x => coreAt (l.x0 + x) (l.y0 + y)))
/-- Whether a launch holds its rectangle. -/
def Launch.holds (l : Launch) : Bool := l.st == .placing || l.st == .active

/-- The user sides of the package: on cores, in images. -/
def State.users (s : State) : List User :=
  s.cores.flatMap (fun ((_, w) : Nat × WCore) => w.usr :: (w.biv.map Image.usr).toList)
    ++ s.launches.flatMap (fun ((_, l) : Nat × Launch) => l.saved.map Image.usr)

/-- Change every image at rest. -/
def State.modImages (s : State) (f : Image → Image) : State :=
  { s with
    cores := s.cores.map (fun ((n, w) : Nat × WCore) => (n, { w with biv := w.biv.map f }))
    launches := s.launches.map (fun ((n, l) : Nat × Launch) => (n, { l with saved := l.saved.map f })) }

/-- The images at rest, in bivouac space and in park areas. -/
def State.images (s : State) : List Image :=
  s.cores.filterMap (fun ((_, w) : Nat × WCore) => w.biv) ++ s.launches.flatMap (fun ((_, l) : Nat × Launch) => l.saved)

/-- Change every user side: those on cores, and those at rest in images. -/
def State.mapUsers (s : State) (f : User → User) : State :=
  let fi (i : Image) : Image := { i with usr := f i.usr }
  { s with
    cores := s.cores.map (fun ((n, w) : Nat × WCore) => (n, { w with usr := f w.usr, biv := w.biv.map fi }))
    launches := s.launches.map (fun ((n, l) : Nat × Launch) => (n, { l with saved := l.saved.map fi })) }

/-- Change the task of a tile. -/
def State.modTile (s : State) (k tile : Nat) (f : Task → Task) : State :=
  match s.launches.find? k with
  | none => s
  | some l => s.mapUsers (fun u => { u with task := u.task.map (fun t => if t.launch = k ∧ t.tile l = tile then f t else t) })

/-- OUT of a tile's task rises or falls (R131). -/
def State.outInc (s : State) (k tile n : Nat) : State := s.modTile k tile (fun t => { t with out := t.out + n })
def State.outDec (s : State) (k tile n : Nat) : State := s.modTile k tile (fun t => { t with out := t.out - n })

/-- The innermost record frame of a return stack. -/
def innermost : List Frame → Option RecFrame
  | [] => none
  | .rcd f :: _ => some f
  | .plain _ :: t => innermost t

/-- The tile for which a core's code runs: that of the innermost record, else, and in a handler of a message, that of its
task (R131, R404, R413). -/
def State.callerTile (s : State) (c : Nat) : Nat :=
  match innermost (s.usr c).ctx.ret, s.task? c, s.launchOf? c with
  | some f, some t, some l => if f.r.job ≠ 0 then t.tile l else f.r.own
  | some f, _, _ => f.r.own
  | none, some t, some l => t.tile l
  | _, _, _ => 0

/-- The code base of a core's task. -/
def State.codeBase (s : State) (c : Nat) : Nat := ((s.launchOf? c).map Launch.code).getD 0

/-! ### Traps (R51, R434) -/

/-- What a stop of a user context ends: its parked waits and its WQUIETs deliver EARLY (R167, R339, R406). -/
def State.stopWaits (s : State) (c : Nat) : State :=
  let s := s.endWaits .stop (fun w => decide (w.core = c) && !w.lan)
  ((s.usr c).asks.filter (fun q => q.op == .wquiet)).foldl (fun s q => s.answer q.id q.reg 0 stEARLY) s

/-- A user context takes a trap: the open segment commits unless the cause is a failure, the trap record is written,
the task is TRAPPED, and the lantern context has the trap to take. -/
def State.takeTrap (s : State) (c : Nat) (t : TrapRec) : State :=
  let s := if isFailure t.cause then s else s.segCommit c
  let t := { t with seg := (s.usr c).seg.st.code }
  let s := s.stopWaits c
  let s := s.modTask c (fun k => { k with was := if k.st == .trapped then k.was else k.st, st := .trapped, trap := some t, posted := false, rdvFrom := none, rdvAt := none, rdvGo := none })
  s.modCore c (fun w => { w with trapAt := s.cyc, lan := { w.lan with trapSeen := false } })

/-- A held trap is over: the task goes on at `pc`, where a debugger's step left IDLE cycles (R173) with these; a membership whose abort it was told ends (R372). -/
def State.resumeTrap (s : State) (c : Nat) (pc : Word) : State :=
  let told := ((s.usr c).task.bind Task.trap).map TrapRec.cause
  (s.modTask c (fun k => { k with st := k.was, trap := none, posted := false })).modUsr c (fun u =>
    { u with member := if u.member.any (fun m => m.noted.isSome && decide (m.noted = told)) then none else u.member
             ctx := { u.ctx with pc := pc, idle := if pc = u.ctx.pc then u.ctx.idle else 0 } })

/-- The address at which ERET 0 resumes: the trapping bundle, or the bundle that was next. -/
def State.resumeAt (s : State) (c : Nat) : Word := (s.usr c).ctx.pc

/-! ### The end of a task (R126, R374, R291, R306, R431) -/

/-- A member whose task is dropped or killed (R374). -/
def State.memberGone (s : State) (c : Nat) : State :=
  match (s.usr c).member with
  | none => s
  | some m => (s.abortHandle m.handle cKILLED).modUsr c (fun u => { u with member := none })

/-- The records that a task's forced end takes off every deque and off the way (R126). -/
def State.dropRecords (s : State) (k tile : Nat) : State :=
  s.mapUsers (fun u => if u.task.map Task.launch = some k then
      { u with deque := u.deque.filter (fun r => decide (r.own ≠ tile)), transit := u.transit.filter (fun (_, r) => decide (r.own ≠ tile)) }
    else u)

/-- The records of other tiles that run on a core count as cancelled when its task is forced to end (R131). -/
def State.cancelGuests (s : State) (c k tile : Nat) : State :=
  (s.usr c).ctx.ret.foldl (fun s f =>
    match f with
    | .rcd f => if f.counted && decide (f.r.own ≠ tile) then s.outDec k f.r.own 1 else s
    | .plain _ => s) s

/-- What a drop or kill of a task ends on its core: waits, region, transfers, porters, segment, asks. -/
def State.forceEnd (s : State) (c k tile : Nat) : State :=
  let s := (((s.stopWaits c).memberGone c).cancelGuests c k tile).dropRecords k tile
  let s := s.modUsr c (fun u =>
    { u with
      xfers := u.xfers.filter (fun x => !x.held)
      seg := if u.inSeg || u.seg.st == .rewinding then { u.seg with st := .dropped, buf := [], jr := none, checks := [], fail := false } else u.seg
      asks := [], mseq := none
      porters := u.porters.map (fun p => { p with st := .idle, blocks := [], token := none, sigs := [], mbox := none, trap := none, fault := none, sent := 0 }) })
  (s.abortXfers c (fun _ => true)).2

/-- The end of a core's task: ENDED, DROPPED or KILLED. A drop records the cause of the held trap as the core's last-drop
cause (R435, log 103). -/
def State.endTask (s : State) (c : Nat) (st : TaskSt) : State :=
  match s.task? c, s.launchOf? c with
  | some t, some l =>
    let tile := t.tile l
    let s := if st == .ended then s else s.forceEnd c t.launch tile
    let s := s.modUsr c (fun u =>
      { u with
        task := u.task.map (fun t => { t with st := st, drains := [], trap := none, killAt := false, rdvFrom := none, rdvAt := none, rdvGo := none, posted := false })
        ctx := { u.ctx with ret := [], loops := [], wdog := none, idle := 0, pipe := []
                            arvs := u.ctx.arvs.filter (fun a => match a.at' with | .user _ => false | _ => st == .ended) }
        tids := [], claim := 0, member := none, after := [], latched := none, waive := false })
    let s := s.modCore c (fun w => { w with
      injMask := 0, walk := none, walkFault := none, waitFrom := none
      lastDrop := if st == .dropped then (t.trap.map TrapRec.cause).getD w.lastDrop else w.lastDrop })
    let s := if l.inGrid tile && !l.over'.any (fun (x, _) => decide (x = tile)) then
        s.modLaunch t.launch (fun l => { l with over' := l.over' ++ [(tile, st)] }) else s
    if st == .dropped then s.dropsAdd l.block else s
  | _, _ => s

/-- A second failure in one segment (R431, R435). -/
def State.dropSegment (s : State) (c : Nat) : State :=
  (s.endTask c .dropped).modCore c (fun w => { w with lastDrop := cSEGMENT_DROPPED })

/-! ### The kill of a launch (R126, R148, R153) -/

/-- The launch that executed ROPEN enters DRAINING while its region has neither members nor votes (R369). -/
def State.openerEnds (s : State) (k : Nat) : State :=
  (s.slotsWith (fun r => decide (r.opener = k ∧ r.st = .open' ∧ r.members.length = 0 ∧ r.votes = 0))).foldl
    (fun s n => s.modSlot n (fun r => { r.discard with st := .freed, cause := cKILLED })) s

/-- A launch enters DRAINING. -/
def State.drainLaunch (s : State) (k : Nat) : State :=
  (s.modLaunch k (fun l => { l with st := .draining, startAt := none, leaving := false })).openerEnds k

/-- A task of a killed launch: one that runs stops at its next bundle boundary, another is KILLED at once. -/
def State.killTask (s : State) (c : Nat) : State :=
  match s.task? c with
  | some t =>
    if t.st.over' then s
    else if t.st == .running then s.modTask c (fun t => { t with killAt := true })
    else s.endTask c .killed
  | none => s

/-- A launch and the launches made beneath it, to the depth that R149 allows. -/
def State.family (s : State) : Nat → Nat → List Nat
  | 0, k => [k]
  | f + 1, k => k :: (s.launches.filter (fun (_, l) => decide (l.parent = some k))).flatMap (fun (n, _) => s.family f n)

/-- One launch is killed or cancelled: every task of every team becomes KILLED, its images are gone, and it drains.
`noDone` says that it makes no DONE add. -/
def State.killOne (s : State) (noDone : Bool) (k : Nat) : State :=
  match s.launches.find? k with
  | none => s
  | some l =>
    if l.st == .done then s
    else
      let imgs := l.saved ++ (s.cores.filterMap (fun ((_, w) : Nat × WCore) => w.biv)).filter (fun i => decide (i.launch = k))
      let s := s.modLaunch k (fun l => { l with killed := true, noDone := l.noDone || noDone, saved := [] })
      let s : State := { s with cores := s.cores.map (fun ((n, w) : Nat × WCore) => (n,
        { w with biv := match w.biv with | some i => if i.launch = k then none else some i | none => none })) }
      let s := (s.coresOf k).foldl (fun s c => s.killTask c) s
      (imgs.filterMap (fun i => i.usr.member)).foldl (fun s m => s.abortHandle m.handle cKILLED) (s.drainLaunch k)

/-- CANCEL 1, CKILL or CRESUME kill of a launch and all beneath it. -/
def State.killLaunch (s : State) (k : Nat) (noDone : Bool) : State := (s.family 4 k).foldl (fun s k => s.killOne noDone k) s

end Sys2Proof.Machine
end

