-- ==== Sys2Proof/Machine/FirmOps.lean ====
section
/-! DEFINITION. What the lantern context does with a held trap: ERET, SEGREW, INJ, FCSR, FAULTQ and DUMP (R437 to R443),
the dispositions of R436, and the completion of a misaligned access (R270). -/
namespace Sys2Proof.Machine

/-- Whether core `c` holds a trapped task. -/
def State.held (s : State) (c : Nat) : Bool := match s.task? c with | some t => t.st == .trapped | none => false

/-- The trap record that core `c` holds. -/
def State.trapRec (s : State) (c : Nat) : TrapRec := ((s.task? c).bind Task.trap).getD { cause := 0 }

/-! ### ERET (R438) -/

/-- ERET with operands a and b. -/
def State.eret (s : State) (c a b : Nat) : State :=
  let t := s.trapRec c
  let bundles := ((s.launchOf? c).map Launch.bundles).getD 0
  if !s.held c then s
  else match a with
    | 0 => s.resumeTrap c (s.resumeAt c)
    | 1 => s.resumeTrap c (t.pc + 32)
    | 2 => if b % 32 = 0 ∧ b < 32 * bundles then s.resumeTrap c (BitVec.ofNat 64 (s.codeBase c + b)) else s
    | 3 => s.endTask c .dropped
    | 4 => s.modTask c (fun t => { t with posted := true })
    | 5 => if t.emul ∧ ¬ t.after then (s.resumeTrap c (s.resumeAt c)).modUsr c (fun u => { u with waive := true }) else s
    | _ => s

/-! ### SEGREW (R439) -/

/-- SEGREW: the value delivered is 0; its status, the cycle at whose end it lands, and the state. -/
def State.segrew (s : State) (c a : Nat) : Status × Nat × State :=
  let g := (s.usr c).seg
  if a > 2 ∨ !s.held c then (stERROR, s.cyc, s)
  else if g.st ≠ .open' ∧ g.st ≠ .replaying then (stFAIL, s.cyc, s)
  else match a with
    | 0 => if g.st = .replaying then (stDROPPED, s.cyc, s.dropSegment c) else (stOK, s.cyc + 32, s.rewind c)
    | 1 => (stDROPPED, s.cyc, s.endTask c .dropped)
    | _ => (stOK, s.cyc, s.segCommit c)

/-! ### INJ (R440) -/

/-- The kinds with those of the units of mask `a` set to `b`. -/
def setKinds (k : BitVec 22) (a b : Nat) : BitVec 22 :=
  BitVec.ofNat 22 (packGo 2 ((upto 0 11).map (fun i => if a.testBit i then b else k.toNat / 4 ^ i % 4)))

/-- INJ: the value and status delivered, and the state. -/
def State.inj (s : State) (c a b : Nat) : Word × Status × State :=
  let w := s.core c
  if a / 2 ^ 11 ≠ 0 ∨ b / 4 ≠ 0 ∨ (b = 3 ∧ Nat.land a 0x6E4 ≠ 0) then (0, stERROR, s)
  else
    let m := BitVec.ofNat 11 a
    (w.injMask.setWidth 64, stOK,
      s.modCore c (fun w => if b = 0 then { w with injMask := w.injMask &&& ~~~m } else { w with injMask := w.injMask ||| m, injKind := setKinds w.injKind a b }))

/-! ### FCSR (R441) -/

/-- A lane of a vector. -/
def laneWord (v : VReg) (l : Nat) : Word := BitVec.ofNat 64 (lane v l)
/-- A vector with one lane replaced. -/
def setLane (v : VReg) (l n : Nat) : VReg := BitVec.ofNat 2048 (v.toNat - lane v l * 2 ^ (32 * l) + n % 2 ^ 32 * 2 ^ (32 * l))

/-- Whether selector 8 may name a register: s, v, b, p or q. -/
def fcsrReg (n : Nat) : Bool := decide (n < 0x80)

/-- A user register as selector 8 reads it. -/
def Ctx.peek (x : Ctx) (n l : Nat) : Word :=
  if isVReg n then laneWord (x.vreg n).v l
  else if isSReg n then (x.sreg n).v
  else if n < 0x78 then (if x.pred (n - 0x70) then 1 else 0)
  else x.q? (n - 0x78)

/-- A user register as selector 8 writes it: full, with status OK; a delivery that was pending for it is made. -/
def Ctx.poke (x : Ctx) (n l : Nat) (v : Word) : Ctx :=
  if isVReg n then x.setVReg n { v := setLane (x.vreg n).v l v.toNat, full := true, pend := false }
  else if isSReg n then x.setSReg n { v := v, full := true, pend := false, tag := stOK }
  else x.writeReg n (.sc v)

/-- FCSR: the value and status delivered, and the state. -/
def State.fcsr (s : State) (c : Nat) (a : Nat) (b : Word) : Word × Status × State :=
  let w := s.core c
  let t := s.trapRec c
  let sel := a % 16
  let wr := decide (a / 2 ^ 8 % 2 = 1)
  let n := a / 2 ^ 16 % 2 ^ 8
  let l := a / 2 ^ 24 % 2 ^ 6
  let lanes : Bool := (decide (sel = 8) && isVReg n) ||
    (decide (sel = 10) && (match w.usr.latched with | some x => (match x.u.b with | .vec _ => true | _ => false) | none => false))
  let ro (v : Word) : Word × Status × State := if wr then (0, stERROR, s) else (v, stOK, s)
  let port (f : UPorts → Word) : Word × Status × State := ro ((w.usr.latched.map (fun x => f x.u)).getD 0)
  if a / 2 ^ 30 ≠ 0 ∨ a / 2 ^ 9 % 2 ^ 7 ≠ 0 ∨ a / 2 ^ 4 % 2 ^ 4 ≠ 0 ∨ (n ≠ 0 ∧ sel ≠ 8) ∨ (l ≠ 0 ∧ !lanes) then (0, stERROR, s)
  else match sel with
    | 0 => ro (BitVec.ofNat 64 (t.cause % 64 + 2 ^ 6 * (t.slot % 8) + (if t.after then 2 ^ 9 else 0) + 2 ^ 10 * t.seg))
    | 1 => ro t.pc
    | 2 => ro t.addr
    | 3 => (w.corrected, stOK, if wr then s.modCore c (fun w => { w with corrected := w.corrected &&& ~~~b }) else s)
    | 4 => (w.uncorrectable, stOK, if wr then s.modCore c (fun w => { w with uncorrectable := w.uncorrectable &&& ~~~b }) else s)
    | 5 => ro (BitVec.ofNat 64 w.lastDrop)
    | 6 => ro (w.injMask.setWidth 64)
    | 8 =>
      if !fcsrReg n || (wr && decide (n = 0x70)) then (0, stERROR, s)
      else (w.usr.ctx.peek n l, stOK, if wr then s.modCtx c false (fun x => x.poke n l b) else s)
    | 9 => port (fun u => u.a.word)
    | 10 => port (fun u => match u.b with | .vec v => laneWord v l | .sc v => v)
    | 11 => port UPorts.c
    | 12 => port UPorts.d
    | _ => (0, stERROR, s)

/-! ### FAULTQ (R442) -/

/-- FAULTQ posts a fault of core `c`'s held task; `who` is the delivery that the engine owes once it has recorded it. -/
def State.faultq (s : State) (c cls cause : Nat) (addr : Word) (who : Option (Nat × Nat)) : State :=
  match s.launchOf? c with
  | none => s
  | some l =>
    let t := s.trapRec c
    let key := s.taskKey c
    let s := s.modTask c (fun t => { t with posted := true })
    s.fault l.block { s.frecOf c cls cause t.slot addr t.pc (.task key.1 key.2) with posted := who }

/-! ### The completion of a misaligned access (R270) -/

/-- The bytes that an emulated access touches, in ascending address: offset in the value and address. A VGATH or VSCAT
goes lane by lane. -/
def assistBytes (x : Latched) : List (Nat × Nat) :=
  let t : Trig := { c := 0, lan := false, slot := 2, op := x.op, u := x.u, x0 := {}, pc := 0, lim := 0 }
  t.spans.flatMap (fun (off, a, n) => (upto 0 n).map (fun i => (off + i, a + i)))

/-- Where one byte of an emulated access lies: a place and an address, a fault, or a region to be waited for. -/
def State.assistPlace (s : State) (c : Nat) (x : Latched) (va : Nat) (store : Bool) : (Place × Nat) ⊕ Xlate :=
  match x.op, ctlSpace x.u.c with
  | .ldr, _ => .inl (.spad (ldrCore x.u.a.word), va)
  | _, 1 => .inl (.spad c, va)
  | o, 2 => .inl (.spad (memberCore (clusterOf c) ((if o == .vgath || o == .vscat then va else x.u.a.word.toNat) / 2 ^ 20 % 32)), va % 2 ^ 20)
  | _, _ =>
    if va / 2 ^ 56 ≠ 0 then .inr (.fault cADDRESS_RANGE (BitVec.ofNat 64 va))
    else match s.xlateOne c 0 va 1 store with
      | .ok ((p, a) :: _) => if a = .K then .inr (.fault cMISALIGNED (BitVec.ofNat 64 va)) else .inl (.glob a, p.pa)
      | r => .inr r

/-- The emulated bytes from the list on: their values so far; performed in ascending address until one faults or waits. -/
def State.assistGo (s : State) (c : Nat) (x : Latched) (store : Bool) (data : List Byte) :
    List (Nat × Nat) → List (Nat × Byte) → Option Xlate × List (Nat × Byte) × State
  | [], got => (none, got, s)
  | (o, va) :: t, got =>
    match s.assistPlace c x va store with
    | .inr r => (some r, got, s)
    | .inl (p, pa) =>
      let s := s.wakeFor p
      if store then (s.wrPlace c p pa [nth 0 data o]).assistGo c x store data t got
      else s.assistGo c x store data t (got ++ [(o, s.rdPlace c p pa)])

/-- Firmware completes the access of a FIRMWARE_ASSIST trap, once every earlier access of the core is performed; then
ERET 0. A fault of a byte, a region that does not come within its limit among them (R261), is posted, and the task stays
TRAPPED. -/
def State.assist (s : State) (c : Nat) : State :=
  match (s.usr c).latched with
  | none => s.eret c 0 0
  | some x =>
    if !(s.usr c).mops.isEmpty then s
    else if (match x.since with | some t => decide (ownLimit < s.cyc - t) | none => false) then
      let a := x.at'
      let s := s.modUsr c (fun u => { u with latched := some { x with since := none } })
      let s := s.modTask c (fun t => { t with trap := t.trap.map (fun r => { r with addr := a }) })
      s.faultq c (classOf cOWNERSHIP_TIMEOUT) cOWNERSHIP_TIMEOUT a none
    else
      let store := x.op.isStore
      let data := if x.op == .vscat then (Val.vec x.data).bytes else if x.op == .vst then (Val.vec x.u.b.vreg).bytes else (Val.sc x.u.b.word).bytes
      match s.assistGo c x store data (assistBytes x) [] with
      | (some (.wait pa va), _, s) =>
        (s.modUsr c (fun u => { u with latched := some { x with since := some (x.since.getD s.cyc), at' := BitVec.ofNat 64 va } })).wantRegion pa
      | (some (.fault cause a), _, s) =>
        let s := s.modTask c (fun t => { t with trap := t.trap.map (fun r => { r with addr := a }) })
        s.faultq c (classOf cause) cause a none
      | (some (.ok _), _, s) => s
      | (none, got, s) =>
        let d := x.u.d.toNat % 256
        let n := if isVReg d then 256 else (loadForm x.op).1
        let bs := (upto 0 n).map (fun i => ((got.find? (fun (o, _) => decide (o = i))).map Prod.snd).getD 0)
        let s := if store then s else s.modCtx c false (fun y => y.deliver d (loadVal x.op (isVReg d) bs) stOK)
        (s.modUsr c (fun u => { u with latched := none })).eret c 0 0

/-! ### The dispositions (R436) -/

/-- Whether R436 has firmware hold the task for a debugger. -/
def isDebug (cause : Nat) : Bool := cause == cDEBUG_STEP || cause == cBREAKPOINT || cause == cWATCHPOINT

/-- A member's trap with an abort target (R373): the membership ends, s58 holds the cause, the task goes on there. -/
def State.abortTarget (s : State) (c : Nat) (m : Member) (cause : Nat) : State :=
  ((s.modUsr c (fun u => { u with member := none })).modCtx c false (fun x => x.setSReg 58 { v := BitVec.ofNat 64 cause })).resumeTrap c
    (BitVec.ofNat 64 (s.codeBase c) + m.target)

/-- Firmware's answer to the trap that core `c` holds, as R436 disposes of its cause. -/
def State.disposeTrap (s : State) (c : Nat) : State :=
  let t := s.trapRec c
  if !s.held c then s
  else
    let s := s.modLan c (fun l => { l with trapSeen := true, fwCons := s.cyc + 1 })
    let post (s : State) : State := s.faultq c (classOf t.cause) t.cause t.addr none
    if t.cause = cMISALIGNED then (if t.emul ∧ ¬ t.after then s.eret c 5 0 else post s)
    else if t.cause = cFIRMWARE_ASSIST then s.assist c
    else if t.cause = cSEGMENT_OVERFLOW then ((s.segrew c 2).2.2).eret c 0 0
    else if t.cause = cSYS_RING_FULL then s
    else if isFailure t.cause then s.eret c 3 0
    else if isDebug t.cause then s.modCore c (fun w => { w with debugHeld := true })
    else if t.cause = cFATAL ∨ t.cause = cSHARE_VIOLATION then s.fatal c t.cause
    else if t.cause = cREGION_ABORT ∨ t.cause = cREGION_CAPACITY ∨ t.cause = cKILLED then
      match (s.usr c).member with
      | some m => if m.noted.isSome ∧ m.target ≠ BitVec.allOnes 64 then s.abortTarget c m t.cause else post (s.modUsr c (fun u => { u with member := none }))
      | none => post s
    else post s

end Sys2Proof.Machine
end

