-- ==== Sys2Proof/Machine/PacketOps.lean ====
section
/-! DEFINITION. Packets (R101 to R104), kernel images (R123, R124), and the making of a launch from a LAUNCH packet
(R109, R149, R408, R458). -/
namespace Sys2Proof.Machine

/-! ### Headers and fields (R101, R102) -/

def pkTag (h : Nat) : Nat := fld h 32 32
def pkLen (h : Nat) : Nat := fld h 16 16
def pkO (h : Nat) : Bool := decide (fld h 14 1 = 1)
def pkP (h : Nat) : Bool := decide (fld h 13 1 = 1)
def pkM (h : Nat) : Bool := decide (fld h 12 1 = 1)
def pkType (h : Nat) : Nat := fld h 0 12

/-- A field: its tag and its data words. -/
structure PField where
  tag : Nat
  data : List Nat
  deriving DecidableEq, Repr

/-- The known fields of a packet type (R104): tag, least and greatest data words, whether it is required. None: an
unknown type. -/
def knownFields (ty : Nat) : Option (List (Nat × Nat × Nat × Bool)) :=
  match ty with
  | 0x001 => some []
  | 0x002 => some [(1, 1, 1, true), (2, 1, 1, true), (3, 1, 1, true), (4, 1, 1, false), (5, 1, 1, false), (6, 1, 32, false),
      (7, 2, 2, false), (8, 7, 7, false), (9, 1, 1, false)]
  | 0x003 => some [(1, 1, 1, true), (2, 1, 1, true), (3, 1, 1, false)]
  | 0x004 => some [(1, 1, 1, true), (2, 1, 1, true)]
  | 0x005 => some [(1, 1, 1, true), (2, 1, 1, true), (3, 1, 1, true), (4, 1, 1, false)]
  | 0x006 => some [(1, 1, 1, true), (2, 1, 1, true)]
  | 0x007 => some [(1, 1, 1, true), (2, 1, 1, true)]
  | 0x008 => some []
  | 0x009 => some []
  | 0x00A => some [(1, 1, 1, false)]
  | 0x00B => some [(1, 1, 1, true), (2, 1, 1, true), (3, 1, 1, true), (4, 2, 2, false)]
  | 0x00C => some [(1, 1, 1, true), (2, 1, 1, true), (3, 1, 1, true), (4, 1, 1, true)]
  | _ => none

/-- What the words of a packet's body give so far: the known fields, the unknown ones skipped, whether a check of R103
has failed, and whether the whole body has passed. -/
structure Scan where
  fields : List PField := []
  skipped : Nat := 0
  bad : Bool := false
  whole : Bool := false
  deriving DecidableEq, Repr

/-- Pass the words of a body of which `n` are still to come; `ok` is the check of a known field's values (R103, R108). -/
def scanBody (known : List (Nat × Nat × Nat × Bool)) (ok : Nat → List Nat → Bool) : Nat → Nat → List Nat → Scan → Scan
  | 0, _, _, r => r
  | f + 1, n, ws, r =>
    if n = 0 then
      { r with whole := true, bad := !known.all (fun (t, _, _, req) => !req || r.fields.any (fun x => decide (x.tag = t))) }
    else match ws with
      | [] => r
      | h :: t =>
        let len := fld h 16 16
        let k := len / 8
        let tag := fld h 0 10
        if fld h 32 32 ≠ 0 ∨ fld h 11 5 ≠ 0 ∨ len % 8 ≠ 0 ∨ n < 1 + k then { r with bad := true }
        else match known.find? (fun (x, _) => decide (x = tag)) with
          | none =>
            if fld h 10 1 = 1 then { r with bad := true }
            else scanBody known ok f (n - 1 - k) (t.drop k) { r with skipped := r.skipped + 1 }
          | some (_, lo, hi, _) =>
            if k < lo ∨ hi < k ∨ r.fields.any (fun x => decide (x.tag = tag)) then { r with bad := true }
            else if t.length < k then r
            else if !ok tag (t.take k) then { r with bad := true }
            else scanBody known ok f (n - 1 - k) (t.drop k) { r with fields := r.fields ++ [{ tag := tag, data := t.take k }] }

/-- The body of a packet of known type, as far as its words are given. -/
def scanPacket (ty len : Nat) (ok : Nat → List Nat → Bool) (ws : List Nat) : Scan :=
  scanBody ((knownFields ty).getD []) ok (len + 1) (len - 1) ws {}

/-- The first data word of a field, if the packet has it. -/
def Scan.opt (r : Scan) (tag : Nat) : Option Nat := (r.fields.find? (fun x => decide (x.tag = tag))).map (fun x => nth 0 x.data 0)
def Scan.get (r : Scan) (tag : Nat) : Nat := (r.opt tag).getD 0
def Scan.data (r : Scan) (tag : Nat) : List Nat := ((r.fields.find? (fun x => decide (x.tag = tag))).map PField.data).getD []
def Scan.has (r : Scan) (tag : Nat) : Bool := r.fields.any (fun x => decide (x.tag = tag))

/-! ### Reading virtual memory for the hub -/

/-- What a check of the hub comes to: a result, a bad packet, a fault at an address, or a counter outside a K page. -/
inductive Got (α : Type) where
  | ok (x : α)
  | bad
  | fault (addr : Nat)
  | notK (addr : Nat)
  deriving Repr

def Got.bind {α β : Type} (r : Got α) (f : α → Got β) : Got β :=
  match r with
  | .ok x => f x
  | .bad => .bad
  | .fault a => .fault a
  | .notK a => .notK a

/-- Go on where a condition holds; otherwise the packet is bad. -/
def Got.need {β : Type} (b : Bool) (f : Got β) : Got β := if b then f else .bad

/-- The physical address of a virtual one for the hub. -/
def State.vPhys (s : State) (atp : Word) (va : Nat) (store : Bool) : Got Nat :=
  if va / 2 ^ 56 ≠ 0 then .fault va
  else match s.hubPhys atp va store with
    | .inl pa => .ok pa
    | .inr _ => .fault va

/-- A little-endian number of `n` bytes that lie in one page. -/
def State.vNum (s : State) (atp : Word) (va n : Nat) : Got Nat := (s.vPhys atp va false).bind (fun pa => .ok (s.mem.num pa n))

/-- `k` numbers of `n` bytes from an address on. -/
def State.vNums (s : State) (atp : Word) (n : Nat) : Nat → Nat → Got (List Nat)
  | 0, _ => .ok []
  | k + 1, va => (s.vNum atp va n).bind (fun x => (s.vNums atp n k (va + n)).bind (fun l => .ok (x :: l)))

/-- A counter to be read or added to: 8-byte aligned, and in a K page (R110, R458). -/
def State.vCounter (s : State) (atp : Word) (va : Nat) (store : Bool) : Got Nat :=
  if va % 8 ≠ 0 then .bad
  else if va / 2 ^ 56 ≠ 0 then .fault va
  else match s.walk none atp va true store with
    | .ok e => if e.attr = .K then .ok (e.phys va) else .notK va
    | .fault _ _ => .fault va

/-! ### Loop records (R128, R129) -/

def LRec.poff (r : LRec) : Nat := fld r.w0.toNat 0 32
def LRec.koff (r : LRec) : Nat := fld r.w0.toNat 32 32
def LRec.eoff (r : LRec) : Nat := fld r.w1.toNat 0 32
def LRec.trip (r : LRec) : Nat := fld r.w1.toNat 32 32
def LRec.base (r : LRec) : Nat := fld r.w2.toNat 0 32
def LRec.stride (r : LRec) : Nat := fld r.w2.toNat 32 32
def LRec.cmask (r : LRec) : Nat := fld r.w3.toNat 16 4
def LRec.prio (r : LRec) : Nat := fld r.w3.toNat 8 5
def LRec.split (r : LRec) : Bool := r.w3.getLsbD 1
def LRec.port (r : LRec) : Bool := r.w3.getLsbD 0
def LRec.setTrip (r : LRec) (n : Nat) : LRec := { r with w1 := BitVec.ofNat 64 (r.eoff + n % 2 ^ 32 * 2 ^ 32) }
def LRec.setBase (r : LRec) (n : Nat) : LRec := { r with w2 := BitVec.ofNat 64 (n % 2 ^ 32 + r.stride * 2 ^ 32) }
def LRec.setPrio (r : LRec) (n : Nat) : LRec := { r with w3 := BitVec.ofNat 64 (r.w3.toNat - r.prio * 2 ^ 8 + n % 32 * 2 ^ 8) }
/-- BASE after `n` iterations: (BASE + n × STRIDE) mod 2^32. -/
def LRec.baseAt (r : LRec) (n : Nat) : Nat := (r.base + n * r.stride) % 2 ^ 32
/-- s59 of iteration `i` (R130). -/
def LRec.s59 (r : LRec) (i : Nat) : Word :=
  (BitVec.ofNat 32 r.base).signExtend 64 + BitVec.ofNat 64 i * (BitVec.ofNat 32 r.stride).signExtend 64

/-- A record from its eight words. -/
def LRec.ofWords (l : List Nat) : LRec :=
  let w (i : Nat) : Word := BitVec.ofNat 64 (nth 0 l i)
  { w0 := w 0, w1 := w 1, w2 := w 2, w3 := w 3, cv := [w 4, w 5, w 6, w 7] }

/-- R129, for an image of `bundles` bundles. -/
def LRec.valid (r : LRec) (bundles : Nat) : Bool :=
  decide (fld r.w3.toNat 20 44 = 0 ∧ fld r.w3.toNat 13 3 = 0 ∧ fld r.w3.toNat 2 6 = 0
    ∧ r.poff % 32 = 0 ∧ r.koff % 32 = 0 ∧ r.eoff % 32 = 0
    ∧ r.poff ≤ r.koff ∧ r.koff < r.eoff ∧ r.eoff < 32 * bundles)

/-! ### Kernel images (R123, R124) -/

/-- The check of an allocation entry (R265). -/
def Alloc.ok (a : Alloc) : Bool :=
  decide (fld a.toNat 46 18 = 0 ∧ fld a.toNat 43 1 = 0 ∧ a.span ≠ 7 ∧ a.base % 512 = 0 ∧ a.size % 512 = 0 ∧ a.size ≠ 0
    ∧ a.base + a.size ≤ spadTop)
/-- Whether two allocations overlap. -/
def Alloc.meets (a b : Alloc) : Bool := decide (a.base < b.base + b.size ∧ b.base < a.base + a.size)
/-- The check of the allocation table. -/
def allocsOk : List Alloc → Bool
  | [] => true
  | a :: t => a.ok && t.all (fun b => !a.meets b) && allocsOk t

/-- The tables of an image that placement loads. -/
structure ImageTabs where
  code : Nat
  entry : Nat
  bundles : Nat
  maxseg : Nat
  allocs : List Alloc
  tids : List (Nat × Word × Word)
  loops : List LRec
  porters : List (Option (List (BitVec 32)))
  deriving Repr

/-- Split a list into pieces of `n`, at most `f` of them. -/
def piecesOf {α : Type} (n : Nat) : Nat → List α → List (List α)
  | 0, _ => []
  | f + 1, l => l.take n :: piecesOf n f (l.drop n)

/-- A declaration: word 2 zero, word 3 a number below 64, words 0 and 1 as R228 has them. -/
def declOf (l : List Nat) : Option (Nat × Word × Word) :=
  let w (i : Nat) : Word := BitVec.ofNat 64 (nth 0 l i)
  if nth 0 l 2 = 0 ∧ nth 0 l 3 < 64 ∧ ({ w0 := w 0, w1 := w 1 } : Tid).check then some (nth 0 l 3, w 0, w 1) else none

/-- One porter program. -/
def State.porterProg (s : State) (atp : Word) (image off size : Nat) (present : Bool) : Got (Option (List (BitVec 32))) :=
  if !present then .ok none
  else if off % 4 ≠ 0 ∨ size % 4 ≠ 0 ∨ size > 8192 then .bad
  else (s.vNums atp 4 (size / 4) (image + off)).bind (fun l => .ok (some (l.map (BitVec.ofNat 32))))

/-- Read and check the image at a virtual address (R123, R124). -/
def State.image (s : State) (atp : Word) (image : Nat) : Got ImageTabs :=
  Got.need (decide (image % 256 = 0)) <|
  (s.vNums atp 8 8 image).bind fun h =>
    let w (i : Nat) : Nat := nth 0 h i
    let maxseg := fld (w 1) 32 16
    let bundles := fld (w 1) 0 32
    let codeoff := fld (w 2) 32 32
    let entry := fld (w 2) 0 32
    let ports := fld (w 3) 24 2
    let nloop := fld (w 3) 16 8
    let nspad := fld (w 3) 8 5
    let ntid := fld (w 3) 0 8
    let spadoff := fld (w 4) 32 32
    let tidoff := fld (w 4) 0 32
    let portoff := fld (w 5) 32 32
    let loopoff := fld (w 5) 0 32
    Got.need (decide (fld (w 0) 0 48 = 0x14B473957 ∧ fld (w 0) 48 16 = 0 ∧ fld (w 1) 48 16 = 0 ∧ fld (w 3) 26 38 = 0
        ∧ fld (w 3) 13 3 = 0 ∧ w 6 = 0 ∧ w 7 = 0 ∧ 1 ≤ maxseg ∧ 1 ≤ bundles ∧ bundles ≤ 2 ^ 24 ∧ codeoff % 256 = 0
        ∧ entry % 32 = 0 ∧ entry < 32 * bundles ∧ nspad ≤ 16 ∧ ntid ≤ 64 ∧ spadoff % 8 = 0 ∧ tidoff % 8 = 0
        ∧ portoff % 8 = 0 ∧ loopoff % 64 = 0)) <|
    (s.vNums atp 8 nspad (image + spadoff)).bind fun al =>
    (s.vNums atp 8 (4 * ntid) (image + tidoff)).bind fun td =>
    (s.vNums atp 8 (8 * nloop) (image + loopoff)).bind fun lp =>
    (if ports = 0 then .ok [] else s.vNums atp 8 4 (image + portoff)).bind fun pt =>
      let allocs : List Alloc := al.map (BitVec.ofNat 64)
      let decls := (piecesOf 4 ntid td).map declOf
      let loops := (piecesOf 8 nloop lp).map LRec.ofWords
      Got.need (allocsOk allocs && decls.all Option.isSome && loops.all (fun r => r.valid bundles)) <|
      (s.porterProg atp image (nth 0 pt 0) (nth 0 pt 1) (decide (ports % 2 = 1))).bind fun p0 =>
      (s.porterProg atp image (nth 0 pt 2) (nth 0 pt 3) (decide (ports / 2 = 1))).bind fun p1 =>
        .ok { code := image + codeoff, entry := entry, bundles := bundles, maxseg := maxseg, allocs := allocs
              tids := decls.filterMap id, loops := loops, porters := [p0, p1] }

/-! ### Partitions and rectangles (R155, R161) -/

/-- The clusters that a rectangle touches. -/
def rectClusters (x0 y0 w h : Nat) : List Nat :=
  (upto (y0 / 4) ((y0 + h - 1) / 4 - y0 / 4 + 1)).flatMap (fun y =>
    (upto (x0 / 8) ((x0 + w - 1) / 8 - x0 / 8 + 1)).map (fun x => 8 * y + x))

/-- The lower corners at which an aligned rectangle of W × H can stand, in ascending core number. -/
def corners (w h : Nat) : List (Nat × Nat) :=
  (upto 0 (32 / h)).flatMap (fun y => (upto 0 (64 / w)).map (fun x => (x * w, y * h)))

/-- Whether a cluster counts as the partition's when every core is free. -/
def State.inPart (s : State) (p k : Nat) : Bool := decide ((s.cluster k).home = some p ∨ (s.cluster k).cur = some p)

/-- Whether some aligned rectangle of that size fits inside the partition (R109). -/
def State.fits (s : State) (p w h : Nat) : Bool :=
  (corners w h).any (fun (x, y) => (rectClusters x y w h).all (s.inPart p))

/-! ### LAUNCH (R109, R408) -/

/-- A finite FP64 code that is not negative; −0 counts as +0. -/
def okReal (n : Nat) : Option Nat :=
  if n = 2 ^ 63 then some 0 else if n / 2 ^ 63 = 0 ∧ n / 2 ^ 52 < 0x7FF then some n else none

/-- The ESTIMATE field from its seven words. -/
def estOf (d : List Nat) : Option EstCfg :=
  let w (i : Nat) : Nat := nth 0 d i
  match okReal (w 4), okReal (w 5) with
  | some tol, some z =>
    let k := fld (w 2) 0 9
    if 1 ≤ w 0 ∧ w 0 ≤ 2 ^ 40 ∧ fld (w 2) 17 47 = 0 ∧ fld (w 2) 9 7 = 0 ∧ 1 ≤ k ∧ k ≤ 256 ∧ 2 ≤ w 3 ∧ w 3 ≤ 2 ^ 40
        ∧ w 6 / 2 ^ 56 = 0 ∧ w 6 % 64 = 0 then
      some { n := w 0, seed := BitVec.ofNat 64 (w 1), mode := fld (w 2) 16 1, k := k, nmin := w 3, tol := tol, z := z, record := w 6 }
    else none
  | _, _ => none

/-- Whether job `j` may be held by a continuation: held by it already, or by none while the table has room (R388). -/
def State.jobFree (s : State) (j block : Nat) : Bool :=
  match s.fab.jobs.find? j with
  | some x => decide (x.holder = block)
  | none => decide (s.fab.jobs.length < 256)

/-- The range of a field's values (R109 to R116, R458), as far as the field alone shows it. A bit of PRIO or JOB that the
spec gives no meaning must be zero, as one of RECT and OPTS (log 97). -/
def valueOk (ty tag : Nat) (d : List Nat) : Bool :=
  let v := nth 0 d 0
  match ty, tag with
  | 0x2, 1 => decide (v % 256 = 0)
  | 0x2, 2 => decide (fld v 0 4 ≤ 6 ∧ fld v 8 4 ≤ 5 ∧ fld v 4 4 = 0 ∧ fld v 12 52 = 0)
  | 0x2, 3 => decide (1 ≤ fld v 0 32 ∧ 1 ≤ fld v 32 32)
  | 0x2, 4 => decide (fld v 5 3 = 0 ∧ fld v 13 51 = 0 ∧ fld v 0 5 ≤ fld v 8 5)
  | 0x2, 5 => decide (fld v 12 20 = 0 ∧ fld v 48 16 = 0)
  | 0x2, 8 => (estOf d).isSome
  | 0x2, 9 => decide (v / 2 ^ 16 = 0)
  | 0x2, 7 | 0x3, 1 | 0x4, 1 | 0x5, 1 | 0x7, 1 | 0xB, 1 | 0xB, 2 | 0xB, 4 => decide (v % 8 = 0)
  | 0x5, 3 => decide (v ≤ 5)
  | 0x6, 1 => decide (1 ≤ v ∧ v ≤ 65535)
  | 0x6, 2 => decide (1 ≤ v ∧ v ≤ 128)
  | 0x7, 2 => decide (1 ≤ v ∧ v ≤ 2 ^ 24)
  | 0xA, 1 => decide (v % 32 = 0)
  | 0xB, 3 => decide (1 ≤ v ∧ v ≤ 2 ^ 40)
  | 0xC, 1 => decide (v < 64)
  | 0xC, 3 => decide (v < 256)
  | 0xC, 4 => decide (v / 2 ^ 56 = 0)
  | _, _ => true

/-- The launch that the fields of a LAUNCH packet describe, checked; `prio` is PRIO by default. -/
def State.launchOf (s : State) (q : Cont) (r : Scan) (prio ceil : Nat) : Got Launch :=
  let rect := r.get 2
  let grid := r.get 3
  let pr := r.opt 4
  let opts := r.get 5
  let wlog := fld rect 0 4
  let hlog := fld rect 8 4
  let gx := fld grid 0 32
  let gy := fld grid 32 32
  let p := (pr.map (fun n => fld n 0 5)).getD prio
  let c := (pr.map (fun n => fld n 8 5)).getD ceil
  let est := if r.has 8 then estOf (r.data 8) else none
  Got.need (r.fields.all (fun f => valueOk 0x2 f.tag f.data) && decide (p ≤ c) && s.fits q.part (2 ^ wlog) (2 ^ hlog)) <|
  (s.image q.atp (r.get 1)).bind fun im =>
  (if r.has 7 then (s.vCounter q.atp (nth 0 (r.data 7) 0) true).bind (fun pa => .ok (some pa)) else .ok none : Got (Option Nat)).bind fun done =>
  (match est with
    | some e => if e.record = 0 then .ok (some e) else (s.vPhys q.atp e.record true).bind (fun pa => .ok (some { e with recordPa := pa }))
    | none => .ok none : Got (Option EstCfg)).bind fun est =>
  Got.need (decide (r.get 9 = 0) || s.jobFree (r.get 9) q.block) <|
    .ok { block := q.block, cid := q.cid, lid := 0, part := q.part, image := r.get 1, code := im.code, entry := im.entry
          bundles := im.bundles, maxseg := im.maxseg, wlog := wlog, hlog := hlog, gx := gx, gy := gy, prio := p, ceil := c
          opts := BitVec.ofNat 64 opts, args := (r.data 6).map (BitVec.ofNat 64), donePa := done
          amount := nth 0 (r.data 7) 1, est := est, job := if r.get 9 = 0 then none else some (r.get 9)
          allocs := im.allocs, tidDecl := im.tids, loops := im.loops, porters := im.porters, eff := p }

/-- Enter a job in the table (R388). -/
def State.holdJob (s : State) (j : Option Nat) (block : Nat) : State :=
  match j with
  | none => s
  | some j => match s.fab.jobs.find? j with
    | some _ => s
    | none => { s with fab := { s.fab with jobs := s.fab.jobs.put j { holder := block } } }

/-- A launch becomes POSTED: it gets its identifier (R152), its job is entered, its estimate waits for a free one
(R408). The answer is its key and identifier. -/
def State.postLaunch (s : State) (l : Launch) : Nat × Nat × State :=
  let n := ((s.conts.find? l.block).map Cont.launches).getD 0
  let lid := if n = 2 ^ 32 - 1 then 1 else n + 1
  let key := s.nextLaunch
  let s := (s.modCont l.block (fun q => { q with launches := lid })).holdJob l.job l.block
  (key, lid, { s with launches := s.launches.put key { l with lid := lid }, nextLaunch := key + 1 })

/-- A posted launch becomes READY (R151, R153). -/
def State.readyLaunch (s : State) (k : Nat) : State :=
  s.modLaunch k (fun l => if l.st = .posted then { l with st := .ready, readyAt := s.cyc, aged := s.cyc } else l)

end Sys2Proof.Machine
end

