-- ==== Sys2Proof/Machine/BusOps.lean ====
section
/-! DEFINITION. The broadcast bus of a cluster (R302 to R304). -/
namespace Sys2Proof.Machine

/-- The trigger-time check of a drive: the core holds the claim on the phase of the cycle (R302). -/
def State.driveCheck (s : State) (c : Nat) : Chk := trapIf (!(s.usr c).claim.getLsbD (s.cyc % 32)) cBUS_SLOT_CONFLICT

/-- The check of a landing offset: its range, then its alignment (R302, R273). -/
def landCheck (off : Word) : Chk :=
  (trapIf (decide (spadTop - 63 ≤ off.toNat)) cSCRATCH_RANGE off).or (trapIf (decide (off.toNat % 16 ≠ 0)) cMISALIGNED off)

/-- Core `c` drives lanes 0 to 15 of a vector. -/
def State.drive (s : State) (c : Nat) (v : VReg) : State :=
  s.modCluster (clusterOf c) (fun k => { k with drive := some (c, v.setWidth 512) })

/-- Core `c` holds a landing in this cycle. -/
def State.landing (s : State) (c : Nat) (off : Word) : State :=
  s.modCluster (clusterOf c) (fun k => { k with lands := k.lands ++ [(c, off.toNat)] })

/-- The end of a cycle on cluster `k`: the team's latches load, and the landings write (R302). -/
def State.busEnd (s : State) (k : Nat) : State :=
  let x := s.cluster k
  let s := match x.drive with
    | none => s
    | some (d, v) =>
      let mine (m : Nat) : Bool := decide (m = d) || s.sameTeam d m
      let s := ((clusterCores k).filter mine).foldl (fun (s : State) (m : Nat) => s.modCtx m false (fun y => { y with latch := v })) s
      (x.lands.filter (fun ((m, _) : Nat × Nat) => mine m)).foldl (fun (s : State) ((m, off) : Nat × Nat) => (s.awaken m).modSpad m (fun p => p.wrN off (toBytesLE 64 v.toNat))) s
  s.modCluster k (fun x => { x with drive := none, lands := [] })

/-- BUSSEL's check. -/
def busselCheck (t : Trig) : Chk := (trapIf (decide (t.a.toNat / 2 ^ 32 ≠ 0)) cILLEGAL_PORT).or (sDesignator t.d)

/-- The phases of a mask that other cores of the cluster hold. -/
def State.heldPhases (s : State) (c : Nat) : BitVec 32 :=
  ((clusterCores (clusterOf c)).filter (fun m => decide (m ≠ c))).foldl (fun a m => a ||| (s.usr m).claim) 0

/-- BUSSEL takes effect at the end of its cycle (R304). -/
def State.claim (s : State) (c : Nat) (q : Ask) : State :=
  let m := BitVec.ofNat 32 q.a
  let taken := m &&& s.heldPhases c
  if taken ≠ 0 then s.answer q.id q.reg (taken.setWidth 64) stBUSY
  else (s.modUsr c (fun u => { u with claim := m })).answer q.id q.reg 0 stOK

/-- The asks of one operation that a core's user side has under way. -/
def State.asksOf (s : State) (c : Nat) (o : Op) : List Ask := (s.usr c).asks.filter (fun q => q.op == o)

end Sys2Proof.Machine
end

