-- ==== Sys2Proof/Machine/RecOps.lean ====
section
/-! DEFINITION. Loop records (R128 to R135): deques, record frames, iteration boundaries, draining, scouts, cancels. -/
namespace Sys2Proof.Machine

/-- OUT of a tile's task (R131). -/
def State.outOf (s : State) (k tile : Nat) : Nat :=
  match s.launches.find? k with
  | none => 0
  | some l =>
    let f (u : User) : Option Nat := match u.task with
      | some t => if t.launch = k ∧ t.tile l = tile then some t.out else none
      | none => none
    ((s.cores.findSome? (fun ((_, w) : Nat × WCore) => f w.usr)).orElse (fun _ => l.saved.findSome? (fun i => f i.usr))).getD 0

/-- The key of a core's launch. -/
def State.launchKey (s : State) (c : Nat) : Nat := ((s.task? c).map Task.launch).getD 0

/-- The innermost record frame changed. -/
def modInnermost (f : RecFrame → RecFrame) : List Frame → List Frame
  | [] => []
  | .rcd x :: t => .rcd (f x) :: t
  | .plain r :: t => .plain r :: modInnermost f t

/-- A stack without its innermost record frame and what stands above it. -/
def popInnermost : List Frame → List Frame
  | [] => []
  | .rcd _ :: t => t
  | .plain _ :: t => popInnermost t

/-! ### Starting and completing a record (R130, R131) -/

/-- A record begins to run: the frame, s59 and the carried values. The answer is the next bundle; none: TRIP is 0, and
the record is complete. -/
def State.recStart (s : State) (c : Nat) (r : LRec) (ret : Option Word) (counted bySeq : Bool) : Option Word × State :=
  if r.trip = 0 then (none, if counted then s.outDec (s.launchKey c) r.own 1 else s)
  else
    let put (x : Ctx) (n : Nat) (v : Word) : Ctx := x.writeReg n (.sc v)
    let s := s.modCtx c false (fun x =>
      let x := put { x with ret := .rcd { ret := ret, r := r, counted := counted, bySeq := bySeq, cancelled := r.cancelled } :: x.ret } 59 (r.s59 0)
      (upto 0 4).foldl (fun x k => if r.cmask.testBit k then put x (60 + k) (nth 0 r.cv k) else x) x)
    (some (BitVec.ofNat 64 (s.codeBase c + r.poff)), s)

/-- A record frame has left the stack: its record is complete, and the LSPLITs it still owes deliver. Its completion
releases its writes to the TWAITs of its task (R143); the handler of a fabric message is to release at fabric scope (R404). -/
def State.recDone (s : State) (c : Nat) (f : RecFrame) : State :=
  let s := if f.counted then
      (s.modUsr c (fun u => { u with completing := u.completing ++ [(f.r.own, s.nextOp)] })).outDec (s.launchKey c) f.r.own 1
    else s
  let s := if f.r.job ≠ 0 then s.modUsr c (fun u => { u with retiring := u.retiring ++ [(f.r.job, s.nextOp)] }) else s
  f.splits.foldl (fun s q => s.deliverNow c false q.id q.reg 0 stOK) s

/-- The record that holds the iterations of a frame from `first` on (R134, R142). -/
def Ctx.remainder (x : Ctx) (f : RecFrame) (first trip : Nat) : LRec :=
  { (f.r.setBase (f.r.baseAt first)).setTrip trip with cv := (upto 60 4).map (fun n => (x.sreg n).v), disp := 0, cancelled := false, job := 0 }

/-! ### Iteration boundaries (R130, R134, R142, R148) -/

/-- The index of the record of highest PRIO above `p`, the youngest among equals: index and PRIO so far. -/
def demandOf (p : Nat) : Nat → List LRec → Option (Nat × Nat) → Option (Nat × Nat)
  | _, [], b => b
  | i, r :: t, b =>
    let m := (b.map Prod.snd).getD (p + 1)
    demandOf p (i + 1) t (if m ≤ r.prio then some (i, r.prio) else b)

/-- The demand split of a record that the sequencer took. -/
def State.demandSplit (s : State) (c : Nat) (f : RecFrame) : RecFrame × State :=
  let u := s.usr c
  if !f.bySeq || !f.r.split || !decide (f.i + 1 < f.r.trip ∧ u.deque.length < 32) then (f, s)
  else match demandOf f.r.prio 0 u.deque none with
    | none => (f, s)
    | some (j, _) =>
      let rest := u.deque.eraseIdx j
      let rem := u.ctx.remainder f (f.i + 1) (f.r.trip - f.i - 1)
      let top := nth {} u.deque j
      ({ f with r := f.r.setTrip (f.i + 1) },
        (s.modUsr c (fun u => { u with deque := rest ++ [rem, top] })).outInc (s.launchKey c) f.r.own 1)

/-- The pending LSPLITs of a frame act in the order of their triggers, `i` being the advanced iteration number. -/
def State.doSplits (s : State) (c i : Nat) (f : RecFrame) : List SplitReq → RecFrame × State
  | [] => ({ f with splits := [] }, s)
  | q :: t =>
    let r := f.r.trip - i
    let k := min q.keep.toNat r
    if r - k = 0 then (s.deliverNow c false q.id q.reg 0 stOK).doSplits c i f t
    else if 32 ≤ (s.usr c).deque.length then (s.deliverNow c false q.id q.reg 0 stFULL).doSplits c i f t
    else
      let rem := (s.usr c).ctx.remainder f (i + k) (r - k)
      let s := (s.modUsr c (fun u => { u with deque := u.deque ++ [rem] })).outInc (s.launchKey c) f.r.own 1
      (s.deliverNow c false q.id q.reg (BitVec.ofNat 64 (r - k)) stOK).doSplits c i { f with r := f.r.setTrip (i + k) } t

/-- Whether the bundle at `pc` stands at the iteration boundary of the innermost record. -/
def State.atBoundary (s : State) (c : Nat) (pc : Word) : Option RecFrame :=
  match innermost (s.usr c).ctx.ret with
  | some f => if pc = BitVec.ofNat 64 (s.codeBase c + f.r.eoff - 32) then some f else none
  | none => none

/-- The iteration boundary: the next bundle; none: a cancelled frame of a drain was popped, and the core drains on. -/
def State.boundary (s : State) (c : Nat) (f : RecFrame) : Option Word × State :=
  if f.cancelled then
    (f.ret, (s.modCtx c false (fun x => { x with ret := popInnermost x.ret })).recDone c f)
  else
    let (f, s) := s.demandSplit c f
    let n := f.i + 1
    let (f, s) := s.doSplits c n f f.splits
    let go := decide (n < f.r.trip)
    let s := s.modCtx c false (fun x =>
      let x := { x with ret := modInnermost (fun _ => if go then { f with i := n } else f) x.ret }
      if go then x.writeReg 59 (.sc (f.r.s59 n)) else x)
    (some (BitVec.ofNat 64 (s.codeBase c + (if go then f.r.koff else f.r.eoff))), s)

/-! ### Draining (R132) -/

/-- The record frames that return to a drain. -/
def drainFrames (l : List Frame) : Nat := (l.filter (fun f => match f with | .rcd x => x.ret.isNone | .plain _ => false)).length

/-- Whether core `c` drains: one of its drains, or the end of its task, runs no record. -/
def State.draining (s : State) (c : Nat) : Bool :=
  match s.task? c with
  | some t => decide (drainFrames (s.usr c).ctx.ret < t.drains.length + (if t.st.over' then 1 else 0))
  | none => false

/-- Take the youngest record of the own deque (R132, R135: a dispatch). -/
def State.takeYoungest (s : State) (c : Nat) : Option LRec × State :=
  match (s.usr c).deque.getLast? with
  | none => (none, s)
  | some r => (some { r with disp := s.cyc + 1 }, s.modUsr c (fun u => { u with deque := u.deque.dropLast }))

/-- What a drain comes to in a cycle: a record begins at an address, the drain is over and issue goes on at an address,
or the core waits. -/
inductive DrainRes where
  | run (pc : Word)
  | over' (pc : Word)
  | wait
  deriving DecidableEq, Repr

/-- A drain takes records until one begins. -/
def State.drainTake (s : State) (c : Nat) : Nat → Option Word × State
  | 0 => (none, s)
  | n + 1 =>
    match s.takeYoungest c with
    | (none, s) => (none, s)
    | (some r, s) =>
      match s.recStart c r none true true with
      | (some pc, s) => (some pc, s)
      | (none, s) => s.drainTake c n

/-- The innermost drain of a core's task ends. -/
def State.popDrain (s : State) (c : Nat) : State := s.modTask c (fun t => { t with drains := t.drains.drop 1 })

/-- Whether every pending delivery of a core's user side but those of its copies has landed (R143). -/
def State.settled (s : State) (c : Nat) : Bool :=
  let u := s.usr c
  u.delivs.isEmpty && u.asks.isEmpty && u.mops.all (fun m => m.reg.isNone) && u.cpwaits.isEmpty
    && !(s.dies.flatMap Die.park ++ s.cores.flatMap (fun (_, w) => w.park)).any (fun w => decide (w.core = c) && !w.lan)
    && u.porters.all (fun p => p.token.isNone && p.sigs.isEmpty)

/-- The tile of a core's task. -/
def State.ownTile (s : State) (c : Nat) : Nat :=
  match s.task? c, s.launchOf? c with
  | some t, some l => t.tile l
  | _, _ => 0

/-- Whether every write that a completed record of a tile's task released at its completion is performed at package scope
(R143). -/
def State.released (s : State) (k tile : Nat) : Bool :=
  s.cores.all (fun ((c, w) : Nat × WCore) => !(decide (w.usr.task.map Task.launch = some k))
    || w.usr.completing.all (fun (t, bar) => decide (t ≠ tile) || !s.undone c bar 3 3))

/-- The completed records of core `c` all of whose writes are performed need no more waiting for. -/
def State.recordsRetire (s : State) (c : Nat) : State :=
  if (s.usr c).completing.isEmpty then s
  else s.modUsr c (fun u => { u with completing := u.completing.filter (fun (_, bar) => s.undone c bar 3 3) })

/-- One cycle of a drain. -/
def State.drain (s : State) (c : Nat) : DrainRes × State :=
  match s.task? c with
  | none => (.wait, s)
  | some t =>
    match t.drains with
    | .twait _ _ _ _ next true :: _ => (.over' next, s.popDrain c)
    | ds =>
      match s.drainTake c 33 with
      | (some pc, s) => (.run pc, s)
      | (none, s) =>
        let k := s.launchKey c
        match ds with
        | .twait own reg id _ next _ :: _ =>
          if s.outOf k own = 0 ∧ s.released k own then (.over' next, (s.deliverNow c false id reg 0 stOK).popDrain c) else (.wait, s)
        | .tend :: _ =>
          if s.outOf k (s.ownTile c) = 0 ∧ s.settled c then (.wait, s.endTask c .ended) else (.wait, s)
        | [] => (.wait, s)

/-- The limits of a core's TWAITs (R143): the one that drains gives up, and issue goes on; one whose record runs
delivers, and ends with that record. -/
def State.twaitLimits (s : State) (c : Nat) : State :=
  match s.task? c with
  | none => s
  | some t =>
    let due (d : Drain) : Bool := match d with
      | .twait _ _ _ (some l) _ false => decide (l ≤ s.cyc)
      | _ => false
    if !t.drains.any due then s
    else
      let s := (t.drains.filter due).foldl (fun s d => match d with
        | .twait own reg id _ _ _ => s.deliverNow c false id reg (BitVec.ofNat 64 (s.outOf t.launch own)) stTIMEOUT
        | .tend => s) s
      s.modTask c (fun t => { t with drains := t.drains.map (fun d => if due d then (match d with | .twait o r i l n _ => .twait o r i l n true | .tend => .tend) else d) })

/-- Whether a TWAIT's limit has passed on core `c`. -/
def State.twaitDue (s : State) (c : Nat) : Bool :=
  ((s.task? c).map (fun t => t.drains.any (fun d => match d with | .twait _ _ _ (some l) _ false => decide (l ≤ s.cyc) | _ => false))).getD false

/-! ### Scouts (R133) -/

/-- The scout's state at team start. -/
def lfsrInit (c lid : Nat) : BitVec 16 :=
  let v := Nat.xor (c * 40503) (lid % 2 ^ 16) % 2 ^ 16
  BitVec.ofNat 16 (if v = 0 then 1 else v)
/-- One step of the scout. -/
def lfsrStep (l : BitVec 16) : BitVec 16 := (l >>> 1) ^^^ (if l.getLsbD 0 then 0xB400 else 0)

/-- The other cores of a core's steal domain, in ascending order. -/
def State.candidates (s : State) (c : Nat) : List Nat :=
  match s.launchOf? c with
  | none => []
  | some l =>
    let w := min (2 ^ fld l.opts.toNat 4 4) l.W
    let h := min (2 ^ fld l.opts.toNat 8 4) l.H
    let bx := l.x0 + (cx c - l.x0) / w * w
    let by' := l.y0 + (cy c - l.y0) / h * h
    ((upto 0 h).flatMap (fun y => (upto 0 w).map (fun x => coreAt (bx + x) (by' + y)))).filter (fun m => decide (m ≠ c))

/-- Whether a core's scout works: it drains with an empty deque, and waits for records (R132). -/
def State.scouts (s : State) (c : Nat) : Bool :=
  match s.task? c with
  | some t =>
    s.draining c && (t.st == .running || t.st.over') && (s.usr c).deque.isEmpty
      && (match t.drains with
        | [] => true
        | .twait own _ _ _ _ _ :: _ => decide (0 < s.outOf t.launch own)
        | .tend :: _ => decide (0 < s.outOf t.launch (s.ownTile c)))
  | none => false

/-- Whether two cores run the same team. -/
def State.oneTeam (s : State) (a b : Nat) : Bool :=
  match s.task? a, s.task? b with
  | some x, some y => decide (x.launch = y.launch ∧ x.team = y.team)
  | _, _ => false

/-- The cycles from a probe to the arrival of what it took: the spec allows 64, and in 15 it is there before the scout
probes again (log 98). -/
def stealTime : Nat := 15

/-- Whether a core's scout probes in the present cycle: it works, and one victim every 16 cycles is probed (R133). -/
def State.probes (s : State) (c : Nat) : Bool :=
  decide (s.cyc % 16 = 0 ∧ (s.usr c).probed ≠ s.cyc + 1) && s.scouts c && !(s.candidates c).isEmpty

/-- SCOUT_PROBE (R133): the scout steps, and takes from its victim's deque. -/
def State.scoutProbe (s : State) (c : Nat) : State :=
  let cands := s.candidates c
  if !s.probes c then s
  else
    let l := lfsrStep (s.usr c).lfsr
    let s := s.modUsr c (fun u => { u with lfsr := l, probed := s.cyc + 1 })
    let v := nth 0 cands (l.toNat % cands.length)
    if !s.oneTeam c v then s
    else
      let dq := (s.usr v).deque
      let ps := dq.filter LRec.port
      let due (r : LRec) : Nat × LRec := (s.cyc + stealTime, { r with disp := s.cyc + 1 })
      match ps with
      | [] => s
      | r :: t =>
        if t.isEmpty ∧ r.split ∧ 2 ≤ r.trip then
          let n := r.trip / 2
          let mine := { (r.setBase (r.baseAt n)).setTrip (r.trip - n) with disp := s.cyc + 1 }
          let s := s.modUsr v (fun u => { u with deque := u.deque.map (fun x => if x.port then mine else x) })
          (s.modUsr c (fun u => { u with transit := u.transit ++ [due (r.setTrip n)] })).outInc (s.launchKey c) r.own 1
        else
          let n := (ps.length + 1) / 2
          let keep := (dq.foldl (fun ((k, l) : Nat × List LRec) x => if x.port ∧ k < n then (k + 1, l) else (k, l ++ [x])) (0, [])).2
          let s := s.modUsr v (fun u => { u with deque := keep })
          s.modUsr c (fun u => { u with transit := u.transit ++ (ps.take n).map due })

/-- Whether taken records reach a core's deque in the present cycle: their time has come, and there is a place. -/
def User.arriving (u : User) (cyc : Nat) : Bool :=
  decide (u.deque.length < 32) && (match u.transit with | (d, _) :: _ => decide (d ≤ cyc) | [] => false)

/-- STEAL_ARRIVAL (R133): the first of the records on the way. -/
def State.stealArrive (s : State) (c : Nat) : State :=
  s.modUsr c (fun u => if u.arriving s.cyc then { u with deque := u.deque ++ (u.transit.take 1).map Prod.snd, transit := u.transit.drop 1 } else u)

/-! ### CANCEL 0 (R148) -/

/-- CANCEL 0 of a tile's task takes effect at the end of its cycle, after the dispatches of that cycle (R135): the
queued records are removed, those dispatched in this cycle and those that run are cancelled. The first part: how many
were removed. -/
def State.cancelRecords (s : State) (k tile : Nat) : Nat × State :=
  let mine (r : LRec) : Bool := decide (r.own = tile)
  let now (r : LRec) : Bool := decide (r.disp = s.cyc + 1)
  let here (u : User) : Bool := match u.task with | some t => decide (t.launch = k) | none => false
  let gone (u : User) : Nat :=
    if here u then (u.deque.filter (fun r => mine r && !now r)).length + (u.transit.filter (fun (_, r) => mine r && !now r)).length else 0
  let mark (r : LRec) : LRec := if mine r then { r with cancelled := true } else r
  let edit (u : User) : User :=
    if here u then
      { u with
        deque := (u.deque.filter (fun r => !(mine r && !now r))).map mark
        transit := (u.transit.filter (fun (_, r) => !(mine r && !now r))).map (fun (d, r) => (d, mark r))
        ctx := { u.ctx with ret := u.ctx.ret.map (fun f => match f with
          | .rcd x => if mine x.r then .rcd { x with cancelled := true } else .rcd x
          | .plain r => .plain r) } }
    else u
  let n := s.users.foldl (fun n u => n + gone u) 0
  (n, (s.mapUsers edit).outDec k tile n)

end Sys2Proof.Machine
end

