-- ==== Sys2Proof/Machine/ControlOps.lean ====
section
/-! DEFINITION. The control unit's instructions for a task (R136 to R149, R175): branches, calls, loops, records, groups,
traps on demand, cancels, a task's LAUNCH; and the system call (R121, R122). -/
namespace Sys2Proof.Machine

/-- Where issue goes after a bundle: to the next one, to a target, into a TWAIT's drain, or into TEND's. -/
inductive Flow where
  | next
  | jump (to' : Word)
  | twait (own reg id : Nat) (limit : Option Nat)
  | tend
  deriving DecidableEq, Repr

/-- The address `n` bundles after `pc`, `n` signed. -/
def Trig.rel (t : Trig) (n : Word) : Word := t.pc + 32 * n

/-! ### Loop records as operands (R141) -/

/-- The 64 bytes of a record at a scratchpad offset. -/
def State.recAt (s : State) (t : Trig) (o : Nat) : LRec := LRec.ofWords ((upto 0 8).map (fun i => s.spadNum t (o + 8 * i) 8))

/-- The record that an operand names. -/
def State.recOf (s : State) (t : Trig) : LRec :=
  if t.a.getLsbD 63 then nth {} (((s.launchOf? t.c).map Launch.loops).getD []) (fld t.a.toNat 0 8) else s.recAt t t.a.toNat

/-- The checks of an operand that names a record. -/
def State.recCheck (s : State) (t : Trig) : Chk :=
  let n := t.a.toNat
  let l := s.launchOf? t.c
  let name := if t.a.getLsbD 63 then trapIf (decide (fld n 8 55 ≠ 0 ∨ ((l.map Launch.loops).getD []).length ≤ fld n 0 8)) cILLEGAL_PORT
    else (trapIf (decide (spadTop ≤ n)) cSCRATCH_RANGE t.a).or (trapIf (decide (n % 64 ≠ 0)) cMISALIGNED t.a)
  name.or (trapIf (!(s.recOf t).valid ((l.map Launch.bundles).getD 0)) cLOOP_RECORD_INVALID)

/-! ### TGRP (R144) -/

/-- TGRP's value and status for a core at (rx, ry) of a W × H rectangle. -/
def tgrp (c rx ry w h a : Nat) : Word × Status :=
  let sw := fld a 0 4
  let sh := fld a 4 4
  if a / 2 ^ 8 ≠ 0 ∨ 2 ^ sw > w ∨ 2 ^ sh > h then (0, stERROR)
  else
    let g := ry / 2 ^ sh * (w / 2 ^ sw) + rx / 2 ^ sw
    let rank := ry % 2 ^ sh * 2 ^ sw + rx % 2 ^ sw
    let lead := coreAt (cx c - rx % 2 ^ sw) (cy c - ry % 2 ^ sh)
    (BitVec.ofNat 64 (lead * 2 ^ 32 + rank % 2 ^ 16 * 2 ^ 16 + g % 2 ^ 16), stOK)

/-! ### SCHED (R175) -/

/-- SCHED's value and status. -/
def State.schedRead (s : State) (c : Nat) (lan : Bool) (a : Nat) : Word × Status :=
  if a / 2 ^ 9 ≠ 0 then (0, stERROR)
  else if a / 2 ^ 8 = 0 then (BitVec.ofNat 64 (s.cyc % 256), stOK)
  else
    let l := if lan then none else s.launchOf? c
    let p := (l.map Launch.part).getD (s.partOf c)
    let free := (l.map Launch.free).getD false
    (maskOf (fun k => let o := s.cellOwner (dieOf c) (a % 256) k; decide (o = p) || (free && decide (o = 0x1F))), stOK)

/-! ### SYS (R121, R122) -/

/-- The call slots of a ring. -/
def Cont.slots (q : Cont) : Nat := 2 ^ (q.clog - 11) - 1
/-- An aligned 8-byte word of a continuation's call ring. CRING is a virtual address of the continuation; a word that
does not translate reads as 0, and a write to it is dropped (DEDUCED, log entry 47; UNSAFE). -/
def State.ringRd (s : State) (q : Cont) (va : Nat) : Nat :=
  match s.hubPhys q.atp va false with
  | .inl pa => s.mem.num pa 8
  | .inr _ => 0
def State.ringWr (s : State) (q : Cont) (va : Nat) (bs : List Byte) : State :=
  match s.hubPhys q.atp va true with
  | .inl pa => s.storeMem pa bs
  | .inr _ => s
def State.published (s : State) (q : Cont) : Nat := s.ringRd q q.cring
def State.taken (s : State) (q : Cont) : Nat := s.ringRd q (q.cring + 8)
/-- Whether the ring has no free slot. -/
def State.ringFull (s : State) (q : Cont) : Bool := decide ((s.published q + 2 ^ 64 - s.taken q) % 2 ^ 64 = q.slots)

/-- An argument descriptor: its two words. -/
def sysSpace (w0 : Nat) : Nat := w0 % 4
def sysLen (w0 : Nat) : Nat := fld w0 16 16

/-- Whether a descriptor delivers E_SPACE. -/
def sysBadArg (d : Nat × Nat) : Bool :=
  decide (sysSpace d.1 = 3 ∨ fld d.1 2 14 ≠ 0 ∨ d.1 / 2 ^ 32 ≠ 0) || decide (sysSpace d.1 = 2 ∧ 256 < sysLen d.1)

/-- The descriptors of a SYS. -/
def State.sysArgs (s : State) (t : Trig) : List (Nat × Nat) :=
  (upto 0 (fld t.a.toNat 17 3)).map (fun i => (s.spadNum t (t.b.toNat + 16 * i) 8, s.spadNum t (t.b.toNat + 16 * i + 8) 8))

/-- What the descriptors come to, in their order: fine, E_SPACE, or a trap. -/
def sysScan : List (Nat × Nat) → Option Status × Chk
  | [] => (none, .ok)
  | d :: l =>
    if sysBadArg d then (some stESPACE, .ok)
    else if sysSpace d.1 = 2 ∧ spadTop < d.2 + sysLen d.1 then (none, .trap cSCRATCH_RANGE (BitVec.ofNat 64 d.2))
    else sysScan l

/-- Whether a SYS delivers ERROR at once. -/
def sysError (a : Nat) : Bool := decide (a / 2 ^ 20 ≠ 0 ∨ fld a 17 3 = 7)

def State.sysCheck (s : State) (t : Trig) : Chk :=
  let a := t.a.toNat
  let b := t.b.toNat
  (sDesignator t.d).or ((trapIf (decide (b % 16 ≠ 0)) cMISALIGNED t.b).or ((trapIf (decide (spadTop < b + 16 * fld a 17 3)) cSCRATCH_RANGE t.b).or
    (if sysError a then .ok
     else match sysScan (s.sysArgs t) with
      | (some _, _) => .ok
      | (none, .ok) => (match s.contOf? t.c with | some q => trapIf (s.ringFull q) cSYS_RING_FULL | none => .ok)
      | (none, x) => x)))

/-- The words of a call slot but NUM's companions SEQ: offset and value. -/
def sysWords (a cid core : Nat) (args : List (Nat × Nat)) : List (Nat × Nat) :=
  [(0x00, a % 2 ^ 20), (0x10, 0), (0x18, 0), (0x20, core * 2 ^ 32 + cid)] ++
    (List.zip (upto 0 args.length) args).flatMap (fun (i, w0, w1) =>
      [(0x40 + 16 * i, sysLen w0 * 2 ^ 16 + sysSpace w0), (0x48 + 16 * i, if sysSpace w0 = 2 then 0x100 + 256 * i else w1)])

/-- SYS: the call is made ready; the engine publishes it at the end of the cycle or later (State.sysPublish). -/
def State.sysRun (s : State) (t : Trig) : ArvWhen × State :=
  let a := t.a.toNat
  let args := s.sysArgs t
  match s.contOf? t.c with
  | none => s.deliverTrig t 0 stERROR
  | some q =>
    if sysError a then s.deliverTrig t 0 stERROR
    else match sysScan args with
      | (some st, _) => s.deliverTrig t 0 st
      | _ =>
        let inl := (List.zip (upto 0 args.length) args).flatMap (fun (i, w0, w1) =>
          if sysSpace w0 = 2 then (upto 0 (sysLen w0)).map (fun j => (0x100 + 256 * i + j, s.ownSpad t.c t.lim (w1 + j))) else [])
        let id := s.nextOp
        let (w, s) := s.askAgent t 0 0
        let key := s.taskKey t.c
        let x : SysCall := { n := 0, strong := t.a.getLsbD 16, core := t.c, launch := key.1, tile := key.2, reg := t.d, id := id, published := false
                             slot := (sysWords a q.cid t.c args).flatMap (fun (o, v) => [o, v]) |>.map (BitVec.ofNat 64), inl := inl }
        (w, s.modStream q.block (fun r => { r with calls := r.calls ++ [x] }))

/-- Pairs of a list of words. -/
def pairsOf : List Word → List (Nat × Nat)
  | a :: b :: t => (a.toNat, b.toNat) :: pairsOf t
  | _ => []

/-- Whether a call may be published: what its core did before is performed at system scope (R122, R330), and no earlier
strong call is pending if it is strong. -/
def State.callReady (s : State) (x : SysCall) (before : List SysCall) : Bool :=
  !s.undone x.core x.id 3 4 && (!x.strong || !before.any SysCall.strong)

/-- The call slot of a published call. -/
def Cont.slotAt (q : Cont) (n : Nat) : Nat := q.cring + 2048 * (1 + n % q.slots)

/-- Publish one call. -/
def State.publishCall (s : State) (q : Cont) (x : SysCall) : State :=
  let n := s.published q
  let at' := q.slotAt n
  let s := (pairsOf x.slot).foldl (fun s (o, v) => s.ringWr q (at' + o) (toBytesLE 8 v)) s
  let s := x.inl.foldl (fun s (o, b) => s.ringWr q (at' + o) [b]) (s.ringWr q (at' + 8) (toBytesLE 8 n))
  (s.ringWr q q.cring (toBytesLE 8 (n + 1))).modStream q.block (fun r =>
    { r with calls := r.calls.map (fun y => if y.id = x.id then { y with n := n, published := true } else y) })

/-- Publish the calls of a continuation that may be, oldest first. -/
def State.publishCalls (s : State) (q : Cont) : List SysCall → List SysCall → State
  | _, [] => s
  | before, x :: t =>
    if !x.published && s.callReady x before && !s.ringFull q then (s.publishCall q x).publishCalls q (before ++ [x]) t
    else s.publishCalls q (before ++ [x]) t

def State.sysPublish (s : State) (k : Nat) : State :=
  match s.conts.find? k with
  | some q => if q.stream.calls.all SysCall.published then s else s.publishCalls q [] q.stream.calls
  | none => s

/-! ### A task's LAUNCH (R149) -/

/-- The words of a packet image at a scratchpad offset. -/
def State.packetWords (s : State) (t : Trig) : List Nat :=
  let n := pkLen (s.spadNum t t.a.toNat 8)
  (upto 0 (min n 65)).map (fun i => s.spadNum t (t.a.toNat + 8 * i) 8)

def State.launchCheck (s : State) (t : Trig) : Chk :=
  let a := t.a.toNat
  (sDesignator t.d).or ((trapIf (decide (spadTop < a + 8) || decide (spadTop < a + 8 * pkLen (s.spadNum t a 8))) cSCRATCH_RANGE t.a).or
    (trapIf (decide (a % 8 ≠ 0)) cMISALIGNED t.a))

/-- The unfinished launches that tasks of a continuation made. -/
def State.taskLaunches (s : State) (block : Nat) : Nat :=
  (s.launches.filter (fun (_, l) => decide (l.block = block ∧ 0 < l.depth) && l.st != .done)).length

/-- A task's LAUNCH is submitted, once its core's earlier accesses are performed. -/
def State.childLaunch (s : State) (c : Nat) (q : Ask) : State :=
  match s.launchOf? c, s.contOf? c with
  | some l, some k =>
    let h := nth 0 q.data 0
    let scan := scanPacket 2 (pkLen h) (fun _ _ => true) (q.data.drop 1)
    let say (v : Word) (st : Status) (s : State) : State := s.answer q.id q.reg v st
    if pkType h ≠ 2 ∨ pkLen h = 0 ∨ 64 < pkLen h ∨ fld h 15 1 ≠ 0 ∨ scan.bad ∨ !scan.whole then say 0 stERROR s
    else match s.launchOf k scan l.prio l.prio with
      | .ok x =>
        if 256 ≤ s.taskLaunches k.block then say 0 stBUSY s
        else if 3 ≤ l.depth then say 0 stERROR s
        else
          let (key, lid, s) := s.postLaunch { x with parent := some (s.launchKey c), depth := l.depth + 1 }
          say (BitVec.ofNat 64 lid) stOK (s.readyLaunch key)
      | .fault _ => say 0 stFAULTED s
      | _ => say 0 stERROR s
  | _, _ => s.answer q.id q.reg 0 stERROR

/-- The LAUNCHes of a core whose earlier accesses are performed at system scope (R149). -/
def State.childLaunches (s : State) (c : Nat) : State :=
  (s.asksOf c .launch).foldl (fun s q => if s.undone c q.id 3 4 then s else s.childLaunch c q) s

/-! ### Checks and effects of the control unit's other instructions -/

/-- The checks of R138 to R148. -/
def State.ctlCheck (s : State) (t : Trig) : Chk :=
  let x := t.x0
  let n := t.a.toNat
  match t.op with
  | .bri => trapIf (decide (n % 32 ≠ 0)) cMISALIGNED t.a
  | .call => trapIf (decide (16 ≤ x.ret.length)) cCALL_DEPTH
  | .ret => trapIf (decide (x.ret.length = 0)) cCALL_DEPTH
  | .loop =>
    (trapIf (decide (t.a.toInt < 0)) cILLEGAL_PORT).or (trapIf (decide (n ≠ 0 ∧ t.b ≠ 0 ∧ 4 ≤ x.loops.length)) cCALL_DEPTH)
  | .lpost => (sDesignator t.d).or ((s.recCheck t).or (trapIf (decide (32 ≤ (s.usr t.c).deque.length) && t.b.getLsbD 0) cDEQUE_OVERFLOW))
  | .lrun =>
    let all := decide (t.a = BitVec.allOnes 64)
    (sDesignator t.d).or ((if all then .ok else s.recCheck t).or
      (trapIf (decide (16 ≤ x.ret.length) && !(all && (s.usr t.c).deque.isEmpty)) cCALL_DEPTH))
  | .lsplit | .tgrp | .twait | .rdv | .sched => sDesignator t.d
  | .cancel => if n = 1 then .ok else sDesignator t.d
  | .sys => s.sysCheck t
  | .launch => s.launchCheck t
  | _ => .ok

/-- HINT 1: the bundles from the next on, as many as b says and the cache holds, are fetched into it, as far as their addresses
translate (R147). -/
def State.prefetch (s : State) (t : Trig) : State :=
  (upto 0 (min t.b.toNat 2048)).foldl (fun (s : State) (i : Nat) =>
    let a := (t.pc + BitVec.ofNat 64 (32 * (i + 1))).toNat
    s.cacheCode t.c (if t.lan then some a else (s.coreTlb t.c a false).map (fun (e : TlbEnt) => e.phys a))) s

/-- An instruction of the control unit takes effect. In the lantern context TWAIT delivers at once, and TEND and the
instructions that act on a record frame find none (log 32). -/
def State.ctlRun (s : State) (t : Trig) : ArvWhen × Flow × State :=
  let x := t.x0
  let now : ArvWhen := .cycle s.cyc
  let n := t.a.toNat
  let mod (f : Ctx → Ctx) (s : State) : State := s.modCtx t.c t.lan f
  let dl (v : Word) (st : Status) (s : State) : ArvWhen × Flow × State := let (w, s) := s.deliverTrig t v st; (w, .next, s)
  match t.op with
  | .br => (now, .jump (t.rel t.a), s)
  | .bri => (now, .jump t.a, s)
  | .call => (now, .jump (t.rel t.a), mod (fun x => { x with ret := .plain (t.pc + 32) :: x.ret }) s)
  | .ret =>
    match x.ret with
    | .plain r :: _ => (now, .jump r, mod (fun x => { x with ret := x.ret.drop 1 }) s)
    | .rcd f :: _ =>
      let s := (mod (fun x => { x with ret := x.ret.drop 1 }) s).recDone t.c f
      (now, match f.ret with | some r => .jump r | none => .jump (t.pc + 32), s)
    | [] => (now, .next, s)
  | .loop =>
    if n = 0 then (now, .next, mod (fun x => { x with loops := x.loops.drop 1 }) s)
    else if t.b = 0 then (now, .jump (t.rel (t.a + 1)), s)
    else (now, .next, mod (fun x => { x with loops := { start := t.pc + 32, stop := t.rel t.a, count := t.b } :: x.loops }) s)
  | .lpost =>
    if 32 ≤ (s.usr t.c).deque.length then dl 0 stFULL s
    else
      let own := s.callerTile t.c
      dl 0 stOK ((s.modUsr t.c (fun u => { u with deque := u.deque ++ [{ s.recOf t with own := own }] })).outInc (s.launchKey t.c) own 1)
  | .lrun =>
    let go (r : LRec) (counted : Bool) (s : State) : ArvWhen × Flow × State :=
      let (w, s) := s.deliverTrig t 1 stOK
      match s.recStart t.c r (some (t.pc + 32)) counted false with
      | (some pc, s) => (w, .jump pc, s)
      | (none, s) => (w, .next, s)
    if t.a = BitVec.allOnes 64 then match s.takeYoungest t.c with
      | (none, s) => dl 0 stEMPTY s
      | (some r, s) => go r true s
    else go { s.recOf t with own := s.callerTile t.c } false s
  | .lsplit =>
    match innermost x.ret with
    | some f =>
      if f.r.split then
        let (id, s) := s.pend t t.d
        (.op id, .next, mod (fun x => { x with ret := modInnermost (fun f => { f with splits := f.splits ++ [{ keep := t.a, reg := t.d, id := id }] }) x.ret }) s)
      else dl 0 stFAIL s
    | none => dl 0 stFAIL s
  | .tend => (now, if t.lan then .next else .tend, s)
  | .twait =>
    if t.lan then dl 0 stOK s
    else
      let (id, s) := s.pend t t.d
      (.op id, .twait (s.callerTile t.c) t.d id (if n = 0 then none else some (s.cyc + n)), s)
  | .tgrp =>
    match s.launchOf? t.c, s.task? t.c with
    | some l, some k => let (v, st) := tgrp t.c (k.tx % l.W) (k.ty % l.H) l.W l.H n; dl v st s
    | _, _ => dl 0 stERROR s
  | .rdv => dl 0 (if t.late then stTIMEOUT else stOK) s
  | .trap => (now, .next, s.trapOn t.c t.lan { cause := cUSER_TRAP, slot := t.slot, pc := t.pc, after := true, addr := t.a })
  | .dbg =>
    if (s.part (((s.launchOf? t.c).map Launch.part).getD (s.partOf t.c))).dbg then
      (now, .next, s.trapOn t.c t.lan { cause := cBREAKPOINT, slot := t.slot, pc := t.pc, after := true, addr := BitVec.ofNat 64 (n % 2 ^ 16) })
    else (now, .next, s)
  | .wdog => (now, .next, mod (fun x => { x with wdog := if n = 0 then none else some (x.sched.toNat + 1 + min n (2 ^ 40 - 1)) }) s)
  | .sleep => (now, .next, mod (fun x => { x with idle := n % 2 ^ 32 }) s)
  | .prio => (now, .next, mod (fun x => { x with ret := modInnermost (fun f => { f with r := f.r.setPrio (min n 31) }) x.ret }) s)
  | .hint => (now, .next, if n % 2 ^ 8 = 1 then s.prefetch t else s)
  | .cancel =>
    if n = 0 then let (w, s) := s.askAgent t 0 (s.callerTile t.c); (w, .next, s)
    else if n = 1 then
      let (id, s) := s.newId
      (now, .next, s.modUsr t.c (fun u => { u with asks := u.asks ++ [{ op := .cancel, reg := 0xFF, id := id, a := 1, since := s.cyc }] }))
    else dl 0 stERROR s
  | .sched => let (v, st) := s.schedRead t.c t.lan n; dl v st s
  | .sys => let (w, s) := s.sysRun t; (w, .next, s)
  | .launch => let (w, s) := s.askAgent t n 0 none (s.packetWords t); (w, .next, s)
  | _ => (now, .next, s)

/-- The CANCELs of a cycle take effect at its end, after its dispatches (R135, R148). -/
def State.cancels (s : State) (c : Nat) : State :=
  (s.asksOf c .cancel).foldl (fun s q =>
    if q.a = 1 then (s.modUsr c (fun u => { u with asks := u.asks.filter (fun x => decide (x.id ≠ q.id)) })).killLaunch (s.launchKey c) false
    else
      let (n, s) := s.cancelRecords (s.launchKey c) q.b
      s.answer q.id q.reg (BitVec.ofNat 64 n) stOK) s

end Sys2Proof.Machine
end

