-- ==== Sys2Proof/Machine/RegionInstr.lean ====
section
/-! DEFINITION. Atomic regions (R362 to R382): the six instructions, the events at a region's home, the outcomes. A
request to a region whose home is another package leaves this one, and its answer is an event, as are the requests of other
packages' members (log 33). -/
namespace Sys2Proof.Machine

/-! ### Triggers (R376 to R382) -/

/-- The region stores of a handle that core `c` has issued and that have not reached their directories. -/
def State.regionStores (s : State) (c : Nat) (h : Word) : Bool :=
  let u := s.usr c
  (u.mops ++ u.seg.buf).any (fun m => decide (m.handle = some h) && m.op.isStore)

def State.regCheck (s : State) (t : Trig) : Chk :=
  let bundles := ((s.launchOf? t.c).map Launch.bundles).getD 0
  let u := s.usr t.c
  let mine := match u.member with | some m => decide (m.handle = t.a) && !m.voted && !s.badHandle t.a | none => false
  (sDesignator t.d).or (match t.op with
    | .rjoin => trapIf (decide (t.b ≠ BitVec.allOnes 64 ∧ ¬ (t.b.toNat % 32 = 0 ∧ t.b.toNat < 32 * bundles))) cILLEGAL_PORT
    | .rvote => trapIf (!mine) cREGION_STATE
    | .rleave => trapIf (!mine || decide ((u.member.map Member.stores).getD 0 ≠ 0) || s.regionStores t.c t.a) cREGION_STATE
    | _ => .ok)

/-- The lowest free slot of a die. -/
def State.freeSlot (s : State) (die : Nat) : Option Nat :=
  (upto 0 256).find? (fun i => match s.rslots.find? (die * 256 + i) with | some r => r.st == .freed | none => true)

/-- RSTAT's word (R382). -/
def RSlot.word (r : RSlot) : Nat :=
  r.wset.length * 2 ^ 48 + r.votes * 2 ^ 32 + r.members.length * 2 ^ 16 + r.cause * 2 ^ 8 + r.st.code

/-- ROPEN (R377). -/
def State.ropen (s : State) (t : Trig) : ArvWhen × State :=
  let die := dieOf t.c
  if t.a ≠ 0 then s.deliverTrig t 0 stERROR
  else match s.freeSlot die with
    | none => s.deliverTrig t 0 stFULL
    | some i =>
      let h := mkHandle s.plan.pkg die i s.ropens
      let r : RSlot := { handle := h, gen := s.ropens, job := s.jobOf t.c, opener := s.launchKey t.c }
      let s : State := { s with rslots := s.rslots.put (die * 256 + i) r, ropens := s.ropens + 1 }
      s.deliverTrig t h stOK

/-- A region instruction takes effect. -/
def State.regRun (s : State) (t : Trig) : ArvWhen × State :=
  let here := decide (handlePkg t.a = s.plan.pkg)
  match t.op with
  | .ropen => s.ropen t
  | .rvote =>
    (s.modUsr t.c (fun u => { u with member := u.member.map (fun m => { m with voted := true }) })).askAgent t t.a.toNat 0
  | .rleave => s.askAgent t t.a.toNat 0
  | .rstat =>
    if s.badHandle t.a then s.deliverTrig t 0 stERROR
    else if !here then s.askAgent t t.a.toNat 0
    else match s.region? t.a with
      | some r => s.deliverTrig t (BitVec.ofNat 64 r.word) stOK
      | none => s.deliverTrig t 6 stOK
  | _ => if s.badHandle t.a then s.deliverTrig t 0 stERROR else s.askAgent t t.a.toNat t.b.toNat

/-! ### Who asks -/

/-- The ask numbered `id`, with its user side. -/
def State.askBy (s : State) (id : Nat) : Option (User × Ask) :=
  s.users.findSome? (fun u => (u.asks.find? (fun q => decide (q.id = id))).map (fun q => (u, q)))

def State.launchOfUser (s : State) (u : User) : Option (Nat × Launch) :=
  match u.task with
  | some t => (s.launches.find? t.launch).map (fun l => (t.launch, l))
  | none => none

/-- The launch and tile of a user side. -/
def State.userKey (s : State) (u : User) : Nat × Nat :=
  match u.task, s.launchOfUser u with
  | some t, some (k, l) => (k, t.tile l)
  | _, _ => (0, 0)

/-! ### Events at the home (R369) -/

/-- A region operation as its home sees it: who asks, the job, the handle, the abort target, and of a task of this package
whether it is a member of any region and of this one. -/
structure RegBy where
  pkg : Nat
  launch : Nat
  tile : Nat
  job : Nat
  handle : Word
  target : Word := 0
  busy : Bool := false
  mine : Bool := false
  deriving DecidableEq, Repr

/-- The region operation `op` numbered `m`: one of this package's tasks, or one that has arrived from another package. -/
def State.regBy (s : State) (op : Op) (m : Nat) : Option RegBy :=
  match s.askBy m with
  | some (u, q) =>
    let key := s.userKey u
    let h := BitVec.ofNat 64 q.a
    let job := ((s.launchOfUser u).bind (fun (_, l) => l.job)).getD 0
    if q.op = op ∧ (op ≠ .rvote ∨ q.b = 0) then
      some { pkg := s.plan.pkg, launch := key.1, tile := key.2, job := job, handle := h, target := BitVec.ofNat 64 q.b,
             busy := u.member.isSome, mine := u.member.any (fun (x : Member) => decide (x.handle = h)) }
    else none
  | none => (s.fab.regReqs.find? (fun (r : RegReq) => decide (r.n = m ∧ r.op = op))).map (fun (r : RegReq) =>
      { pkg := r.pkg, launch := r.launch, tile := r.tile, job := r.job, handle := r.handle
        mine := match s.region? r.handle with
          | some x => x.members.any (fun (y : RMember) => decide (y.pkg = r.pkg ∧ y.launch = r.launch ∧ y.tile = r.tile))
          | none => false })

/-- A request of another package has been dealt with. -/
def State.dropReq (s : State) (m : Nat) : State :=
  { s with fab := { s.fab with regReqs := s.fab.regReqs.filter (fun (r : RegReq) => decide (r.n ≠ m)) } }

/-- The home answers operation `m`. -/
def State.regSay (s : State) (m : Nat) (v : Word) (st : Status) : State :=
  match s.askBy m with
  | some (_, q) => s.answer q.id q.reg v st
  | none => { (s.dropReq m) with fab := { (s.dropReq m).fab with regSaid := s.fab.regSaid ++ [(m, v, st)] } }

/-- The membership of a task ends by an abort: its region loads still pending land as zero, in an s register with status
ABORTED (R372). -/
def User.aborted (u : User) (h : Word) : User :=
  { u with
    member := none
    delivs := u.delivs.map (fun (d : Deliv) => if d.handle = some h then { d with val := .sc 0, tag := stABORTED, bad := false } else d) }

/-- The last vote of a region, if its votes are its members: the directories lock its write set. -/
def State.lastVote (s : State) (slot : Nat) : State :=
  match s.rslots.find? slot with
  | some r =>
    if r.votes = r.members.length ∧ 0 < r.votes ∧ !r.locking ∧ (r.st = .open' ∨ r.st = .voting) then
      (s.modSlot slot (fun r => { r with st := .voting, locking := true })).soon [.event (.regionLocksHeld slot)]
    else s
  | none => s

/-- Take the task that asks off the members of a region. -/
def RSlot.without (r : RSlot) (b : RegBy) : RSlot :=
  { r with members := r.members.filter (fun (x : RMember) => decide (¬ (x.pkg = b.pkg ∧ x.launch = b.launch ∧ x.tile = b.tile))) }

/-- REGION_JOIN: operation `m` joins (R378). -/
def State.regionJoin (s : State) (slot m : Nat) : State :=
  match s.regBy .rjoin m with
  | none => s
  | some b =>
    if b.busy then s.regSay m 0 stBUSY
    else match s.region? b.handle with
      | none => s.regSay m 0 stFAIL
      | some r =>
        if r.st ≠ .open' then s.regSay m 0 stFAIL
        else if r.job ≠ b.job then s.regSay m 0 stERROR
        else
          let pkgs := (r.members.map RMember.pkg).eraseDups
          if 4096 ≤ r.members.length ∨ (¬ pkgs.contains b.pkg ∧ 64 ≤ pkgs.length) then s.regSay m 0 stFULL
          else
            let s := s.modSlot slot (fun r => { r with members := r.members ++ [{ pkg := b.pkg, launch := b.launch, tile := b.tile }] })
            let s := s.modWaiting m (fun u => { u with member := some { handle := b.handle, target := b.target } })
            s.regSay m (BitVec.ofNat 64 (r.members.length + 1)) stOK

/-- What follows of a leave: a region without a member and without a vote is over, and votes may now be complete (R369). -/
def State.afterLeave (s : State) (slot : Nat) : State :=
  match s.rslots.find? slot with
  | some r =>
    if r.members.isEmpty ∧ r.votes = 0 ∧ r.st = .open' then
      (s.modSlot slot (fun r => { r.discard with st := .aborted, cause := cREGION_ABORT })).soon [.event (.regionFreed slot)]
    else s.lastVote slot
  | none => s

/-- REGION_LEAVE: operation `m` leaves (R381). A leave that finds the region aborting is answered FAIL, and the member
receives the abort (log 34). -/
def State.regionLeave (s : State) (slot m : Nat) : State :=
  match s.regBy .rleave m with
  | none => s
  | some b =>
    match s.region? b.handle with
    | some r =>
      if r.loose then
        let s := ((s.modSlot slot (fun r => r.without b)).afterLeave slot).modWaiting m (fun u => { u with member := none })
        s.regSay m (BitVec.ofNat 64 (r.members.length - 1)) stOK
      else s.regSay m 0 stFAIL
    | none => s.regSay m 0 stFAIL

/-- REGION_VOTE: operation `m`'s vote reaches the home (R369, R379); its answer is the outcome. -/
def State.regionVote (s : State) (slot m : Nat) : State :=
  match s.regBy .rvote m with
  | none => s
  | some b =>
    let s := (s.modWaiting m (fun u => { u with asks := u.asks.map (fun x => if x.id = m then { x with b := 1 } else x) })).dropReq m
    match s.region? b.handle with
    | some r =>
      if r.loose ∧ b.mine then
        let mark (x : RMember) : RMember := if x.pkg = b.pkg ∧ x.launch = b.launch ∧ x.tile = b.tile then { x with voted := true } else x
        (s.modSlot slot (fun r => { r with st := .voting, votes := r.votes + 1, members := r.members.map mark })).lastVote slot
      else s
    | none => s

/-- REGION_ABORT: operation `m`'s RABORT reaches the home (R380). A member that has voted and aborts gets its RVOTE's
delivery too, with the cause (R372). -/
def State.regionAbort (s : State) (slot m : Nat) : State :=
  match s.regBy .rabort m with
  | none => s
  | some b =>
    match s.region? b.handle with
    | none => s.regSay m 6 stFAIL
    | some r =>
      if r.job ≠ b.job then s.regSay m 0 stERROR
      else if r.st = .aborting ∨ r.st = .aborted then s.regSay m (BitVec.ofNat 64 r.st.code) stOK
      else if !r.loose then s.regSay m (BitVec.ofNat 64 r.st.code) stFAIL
      else
        let s := if b.mine then
            let vote := (s.askBy m).bind (fun ((u, _) : User × Ask) => u.asks.find? (fun (q : Ask) => q.op == .rvote))
            let s := (s.modSlot slot (fun r => r.without b)).modWaiting m (fun u => u.aborted b.handle)
            match vote with
            | some q => s.answer q.id q.reg (BitVec.ofNat 64 cREGION_ABORT) stABORTED
            | none => s
          else s
        (s.abortRegion slot cREGION_ABORT).regSay m 4 stOK

/-- REGION_LOCKS_HELD: the commit point (R371). -/
def State.regionLocksHeld (s : State) (slot : Nat) : State :=
  match s.rslots.find? slot with
  | some r => if r.st = .voting ∧ r.locking then (s.modSlot slot (fun r => { r with st := .committing })).soon [.event (.regionLinesWritten slot)] else s
  | none => s

/-- The outcome goes out to every member; a region without one is freed. -/
def State.sendOutcomes (s : State) (slot : Nat) : State :=
  match s.rslots.find? slot with
  | some r =>
    if r.members.isEmpty then s.soon [.event (.regionFreed slot)]
    else s.soon ((upto 0 r.members.length).map (fun i => .event (.regionOutcomeDelivery slot i)))
  | none => s

/-- REGION_LINES_WRITTEN: the tentative bytes are in memory (R371); the outcome OK is sent. -/
def State.regionWritten (s : State) (slot : Nat) : State :=
  match s.rslots.find? slot with
  | some r =>
    if r.st = .committing ∨ (r.st = .voting ∧ r.locking) then (s.writeTentative slot).sendOutcomes slot
    else if r.st = .committed then s.sendOutcomes slot
    else s
  | none => s

/-- REGION_ENTRIES_DISCARDED: the outcome ABORTED is sent. -/
def State.regionDiscarded (s : State) (slot : Nat) : State :=
  match s.rslots.find? slot with
  | some r => if r.st = .aborting then (s.modSlot slot (fun r => { r with st := .aborted })).sendOutcomes slot else s
  | none => s

/-- REGION_FREED: every outcome has been delivered (R369). -/
def State.regionFreed (s : State) (slot : Nat) : State :=
  match s.rslots.find? slot with
  | some r => if (r.st = .committed ∨ r.st = .aborted) ∧ r.members.all RMember.told then s.modSlot slot (fun r => { r.discard with st := .freed }) else s
  | none => s

/-- The outcome of a region of handle `h` reaches a member's user side that `hit` picks: the delivery of its RVOTE, or the
trap it will take; cause 0 is the commit (R372). -/
def State.tellMember (s : State) (h : Word) (cause : Nat) (hit : User → Bool) : State :=
  match s.users.find? hit with
  | none => s
  | some u =>
    let told (f : Member → Member) (u : User) : User := { u with member := u.member.map f }
    match u.asks.find? (fun q => q.op == .rvote) with
    | some q =>
      if cause = 0 then (s.modWaiting q.id (fun u => { u with member := none })).answer q.id q.reg 0 stOK
      else (s.modWaiting q.id (fun u => u.aborted h)).answer q.id q.reg (BitVec.ofNat 64 cause) stABORTED
    | none =>
      if cause = 0 then s.mapUsers (fun u => if hit u then { u with member := none } else u)
      else s.mapUsers (fun u => if hit u then told (fun m => { m with noted := some cause }) { u.aborted h with member := u.member } else u)

/-- Whether a user side is the member `x` of the region of handle `h`. -/
def State.isMember (s : State) (h : Word) (x : RMember) (u : User) : Bool :=
  decide (s.userKey u = (x.launch, x.tile)) && decide (u.member.map Member.handle = some h)

/-- An outcome reaches a member of this package. -/
def State.outcome (s : State) (r : RSlot) (x : RMember) : State :=
  if x.pkg ≠ s.plan.pkg then s else s.tellMember r.handle (if r.st = .committed then 0 else r.cause) (s.isMember r.handle x)

/-- REGION_OUTCOME_DELIVERY: the outcome reaches member number `m` (R372). -/
def State.regionOutcome (s : State) (slot m : Nat) : State :=
  match s.rslots.find? slot with
  | none => s
  | some r =>
    match (r.members.drop m).head? with
    | none => s
    | some x =>
      if x.told ∨ ¬ (r.st = .committed ∨ r.st = .aborted) then s
      else
        let s := (s.outcome r x).modSlot slot (fun r => { r with members := setAt r.members m { x with told := true } })
        match s.rslots.find? slot with
        | some r => if r.members.all RMember.told then s.soon [.event (.regionFreed slot)] else s
        | none => s

/-! ### TEND of a member (R374) -/

/-- TEND issues while the task of core `c` is a member that has not voted: a leave, or an abort by it. -/
def State.tendMember (s : State) (c : Nat) : State :=
  match (s.usr c).member with
  | none => s
  | some m =>
    if m.voted then s
    else
      let slot := s.slotKey m.handle
      let key := s.taskKey c
      let me : RegBy := { pkg := s.plan.pkg, launch := key.1, tile := key.2, job := s.jobOf c, handle := m.handle }
      let s := s.modUsr c (fun u => { u with member := none })
      match s.region? m.handle with
      | none => s
      | some _ =>
        let s := s.modSlot slot (fun r => r.without me)
        if m.stores = 0 then s.afterLeave slot else s.abortRegion slot cREGION_ABORT

/-! ### Other packages (R366, R369 to R372) -/

/-- An access of another package's member reaches the directories of its lines, after the home's own (R366): the bytes of a
load go back to it. -/
def State.regionRemote (s : State) (n : Nat) : State :=
  match s.fab.regReqs.find? (fun (r : RegReq) => decide (r.n = n) && (r.op.isStore || r.op.isLoad)) with
  | none => s
  | some r =>
    let k := s.slotKey r.handle
    let s := (s.meetRegion r.handle).dropReq n
    let (ok, s) := match s.region? r.handle with
      | some _ => s.regionLines k r.op.isStore (linesOf r.pa r.len)
      | none => (false, s)
    if !ok then { s with fab := { s.fab with regSaid := s.fab.regSaid ++ [(n, 0, stABORTED)] } }
    else if r.op.isStore then s.modSlot k (fun x => { x with tent := tentPut x.tent r.pa (r.bytes.take r.len) })
    else { s with answers := s.answers ++ [(n, (upto r.pa r.len).map (s.regionByte k))] }

/-- The next request of another package that meets a condition: those of the lower package first, then of the lower core
(R366). -/
def State.nextReq (s : State) (f : RegReq → Bool) : Option RegReq :=
  (s.fab.regReqs.filter f).foldl (fun (best : Option RegReq) (r : RegReq) =>
    match best with
    | some b => if r.pkg < b.pkg ∨ (r.pkg = b.pkg ∧ r.core < b.core) then some r else best
    | none => some r) none

/-- What the home of a region, another package, has sent takes effect. -/
def State.regionOrder (s : State) : RegOrder → State
  | .answer id v st =>
    match s.askBy id with
    | some (_, q) =>
      let h := BitVec.ofNat 64 q.a
      let s := if st ≠ stOK then s
        else if q.op = .rjoin then s.modWaiting id (fun u => { u with member := some { handle := h, target := BitVec.ofNat 64 q.b } })
        else if q.op = .rleave then s.modWaiting id (fun u => { u with member := none })
        else if q.op = .rabort then s.modWaiting id (fun u => if u.member.any (fun (x : Member) => decide (x.handle = h)) then u.aborted h else u)
        else s
      s.answer q.id q.reg v st
    | none => s
  | .outcome h cause =>
    (s.users.filter (fun (u : User) => decide (u.member.map Member.handle = some h))).foldl (fun (s : State) (u : User) =>
      s.tellMember h cause (fun (w : User) => decide (w.member.map Member.handle = some h ∧ s.userKey w = s.userKey u))) s
  | .lock h => (s.meetRegion h).modSlot (s.slotKey h) (fun r => if r.loose then { r with st := .voting, locking := true } else r)
  | .write h => match s.region? h with
    | some r => if r.locked then s.regionWritten (s.slotKey h) else s
    | none => s
  | .discard h => (s.abortHandle h cREGION_ABORT)

/-- Everything that other packages' homes have sent takes effect. -/
def State.regionOrders (s : State) : State :=
  s.fab.regOrders.foldl State.regionOrder { s with fab := { s.fab with regOrders := [] } }

end Sys2Proof.Machine
end

