-- ==== Sys2Proof/Machine/EstInstr.lean ====
section
/-! DEFINITION. The instructions of the estimating launch (R420 to R424), and the unit's events of a package cycle in the
order of R411. -/
namespace Sys2Proof.Machine

/-- The estimate of a core's launch. -/
def State.estOfCore (s : State) (c : Nat) : Option Estimate :=
  match s.task? c with
  | some t => s.ests.find? t.launch
  | none => none

def State.estCheck (s : State) (t : Trig) : Chk :=
  let none' := (s.estOfCore t.c).isNone
  let pair := if t.op == .epop then trapIf (decide (0x40 ≤ t.d ∨ t.d % 2 = 1)) cILLEGAL_PORT else sDesignator t.d
  pair.or ((trapIf none' cESTIMATE_STATE).or
    (match t.op, s.estOfCore t.c with
      | .epush, some e =>
        trapIf (!e.mayName (s.callerTile t.c) t.a.toNat) cESTIMATE_STATE t.a
      | _, _ => .ok))

/-- EPOP's pair of deliveries that land at the end of the trigger cycle. -/
def State.epopNow (s : State) (t : Trig) (v : Word) (st : Status) : ArvWhen × State :=
  let (w, s) := s.deliverTrig t v st
  (w, (s.deliverTrig { t with u := { t.u with d := BitVec.ofNat 64 (t.d + 1) } } v st).2)

def State.estRun (s : State) (t : Trig) : ArvWhen × State :=
  let tile := s.callerTile t.c
  match t.op with
  | .epop =>
    if t.a ≠ 0 then s.epopNow t 0 stERROR
    else
      let (w, s) := s.askAgent t tile 0
      (w, (s.askAgent { t with u := { t.u with d := BitVec.ofNat 64 (t.d + 1) } } tile 1).2)
  | .epush => s.askAgent t t.a.toNat tile none [t.b.toNat]
  | .estat => if 7 < t.a.toNat then s.deliverTrig t 0 stERROR else s.askAgent t t.a.toNat 0
  | _ => if t.a ≠ 0 then s.deliverTrig t 0 stERROR else s.askAgent t 0 0

def State.modEst (s : State) (k : Nat) (f : Estimate → Estimate) : State := { s with ests := s.ests.upd k f }

/-- The asks of one operation toward the unit of launch `k`, in ascending core number. -/
def State.estAsks (s : State) (k : Nat) (o : Op) : List (Nat × Ask) := (s.coresOf k).flatMap (fun c => (s.asksOf c o).map (fun q => (c, q)))

def State.epopAt (s : State) (k c : Nat) (q : Ask) : State :=
  match s.ests.find? k with
  | none => s
  | some e =>
    if q.b ≠ 0 then s
    else
      let ((p, i, st), e) := e.pop q.a
      let s := (s.modEst k (fun _ => e)).answer q.id q.reg p st
      match (s.asksOf c .epop).find? (fun x => decide (x.b = 1 ∧ x.reg = q.reg + 1)) with
      | some x => s.answer x.id x.reg i st
      | none => s

/-- The unit's events of a cycle for the estimate of launch `k`. -/
def State.estTick (s : State) (k : Nat) : State :=
  match s.launches.find? k, s.ests.find? k with
  | some l, some _ =>
    let s := if l.killed then s.modEst k Estimate.kill else s
    let s := (s.estAsks k .epush).foldl (fun (s : State) ((c, q) : Nat × Ask) => match s.ests.find? k with
      | some e => let (st, e) := e.push c q.a (BitVec.ofNat 64 (nth 0 q.data 0)); (s.modEst k (fun _ => e)).answer q.id q.reg 0 st
      | none => s) s
    let s := l.over'.foldl (fun (s : State) ((tile, _) : Nat × TaskSt) => s.modEst k (fun e => e.dropTile tile)) s
    let s := (s.estAsks k .estop).foldl (fun (s : State) ((_, q) : Nat × Ask) => match s.ests.find? k with
      | some e => let (v, st, e) := e.stop; (s.modEst k (fun _ => e)).answer q.id q.reg v st
      | none => s) s
    let s := (s.estAsks k .epop).foldl (fun (s : State) ((c, q) : Nat × Ask) => s.epopAt k c q) s
    (s.estAsks k .estat).foldl (fun (s : State) ((_, q) : Nat × Ask) => match s.ests.find? k with
      | some e => let (v, st) := e.stat (BitVec.ofNat 64 q.a); s.answer q.id q.reg v st
      | none => s) s
  | _, _ => s

end Sys2Proof.Machine
end

