-- ==== Sys2Proof/Machine/StreamOps.lean ====
section
/-! DEFINITION. The stream processor (R98 to R122, R309, R310, R457): the words it may fetch and those it holds, the
starting and retiring of packets, and what each type of packet does. -/
namespace Sys2Proof.Machine

/-! ### Words (R98, R99, R107, R113) -/

def Stream.top (t : Stream) : BufLevel := t.levels.headD { base := 0, size := 0, next := 0 }
/-- The depth of the buffer that executes: 0 for the ring. -/
def Stream.depth (t : Stream) : Nat := t.levels.length - 1
def Stream.next (t : Stream) : Nat := t.top.next
def Stream.setNext (t : Stream) (n : Nat) : Stream := { t with levels := { t.top with next := n } :: t.levels.drop 1 }
/-- The words of the ring. -/
def Cont.ringWords (q : Cont) : Nat := 2 ^ (q.slog - 3)
/-- The level of a depth. -/
def Stream.level (t : Stream) (d : Nat) : BufLevel := nth t.top t.levels (t.depth - d)
/-- The address of a word of a depth's buffer. -/
def Cont.wordVa (q : Cont) (d i : Nat) : Nat :=
  if d = 0 then q.sbase + 8 * (i % q.ringWords) else (q.stream.level d).base + 8 * i
/-- U of R99: the first ring word of the oldest packet that has not retired. -/
def Stream.oldest (t : Stream) : Nat :=
  (((t.started.filter (fun x => !x.done) ++ t.levels.filterMap BufLevel.call).filter (fun x => decide (x.depth = 0))).map Started.off).foldl min (t.level 0).next
/-- The first word that may not be fetched, of the buffer that executes. -/
def State.fetchEnd (s : State) (q : Cont) : Nat :=
  if q.stream.depth = 0 then min (s.post q.block) (q.stream.oldest + q.ringWords) else q.stream.top.size
/-- Whether a LOOP's body store part holds word `i` of depth `d`. -/
def PktLoop.stores (l : PktLoop) (d i : Nat) : Bool := l.own && decide (l.depth = d ∧ l.start ≤ i ∧ i < l.start + l.len)
/-- The innermost active LOOP whose body holds word `i` of the buffer that executes. -/
def Stream.inner (t : Stream) (i : Nat) : Option PktLoop :=
  t.loops.find? (fun l => decide (l.depth = t.depth ∧ l.start ≤ i ∧ i < l.start + l.len))
/-- A held word of the buffer that executes. -/
def Stream.heldWord (t : Stream) (i : Nat) : Option Nat :=
  match t.loops.find? (fun l => l.stores t.depth i) with
  | some l => l.held.find? (i - l.start)
  | none => t.window.find? i
/-- Hold a word of depth `d`. -/
def Stream.keep (t : Stream) (d i w : Nat) : Stream :=
  if t.loops.any (fun l => l.stores d i) then
    { t with loops := t.loops.map (fun l => if l.stores d i then { l with held := l.held.put (i - l.start) w } else l) }
  else { t with window := t.window.put i w }
/-- A word of the buffer that executes: its held copy, or memory's. -/
def State.pktWord (s : State) (q : Cont) (i : Nat) : Got Nat :=
  match q.stream.heldWord i with
  | some w => .ok w
  | none => s.vNum q.atp (q.wordVa q.stream.depth i) 8

/-- Words from `i` on, up to the first that faults: its address. -/
def State.pktWords (s : State) (q : Cont) : Nat → Nat → List Nat × Option Nat
  | 0, _ => ([], none)
  | n + 1, i =>
    match s.pktWord q i with
    | .ok w => let (l, f) := s.pktWords q n (i + 1); (w :: l, f)
    | .fault a => ([], some a)
    | _ => ([], none)

/-- Read ahead from word `i` on, at most `n` words (R107): a word that faults is not held, and ends the reading. -/
def State.fillGo (s : State) (k lim : Nat) : Nat → Nat → State
  | 0, _ => s
  | n + 1, i =>
    match s.conts.find? k with
    | none => s
    | some q =>
      if lim ≤ i then s
      else match q.stream.heldWord i with
        | some _ => s.fillGo k lim n (i + 1)
        | none => match s.pktWord q i with
          | .ok w =>
            (s.modCont k (fun q => { q with
              stream := q.stream.keep q.stream.depth i w
              fetch := if q.stream.depth = 0 then max q.fetch (i + 1) else q.fetch })).fillGo k lim n (i + 1)
          | _ => s

/-- Read again the words of the body store that are not held (R113, R309). -/
def State.fillBodies (s : State) (k : Nat) : State :=
  match s.conts.find? k with
  | none => s
  | some q =>
    (q.stream.loops.filter PktLoop.own).foldl (fun (s : State) (l : PktLoop) =>
      ((upto 0 l.len).filter (fun i => (l.held.find? i).isNone)).foldl (fun (s : State) (i : Nat) =>
        match s.vNum q.atp (q.wordVa l.depth (l.start + i)) 8 with
        | .ok w => s.modStream k (fun t => t.keep l.depth (l.start + i) w)
        | _ => s) s) s

/-- The window holds the words from the current packet on, at most 128. -/
def State.fill (s : State) (k : Nat) : State :=
  match s.conts.find? k with
  | none => s
  | some q =>
    let n := q.stream.next
    (s.modStream k (fun t => { t with window := t.window.filter (fun (i, _) => decide (n ≤ i)) })).fillGo k (s.fetchEnd q) 128 n

/-! ### Retirement (R100, R117, R310) -/

/-- The progress record (R117). A record whose address does not translate, or lies in a K page, is not written (R334; log 40). -/
def State.writeRecord (s : State) (q : Cont) (x : Started) : State :=
  match s.walk none q.atp q.stream.record true true with
  | .ok e => if e.attr = .K ∨ q.stream.record / 2 ^ 56 ≠ 0 then s else
    let pa := e.phys q.stream.record
    [q.progress + 1, x.off % 2 ^ 26 + 2 ^ 26 * q.stream.st.code + 2 ^ 29 * x.depth + 2 ^ 32 * x.tag, q.stream.skpk,
      q.stream.skfl].zipIdx.foldl (fun (s : State) ((w, i) : Nat × Nat) => s.putNum (pa + 8 * i) w) s
  | _ => s

/-- Count the retirements of the leading packets that are complete. -/
def State.retireGo (s : State) (k : Nat) : Nat → State
  | 0 => s
  | n + 1 =>
    match s.conts.find? k with
    | none => s
    | some q =>
      match q.stream.started with
      | x :: rest =>
        if x.done then
          let s := if q.stream.record ≠ 0 ∧ (x.tag ≠ 0 ∨ x.ty = 0xA) then s.writeRecord q x else s
          ((s.modStream k (fun t => { t with started := rest })).progressAdd k 1).retireGo k n
        else s
      | [] => s

def State.retirePkts (s : State) (k : Nat) : State :=
  s.retireGo k (((s.conts.find? k).map (fun q => q.stream.started.length)).getD 0)

/-- A packet has started. -/
def State.pushPkt (s : State) (k : Nat) (x : Started) : State :=
  (s.modStream k (fun t => { t with started := t.started ++ [x] })).retirePkts k

/-- The first started packet that meets a condition changes. -/
def modFirst {α : Type} (f : α → Bool) (g : α → α) : List α → List α
  | [] => []
  | x :: t => if f x then g x :: t else x :: modFirst f g t

def State.modPkt (s : State) (k : Nat) (f : Started → Bool) (g : Started → Started) : State :=
  (s.modStream k (fun t => { t with started := modFirst f g t.started })).retirePkts k

/-! ### Stops -/

/-- The stream stops at its next packet (R103, R110, R114, R115): the header, if it has been read and its LEN is valid. -/
def State.stopStream (s : State) (k cause addr : Nat) (pca : Nat) (hdr : Option Nat) : State :=
  match s.conts.find? k with
  | none => s
  | some q =>
    let fetch := decide (cause = cSTREAM_FETCH_FAULT)
    (s.modStream k (fun t => { t with st := if fetch then .fetchFault else .bad, faultHdr := hdr })).fault k
      { cls := if fetch then 3 else 2, cause := cause, core := q.anchor, addr := BitVec.ofNat 64 addr
        fpca := BitVec.ofNat 64 pca, time := s.cyc, obj := .stream }

/-! ### The next packet (R101 to R103, R105, R108) -/

/-- What stands at the stream's next word. -/
inductive Look where
  | idle
  | ret
  | fault (addr : Nat) (hdr : Option Nat)
  | bad (hdr : Nat) (valid : Bool)
  | pkt (hdr : Nat) (scan : Scan)
  deriving Repr

/-- The word at which the LOOP body or the indirect buffer that holds the next packet ends. -/
def Stream.bound (t : Stream) : Option Nat :=
  match t.inner t.next with
  | some l => some (l.start + l.len)
  | none => if t.depth = 0 then none else some t.top.size

/-- Whether the stream may start a packet: no packet with O = 0 is unretired, and no WAIT or strong call pends (R105). -/
def Stream.headReady (t : Stream) : Bool :=
  !t.waiting && !t.calls.any SysCall.strong && t.started.all (fun x => x.over' || x.done)

/-- The packets started and unretired, the CALLs under way among them (R105). -/
def Stream.live (t : Stream) : Nat := (t.started.filter (fun x => !x.done)).length + t.depth

/-- The check of a known field of the next packet as its words pass (R108): the values' range; of a LAUNCH that its rectangle fits
the partition, of a LOOP of `len` words that its body lies in the body or buffer around it, at a depth below 3. -/
def State.fieldOk (s : State) (q : Cont) (ty len tag : Nat) (d : List Nat) : Bool :=
  let t := q.stream
  let v := nth 0 d 0
  valueOk ty tag d &&
  match ty, tag with
  | 0x2, 2 => s.fits q.part (2 ^ fld v 0 4) (2 ^ fld v 8 4)
  | 0x6, 2 => decide (t.loops.length < 2) && (match t.bound with | some e => decide (t.next + len + v ≤ e) | none => true)
  | _, _ => true

/-- Look at the next packet. Of a packet skipped under P only what R103 asks of any header is checked, and of an unknown TYPE its
M bit (R106; log 97). -/
def State.look (s : State) (q : Cont) : Look :=
  let t := q.stream
  let i := t.next
  let lim := s.fetchEnd q
  if 0 < t.depth ∧ t.top.size ≤ i then .ret
  else if lim ≤ i ∧ (t.heldWord i).isNone then .idle
  else match s.pktWord q i with
    | .fault a => .fault a none
    | .ok h =>
      let n := pkLen h
      if n = 0 ∨ q.ringWords < n then .bad h false
      else if (match t.bound with | some e => decide (e < i + n) | none => false) then .bad h false
      else if fld h 15 1 = 1 then .bad h true
      else
        let avail := if (t.inner i).isSome then n else min n (lim - i)
        let skip := pkP h && !t.pred
        match knownFields (pkType h) with
        | none => if pkM h then .bad h true else if avail < n then .idle else .pkt h {}
        | some _ =>
          if skip ∧ pkType h ≠ 6 then (if avail < n then .idle else .pkt h {})
          else
            let (ws, f) := s.pktWords q (avail - 1) (i + 1)
            let r := scanPacket (pkType h) n (if skip then fun _ _ => true else s.fieldOk q (pkType h) n) ws
            if r.bad then .bad h true
            else if avail = n ∧ (r.whole || (skip && r.has 2)) then .pkt h r
            else match f with
              | some a => .fault a (some h)
              | none => .idle
    | _ => .idle

/-- Types that start only after every earlier packet has retired (R105). -/
def pktBarrier (ty : Nat) : Bool := ty == 4 || ty == 5 || ty == 9 || ty == 0xA || ty == 0xC

/-- The next word after a packet that ends at word `n`: back to the start of a LOOP body with passes left; with the LOOPs that
go on and those whose last pass has run. -/
def passEnd (d n : Nat) : List PktLoop → Nat × List PktLoop × List PktLoop
  | [] => (n, [], [])
  | l :: t =>
    if l.depth = d ∧ n = l.start + l.len then
      if 1 < l.passes then (l.start, { l with passes := l.passes - 1 } :: t, [])
      else
        let (m, on, off) := passEnd d n t
        (m, on, l :: off)
    else (n, l :: t, [])

/-- Whether a packet of a LOOP's body, or of a buffer that it called, is unretired. -/
def Stream.unretired (t : Stream) (l : PktLoop) : Bool :=
  t.started.any (fun x => !x.done && decide (l.depth < x.depth ∨ (x.depth = l.depth ∧ l.start ≤ x.off ∧ x.off < l.start + l.len)))

/-- The parts of the body store in use (R113): of the LOOPs that run, and of those whose last pass has not retired. -/
def Stream.parts (t : Stream) : Nat := ((t.loops ++ t.ending.filter t.unretired).filter PktLoop.own).length

def Stream.advance (t : Stream) (n : Nat) : Stream :=
  let (m, ls, off) := passEnd t.depth n t.loops
  { t.setNext m with loops := ls, ending := (t.ending ++ off).filter t.unretired }

/-! ### Which packet is due, and the states of a stream (R77, R118, R119) -/

/-- The event of a packet of a type. -/
def pktEvent (ty k : Nat) : Instr :=
  match ty with
  | 0x1 => .pktNop k
  | 0x2 => .pktLaunch k
  | 0x3 => .pktWait k
  | 0x4 => .pktSignal k
  | 0x5 => .pktPred k
  | 0x6 => .pktLoop k
  | 0x7 => .pktCall k
  | 0x8 => .pktReturn k
  | 0x9 => .pktFfence k
  | 0xA => .pktMark k
  | 0xB => .pktCopy k
  | 0xC => .pktBind k
  | _ => .pktUnknown k

/-- Whether the first posted word that the window lacks can be read (R107). -/
def State.canRead (s : State) (q : Cont) : Bool :=
  match (upto q.stream.next 128).find? (fun i => (q.stream.heldWord i).isNone) with
  | some i => decide (i < s.fetchEnd q) && (match s.pktWord q i with | .ok _ => true | _ => false)
  | none => false

/-- The event of the packet at the next word, if it may start; of a packet posted in part, the reading ahead. -/
def State.packetDue (s : State) (q : Cont) : Option Instr :=
  let t := q.stream
  let go (h : Nat) : Option Instr := some (pktEvent (pkType h) q.block)
  if !t.headReady then none
  else match s.look q with
    | .ret => some (.implicitReturn q.block)
    | .fault _ none => some (.streamWindowRefill q.block)
    | .fault _ (some h) => if t.live < 16 then go h else none
    | .bad h _ => if t.live < 16 then go h else none
    | .pkt h _ => if 16 ≤ t.live ∨ (pktBarrier (pkType h) ∧ t.live ≠ t.depth) then none else go h
    | .idle => if s.canRead q then some (.streamWindowRefill q.block) else none

/-- A LOOP whose body is not yet captured (R112). -/
def Stream.capturing (t : Stream) : Bool := t.started.any (fun x => decide (x.ty = 6) && !x.done)

/-- Whether a LOOP's capture goes on: its part of the body store is free, and a word that it lacks may be fetched, or none
is lacking. -/
def State.captureDue (s : State) (q : Cont) : Bool :=
  match q.stream.loops with
  | l :: _ => decide (q.stream.parts ≤ 2) &&
      (match (upto l.start l.len).find? (fun i => (q.stream.heldWord i).isNone) with | some i => decide (i < s.fetchEnd q) | none => true)
  | [] => false

/-- Whether no step of the stream is due: nothing can be fetched or started. -/
def State.atRest (s : State) (q : Cont) : Bool :=
  if q.stream.capturing then !s.captureDue q else !q.stream.refill && (s.packetDue q).isNone

/-- The states that the stream and its continuation are in (R77, R118): a stream at rest with every posted word fetched and a
packet unretired is STALLED, and its continuation WAITING if such a packet is overlapped. -/
def State.streamState (s : State) (q : Cont) : StrSt × ContSt :=
  let t := q.stream
  if t.waiting ∨ t.calls.any SysCall.strong then (.stalled, .waiting)
  else if !s.atRest q then (.active, .running)
  else if t.live = 0 then (.dry, .idle)
  else if s.post q.block ≤ q.fetch then (.stalled, if t.started.any (fun x => x.over' && !x.done) then .waiting else .running)
  else (if 16 ≤ t.live then .stalled else .active, .running)

/-- The states after an event. -/
def State.settleStream (s : State) (k : Nat) : State :=
  match s.conts.find? k with
  | none => s
  | some q =>
    if q.st ≠ .idle ∧ q.st ≠ .running ∧ q.st ≠ .waiting then s
    else if q.stream.st = .fetchFault ∨ q.stream.st = .bad ∨ q.stream.st = .held then s
    else
      let (a, b) := s.streamState q
      let s := if q.stream.st = a then s else s.modStream k (fun t => { t with st := a })
      if q.st = b then s else s.setCont k (fun q => { q with st := b })

/-! ### The effects of packets (R109 to R117) -/

/-- What a packet's execution comes to: done, or a stop of the stream with a cause and an address. -/
inductive PktRes where
  | ok (s : State)
  | stop (cause addr : Nat)

/-- A check's answer as a packet's. -/
def Got.pkt {α : Type} (r : Got α) (f : α → PktRes) : PktRes :=
  match r with
  | .ok x => f x
  | .bad => .stop cSTREAM_BADPKT 0
  | .fault a => .stop cSTREAM_FETCH_FAULT a
  | .notK a => .stop cCOUNTER_PAGE_MISUSE a

/-- PRED's comparison (R110). -/
def predOp (op : Nat) (v x : Word) : Bool :=
  match op with
  | 0 => v == x
  | 1 => v != x
  | 2 => decide (v.toNat < x.toNat)
  | 3 => decide (x.toNat ≤ v.toNat)
  | 4 => decide (v.toInt < x.toInt)
  | _ => decide (x.toInt ≤ v.toInt)

/-- The held words after word `p` are discarded (R107): of the window, and of every LOOP body around it. -/
def Stream.discardAfter (t : Stream) (p : Nat) : Stream :=
  { t with
    window := t.window.filter (fun (i, _) => decide (i ≤ p))
    loops := t.loops.map (fun l =>
      let last := if l.depth = t.depth then p + 1 else (t.level l.depth).next
      { l with held := l.held.filter (fun (i, _) => decide (l.start + i < last)) })
    refill := true }

/-- The return from an indirect buffer (R107, R114, R310): the CALL is counted after its buffer. -/
def State.bufReturn (s : State) (k : Nat) : State :=
  match s.conts.find? k with
  | none => s
  | some q =>
    let call := q.stream.top.call
    let s := s.modCont k (fun q =>
      let t := { q.stream with levels := q.stream.levels.drop 1, window := [] }
      { q with stream := t.advance t.next, fetch := if t.depth = 0 then t.next else q.fetch })
    match call with
    | some x => s.pushPkt k { x with done := true }
    | none => s

/-- The effect of the packet at the next word, whose fields' ranges have been checked (R108). `x` is its record. -/
def State.runPkt (s : State) (q : Cont) (x : Started) (h : Nat) (r : Scan) : PktRes :=
  let k := q.block
  let t := q.stream
  let fin (s : State) : PktRes := .ok (s.pushPkt k { x with done := true })
  match pkType h with
  | 0x1 | 0x8 => fin s
  | 0x2 =>
    (s.launchOf q r q.prio q.prio).pkt fun l =>
      let (key, _, s) := s.postLaunch l
      .ok ((s.readyLaunch key).pushPkt k { x with launch := some key })
  | 0x3 =>
    (s.vCounter q.atp (r.get 1) false).pkt fun pa =>
      .ok ((s.modStream k (fun t => { t with waiting := true })).pushPkt k
        { x with src := pa, dst := r.get 2, len := if r.get 3 = 0 then 0 else s.cyc + 1200 * r.get 3 })
  | 0x4 => (s.vCounter q.atp (r.get 1) true).pkt fun pa => fin (s.counterAdd pa (r.get 2)).2.2
  | 0x5 =>
    (s.vNum q.atp (r.get 1) 8).pkt fun v =>
      let m : Word := BitVec.ofNat 64 ((r.opt 4).getD (2 ^ 64 - 1))
      fin (s.modStream k (fun t => { t with pred := predOp (r.get 3) (BitVec.ofNat 64 v &&& m) (BitVec.ofNat 64 (r.get 2)) }))
  | 0x6 =>
    let start := t.next + pkLen h
    let n := r.get 2
    let outer := t.inner t.next
    let held := (t.window.filter (fun (i, _) => decide (start ≤ i ∧ i < start + n))).map (fun (i, w) => (i - start, w))
    .ok ((s.modStream k (fun t => { t with loops :=
        { depth := t.depth, start := start, len := n, passes := r.get 1, own := outer.isNone, held := if outer.isNone then held else [] } :: t.loops })).pushPkt k
      { x with done := outer.isSome })
  | 0x7 =>
    if 4 ≤ t.depth then .stop cSTREAM_IB_DEPTH 0
    else .ok (s.modStream k (fun t => { t with levels := { base := r.get 1, size := r.get 2, next := 0, call := some x } :: t.levels, window := [] }))
  | 0x9 => fin (s.modCont k (fun q => { q with
      stream := q.stream.discardAfter (t.next + pkLen h - 1), fetch := if t.depth = 0 then t.next + pkLen h else q.fetch }))
  | 0xA =>
    fin (s.modStream k (fun t => { t with record := (r.opt 1).getD t.record }))
  | 0xB =>
    (if r.has 4 then (s.vCounter q.atp (nth 0 (r.data 4) 0) true).bind (fun pa => .ok (some pa)) else .ok none : Got (Option Nat)).pkt fun d =>
      .ok (s.pushPkt k { x with src := r.get 1, dst := r.get 2, len := r.get 3, donePa := d, amount := nth 0 (r.data 4) 1 })
  | 0xC =>
    match bindOf (r.get 2) (r.get 4 + 2 ^ 56 * r.get 3) with
    | some b => fin (s.modCont k (fun q => { q with binds := setAt q.binds (r.get 1) (if r.get 3 = 0 then {} else b) }))
    | none => .stop cSTREAM_BADPKT 0
  | _ => fin (s.modStream k (fun t => { t with skpk := t.skpk + 1 }))

/-- Execute the next packet, skip it under P (R106), or stop at it. -/
def State.startPkt (s : State) (q : Cont) (h : Nat) (r : Scan) : State :=
  let k := q.block
  let t := q.stream
  let i := t.next
  let x : Started := { ty := pkType h, tag := pkTag h, depth := t.depth, off := i, hdr := BitVec.ofNat 64 h, over' := pkO h }
  let skip := pkP h && !t.pred
  if skip then
    if pkType h = 6 ∧ (r.get 2 = 0 ∨ 128 < r.get 2) then s.stopStream k cSTREAM_BADPKT 0 (q.wordVa t.depth i) (some h)
    else (s.modStream k (fun t => t.advance (i + pkLen h + (if pkType h = 6 then r.get 2 else 0)))).pushPkt k { x with done := true }
  else if pkType h = 8 ∧ (t.depth = 0 ∨ (t.inner i).isSome) then s.stopStream k cSTREAM_BADPKT 0 (q.wordVa t.depth i) (some h)
  else match (s.modStream k (fun t => { t with skfl := t.skfl + r.skipped })).runPkt q x h r with
    | .stop c a => s.stopStream k c a (q.wordVa t.depth i) (some h)
    | .ok s =>
      let move (t : Stream) : Stream :=
        if pkType h = 7 then { t with levels := t.top :: (match t.levels.drop 1 with | l :: ls => { l with next := i + pkLen h } :: ls | [] => []) }
        else t.advance (i + pkLen h)
      let s := s.modCont k (fun q =>
        let t := move q.stream
        { q with stream := t, fetch := if t.depth = 0 then max q.fetch (i + pkLen h) else if pkType h = 7 ∧ t.depth = 1 then i + pkLen h else q.fetch })
      if pkType h = 8 then s.bufReturn k else s

/-- Whether a continuation's stream takes steps. -/
def Cont.streaming (q : Cont) : Bool :=
  (q.st == .idle || q.st == .running || q.st == .waiting)
    && !(q.stream.st == .fetchFault || q.stream.st == .bad || q.stream.st == .held)

/-- The LOOP's capture goes on, if a part of the body store is free for it; it retires once its body is held (R112, R113). -/
def State.capture (s : State) (k : Nat) : State :=
  match s.conts.find? k with
  | none => s
  | some q =>
    match q.stream.capturing && decide (q.stream.parts ≤ 2), q.stream.loops with
    | true, l :: _ =>
      let s := s.fillGo k (s.fetchEnd q) l.len l.start
      match s.conts.find? k with
      | none => s
      | some q' =>
        match (upto l.start l.len).find? (fun i => (q'.stream.heldWord i).isNone) with
        | none => s.modPkt k (fun x => decide (x.ty = 6) && !x.done) (fun x => { x with done := true })
        | some i =>
          if i < s.fetchEnd q' then
            match s.pktWord q' i, q'.stream.started.getLast? with
            | .fault a, some x => s.stopStream k cSTREAM_FETCH_FAULT a (q'.wordVa x.depth x.off) (some x.hdr.toNat)
            | _, _ => s
          else s
    | _, _ => s

/-- The step of a packet of the types that `sel` names (R103, R105). -/
def State.packetStep (s : State) (k : Nat) (sel : Nat → Bool) : State :=
  match s.conts.find? k with
  | none => s
  | some q0 =>
    if !q0.streaming || !q0.stream.headReady || 16 ≤ q0.stream.live then s
    else
      let s := s.fill k
      match s.conts.find? k with
      | none => s
      | some q =>
        let pca := q.wordVa q.stream.depth q.stream.next
        let s := match s.look q with
          | .fault a (some h) => if sel (pkType h) then s.stopStream k cSTREAM_FETCH_FAULT a pca (some h) else s
          | .bad h ok => if sel (pkType h) then s.stopStream k cSTREAM_BADPKT 0 pca (if ok then some h else none) else s
          | .pkt h r => if sel (pkType h) && !(pktBarrier (pkType h) && decide (q.stream.live ≠ q.stream.depth)) then (s.startPkt q h r).capture k else s
          | _ => s
        (s.modStream k (fun t => { t with cons := s.cyc + 1 })).settleStream k

/-! ### Steps of the stream that are no packet -/

/-- IMPLICIT_RETURN (R114): the buffer's last word has passed. -/
def State.implicitReturn (s : State) (k : Nat) : State :=
  match s.conts.find? k with
  | none => s
  | some q =>
    match q.streaming && q.stream.headReady, s.look q with
    | true, .ret => ((s.bufReturn k).modStream k (fun t => { t with cons := s.cyc + 1 })).settleStream k
    | _, _ => s

/-- STREAM_WINDOW_REFILL (R107, R115): words are read ahead; a fault on the header that is needed next stops the stream. -/
def State.windowRefill (s : State) (k : Nat) : State :=
  match s.conts.find? k with
  | none => s
  | some q0 =>
    if !q0.streaming then s
    else
      let s := (if q0.stream.capturing then s.capture k else s.fill k).modStream k (fun t => { t with cons := s.cyc + 1 })
      match s.conts.find? k with
      | none => s
      | some q =>
        let s := match q.streaming && q.stream.headReady, s.look q with
          | true, .fault a none => s.stopStream k cSTREAM_FETCH_FAULT a a none
          | _, _ => s
        s.settleStream k

/-- FFENCE_REFILL (R309). -/
def State.ffenceRefill (s : State) (k : Nat) : State :=
  match s.conts.find? k with
  | none => s
  | some q =>
    if !q.streaming || !q.stream.refill then s
    else (((s.fillBodies k).fill k).modStream k (fun t => { t with refill := false, cons := s.cyc + 1 })).settleStream k

/-- The WAIT that waits. -/
def Stream.wait? (t : Stream) : Option Started := if t.waiting then t.started.find? (fun x => decide (x.ty = 3) && !x.done) else none

/-- A WAIT ends with the predicate it sets. -/
def State.endWait (s : State) (k : Nat) (p : Bool) : State :=
  ((s.modStream k (fun t => { t with waiting := false, pred := p, cons := s.cyc + 1 })).modPkt k (fun x => decide (x.ty = 3) && !x.done)
    (fun x => { x with done := true })).settleStream k

/-- Whether the counter of a WAIT has reached its value. -/
def State.waitMet (s : State) (x : Started) : Bool := decide (x.dst ≤ s.mem.num x.src 8)

/-- WAIT_SATISFIED (R110). -/
def State.waitSatisfied (s : State) (k : Nat) : State :=
  match s.conts.find? k with
  | none => s
  | some q => match q.streaming, q.stream.wait? with
    | true, some x => if s.waitMet x then s.endWait k true else s
    | _, _ => s

/-- WAIT_PACKET_TIMEOUT (R110). -/
def State.waitTimeout (s : State) (k : Nat) : State :=
  match s.conts.find? k with
  | none => s
  | some q => match q.streaming, q.stream.wait? with
    | true, some x => if x.len ≠ 0 ∧ x.len ≤ s.cyc ∧ !s.waitMet x then s.endWait k false else s
    | _, _ => s

/-! ### COPY (R116, R457) -/

/-- Whether a COPY has bytes to move. -/
def Started.moving (x : Started) : Bool := decide (x.ty = 0xB) && !x.done && !x.paused && decide (x.pos < x.len)

/-- Whether a COPY moves its bytes from the last to the first: its destination overlaps its source from above, and so no byte
outside the overlap is made of one that is written already (R116). -/
def Started.back (x : Started) : Bool := decide (x.src < x.dst ∧ x.dst < x.src + x.len)

/-- The next stretch of a COPY, at most a line of each side: its offset and its length. -/
def Started.span (x : Started) : Nat × Nat :=
  let left := x.len - x.pos
  let tail (a : Nat) : Nat := if a % 128 = 0 then 128 else a % 128
  if x.back then
    let n := min left (min (tail (x.src + left)) (tail (x.dst + left)))
    (left - n, n)
  else (x.pos, min left (min (128 - (x.src + x.pos) % 128) (128 - (x.dst + x.pos) % 128)))

/-- What a COPY's next stretch comes to: `n` bytes from offset `off` move between two physical addresses, a fault at an
address, or a wait for a region. -/
inductive CopyTurn where
  | move (off n pa pb : Nat)
  | fault (cause addr : Nat)
  | wait (pa va : Nat)
  deriving DecidableEq, Repr

/-- The stretch up to the first word of it, in the order of copying, that is uncorrectable; at that word, the fault (R457). -/
def State.copyWords (s : State) (x : Started) (off n pa pb : Nat) : CopyTurn :=
  match s.unc.filter (fun w => decide (w * 8 < pa + n ∧ pa < w * 8 + 8)) with
  | [] => .move off n pa pb
  | w :: ws =>
    if x.back then
      let e := 8 * ws.foldl max w + 8
      if pa + n ≤ e then .fault cCOPY_FAULT (x.src + off + (e - 8 - pa)) else .move (off + (e - pa)) (pa + n - e) e (pb + (e - pa))
    else
      let e := 8 * ws.foldl min w
      if e ≤ pa then .fault cCOPY_FAULT (x.src + off) else .move off (e - pa) pa pb

/-- The next stretch of a COPY: an address beyond the space, a fault of translation, a K page to be written (R257), a region that
is not the accelerator's (R260) and has been waited for too long, or an uncorrectable word. -/
def State.copyNext (s : State) (q : Cont) (x : Started) : CopyTurn :=
  let (off, n) := x.span
  let a := x.src + off
  let b := x.dst + off
  let late := match x.since with | some t => decide (t + ownLimit < s.cyc) | none => false
  let wait (pa va : Nat) : CopyTurn := if late then .fault cOWNERSHIP_TIMEOUT va else .wait pa va
  if a / 2 ^ 56 ≠ 0 then .fault cADDRESS_RANGE a
  else if b / 2 ^ 56 ≠ 0 then .fault cADDRESS_RANGE b
  else match s.walk none q.atp a true false, s.walk none q.atp b true true with
    | .fault c _, _ => .fault c a
    | _, .fault c _ => .fault c b
    | .ok e, .ok f =>
      if f.attr = .K then .fault cCOUNTER_PAGE_MISUSE b
      else if !s.owned (e.phys a) then wait (e.phys a) a
      else if !s.owned (f.phys b) then wait (f.phys b) b
      else s.copyWords x off n (e.phys a) (f.phys b)

/-- Whether some byte of a stretch of `n` bytes from `a` lies in a range. -/
def overlapOf (a n lo len : Nat) : Option (Nat × Nat) :=
  let x := max a lo
  let y := min (a + n) (lo + len)
  if x < y then some (x, y) else none

/-- The next bytes of the first COPY that moves. Where source and destination overlap, what is written is unspecified. -/
def State.copyMove (s : State) (k : Nat) : State :=
  let put (s : State) (f : Started → Started) : State := s.modStream k (fun t => { t with started := modFirst Started.moving f t.started })
  match s.conts.find? k with
  | none => s
  | some q =>
    match q.stream.started.find? Started.moving with
    | none => s
    | some x =>
      match s.copyNext q x with
      | .fault _ _ => s
      | .wait pa _ => (put s (fun x => { x with since := some (x.since.getD s.cyc) })).wantRegion pa
      | .move off n pa pb =>
        let s := s.unlockLines (linesOf pa n)
        let s := s.storeMem pb (s.mem.rdN pa n)
        let s := match overlapOf (x.dst + off) n x.src x.len with
          | some (lo, hi) =>
            let (g, s) := s.takeGen
            { s with mem := s.mem.spoil (pb + (lo - (x.dst + off))) (pb + (hi - (x.dst + off))) g }
          | none => s
        put s (fun x => { x with pos := x.pos + n, since := none })

/-- Whether a COPY has moved every byte and has not retired. -/
def Started.full (x : Started) : Bool := decide (x.ty = 0xB) && !x.done && !x.paused && decide (x.len ≤ x.pos)

/-- COPY_PACKET_COMPLETE: every byte of a COPY is written; the DONE add, and the packet retires. Once a kill has begun no
such add is made (R89). -/
def State.copyPktDone (s : State) (k : Nat) : State :=
  match s.conts.find? k with
  | none => s
  | some q =>
    match q.st, q.stream.started.find? Started.full with
    | .killing, _ | .dead, _ | _, none => s
    | _, some x =>
      let s := match x.donePa with | some pa => (s.counterAdd pa x.amount).2.2 | none => s
      (s.modPkt k Started.full (fun x => { x with done := true })).settleStream k

/-- COPY_PACKET_FAULT (R457). -/
def State.copyPktFault (s : State) (k : Nat) : State :=
  match s.conts.find? k with
  | none => s
  | some q =>
    match q.stream.started.find? Started.moving with
    | none => s
    | some x =>
      match s.copyNext q x with
      | .move _ _ _ _ | .wait _ _ => s
      | .fault cause a =>
        (s.modStream k (fun t => { t with started := modFirst Started.moving (fun x => { x with paused := true, since := none }) t.started })).fault k
          { cls := classOf cause, cause := cause, slot := 6, core := 0x7FF, addr := BitVec.ofNat 64 a
            fpca := BitVec.ofNat 64 (q.wordVa x.depth x.off), time := s.cyc, obj := .copyPkt }

/-! ### Which step is due (R120) -/

/-- Whether a published call is complete: DONE in its slot (R121). -/
def State.callDone (s : State) (q : Cont) (x : SysCall) : Bool :=
  x.published && decide (s.ringRd q (q.slotAt x.n + 0x10) / 2 ^ 63 = 1)

/-- The step that a continuation's stream would take. -/
def State.streamStep (s : State) (k : Nat) : Option Instr :=
  match s.conts.find? k with
  | none => none
  | some q =>
    let t := q.stream
    if !q.resident || q.parking || q.st == .killing then none
    else if t.calls.any (s.callDone q) then some (.sysCompletion k)
    else if !q.streaming then none
    else match t.wait? with
      | some x =>
        if s.waitMet x then some (.waitSatisfied k)
        else if x.len ≠ 0 ∧ x.len ≤ s.cyc then some (.waitPacketTimeout k) else none
      | none =>
        if t.capturing then (if s.captureDue q then some (.streamWindowRefill k) else none)
        else if t.refill then some (.ffenceRefill k)
        else if (t.heldWord t.next).isNone && decide (t.next < s.fetchEnd q) && (match s.pktWord q t.next with | .ok _ => true | _ => false) then
          some (.streamWindowRefill k)
        else s.packetDue q

/-! ### CRESUME of a stream (R115, R457) -/

/-- Retry (0) or drop (1) of a stopped stream. -/
def State.streamResume (s : State) (k action : Nat) : State :=
  match s.conts.find? k with
  | none => s
  | some q =>
    let t := q.stream
    if t.st ≠ .fetchFault ∧ t.st ≠ .bad then s
    else
      let s := s.modStream k (fun t => { t with st := .active, faultHdr := none })
      if action = 0 then s
      else match t.capturing, t.faultHdr with
        | true, _ => (s.modStream k (fun t => { t with loops := t.loops.drop 1 })).modPkt k (fun x => decide (x.ty = 6) && !x.done) (fun x => { x with done := true })
        | false, some h =>
          (s.modStream k (fun x => x.advance (t.next + pkLen h))).pushPkt k
            { ty := 0, tag := pkTag h, depth := t.depth, off := t.next, hdr := BitVec.ofNat 64 h, over' := true, done := true }
        | false, none => s.modStream k (fun x => x.advance (t.next + 1))

/-- Retry or drop of a paused COPY. -/
def State.copyPktResume (s : State) (k action : Nat) : State :=
  s.modPkt k Started.paused (fun x => { x with paused := false, done := decide (action = 1) })

/-- Parking discards the window and the body store (R107, R113). -/
def Stream.park (t : Stream) : Stream :=
  { t.hold with window := [], loops := t.loops.map (fun l => { l with held := [] }), ending := [] }

/-! ### Launch packets and system calls -/

/-- A launch is DONE: its packet is complete (R104). -/
def State.launchRetired (s : State) (block key : Nat) : State :=
  (s.modPkt block (fun x => decide (x.launch = some key)) (fun x => { x with done := true })).settleStream block

/-- SYS_COMPLETION (R121, R122): every completed call is delivered. -/
def State.sysCompletion (s : State) (k : Nat) : State :=
  match s.conts.find? k with
  | none => s
  | some q =>
    let s := (q.stream.calls.filter (s.callDone q)).foldl (fun (s : State) (x : SysCall) =>
      s.answer x.id x.reg (BitVec.ofNat 64 (s.ringRd q (q.slotAt x.n + 0x18)))
        (BitVec.ofNat 4 (s.ringRd q (q.slotAt x.n + 0x10)))) s
    (s.modStream k (fun t => { t with calls := t.calls.filter (fun x => !s.callDone q x) })).settleStream k

/-- SYS_REISSUE (R122): the bundle that trapped SYS_RING_FULL is issued again once the ring has room. -/
def State.sysReissue (s : State) (c : Nat) : State :=
  match s.contOf? c with
  | none => s
  | some q => if s.held c ∧ (s.trapRec c).cause = cSYS_RING_FULL ∧ !s.ringFull q then s.eret c 0 0 else s

end Sys2Proof.Machine
end

