-- ==== Sys2Proof/Machine/GroupOps.lean ====
section
/-! DEFINITION. Launches on the cores (R150 to R163, R166 to R171): placement, team start, rotation, stops and saved
images, resumption, reclaim, and the end of a launch. -/
namespace Sys2Proof.Machine

/-! ### Frozen cycles (R42, R172, R454) -/

/-- The partition of a core. -/
def State.corePart (s : State) (c : Nat) : Option Nat := (s.cluster (clusterOf c)).cur
def State.shareOf (s : State) (p : Nat) : Nat := 2 ^ (s.part p).share
/-- Whether the present cycle is a share cycle of a core. -/
def State.shareCycle (s : State) (c : Nat) : Bool :=
  match s.corePart c with
  | some p => decide (s.cyc % s.shareOf p = s.shareOf p - 1)
  | none => false
/-- Whether it is a throttle cycle. -/
def State.throttleCycle (s : State) : Bool :=
  match s.mod.throttle with
  | some t => decide (s.cyc % 2 ^ t = 2 ^ t - 1)
  | none => false
/-- A common cycle of R168. -/
def State.common (s : State) (c : Nat) : Bool := !s.shareCycle c && !s.throttleCycle

/-! ### Candidates (R154, R155, R163) -/

/-- The rectangle of a launch that holds it, as against another. -/
def Launch.meets (l : Launch) (x y w h : Nat) : Bool :=
  l.holds && decide (l.x0 < x + w ∧ x < l.x0 + l.W ∧ l.y0 < y + h ∧ y < l.y0 + l.H)
def Launch.covers (l : Launch) (c : Nat) : Bool := l.meets (cx c) (cy c) 1 1
/-- The launches that hold a core of a rectangle. -/
def State.holders (s : State) (x y w h : Nat) : List Nat := (s.launches.filter (fun (_, l) => l.meets x y w h)).map Prod.fst
/-- Whether a continuation with an anchor on a cluster is resident. -/
def State.anchored (s : State) (k : Nat) : Bool := s.conts.any (fun (_, q) => q.resident && decide (clusterOf q.anchor = k))
/-- Whether a cluster holds no placed team, no bivouac image and no anchor. -/
def State.bare (s : State) (k : Nat) : Bool :=
  (s.holders (8 * (k % 8)) (4 * (k / 8)) 8 4).isEmpty && !(clusterCores k).any (fun c => (s.core c).biv.isSome) && !s.anchored k
/-- Whether partition `b` may borrow a cluster. -/
def State.lendable (s : State) (b k : Nat) : Bool :=
  match (s.cluster k).home with
  | some h => decide (h ≠ b ∧ (s.cluster k).cur = some h) && !(s.part h).hard && !(s.part b).hard && s.bare k
      && (s.die (clusterDie k)).cells.any (fun (_, o) => decide (o = b))
  | none => false
/-- Whether a cluster is the partition's to place on: nobody takes it back, and the plan gives it to some partition (R12). -/
def State.ours (s : State) (p k : Nat) : Bool :=
  let x := s.cluster k
  decide (x.cur = some p) && !x.reclaim && x.home.isSome
/-- The clusters of a rectangle that a partition would borrow. -/
def State.borrows (s : State) (p x y w h : Nat) : List Nat := (rectClusters x y w h).filter (fun k => !s.ours p k)
/-- Whether every cluster of a rectangle is the partition's or may be borrowed. -/
def State.mayUse (s : State) (p x y w h : Nat) : Bool := (rectClusters x y w h).all (fun k => s.ours p k || s.lendable p k)

/-- The candidate of fewest borrowed clusters, the first among equals. -/
def State.fewest (s : State) (p w h : Nat) : List (Nat × Nat) → Option (Nat × Nat) → Option (Nat × Nat)
  | [], b => b
  | (x, y) :: t, none => s.fewest p w h t (some (x, y))
  | (x, y) :: t, some (u, v) =>
    s.fewest p w h t (if (s.borrows p x y w h).length < (s.borrows p u v w h).length then some (x, y) else some (u, v))

/-- The lower corner that the arbiter takes for a launch. -/
def State.candidate (s : State) (l : Launch) : Option (Nat × Nat) :=
  s.fewest l.part l.W l.H ((corners l.W l.H).filter (fun (x, y) =>
    (s.holders x y l.W l.H).isEmpty && s.mayUse l.part x y l.W l.H)) none

/-- Whether a launch stands before another in the arbiter's order (R154). -/
def Launch.before (a b : Launch) : Bool :=
  if a.eff ≠ b.eff then decide (b.eff < a.eff)
  else if a.readyAt ≠ b.readyAt then decide (a.readyAt < b.readyAt)
  else if a.cid ≠ b.cid then decide (a.cid < b.cid) else decide (a.lid < b.lid)

/-- The launch at the head of a partition's arbiter. -/
def State.head (s : State) (p : Nat) : Option (Nat × Launch) :=
  (s.launches.filter (fun (_, l) => l.st == .ready && decide (l.part = p)
      && (match s.conts.find? l.block with | some q => q.resident && !q.parking && q.st != .killing | none => false))).foldl
    (fun b (n, l) => match b with | some (m, k) => if l.before k then some (n, l) else some (m, k) | none => some (n, l)) none

/-! ### Cores at rest -/

/-- Whether nothing of a task that is over is under way on a core. -/
def State.coreQuiet (s : State) (c : Nat) : Bool :=
  let u := s.usr c
  (match u.task with | some t => t.st.over' | none => true)
    && u.mops.isEmpty && u.delivs.isEmpty && u.asks.isEmpty && u.seg.buf.isEmpty && u.mseq.isNone && u.cpwaits.isEmpty
    && u.xfers.all (fun x => x.st == .done || x.st == .aborted)
    && u.porters.all (fun p => p.blocks.isEmpty && (p.st == .idle || p.st == .error))
    && (match (s.pair (pairOf c)).run with | some r => decide (r.core ≠ c) | none => true)
    && (s.core c).stop.isNone

/-- Whether a stop under way sends its image to a core. -/
def State.expected (s : State) (d : Nat) : Bool :=
  s.cores.any (fun (_, w) => match w.stop with | some p => decide (p.dest = some d) | none => false)

/-! ### Park units (R171) -/

/-- The 64 KiB units that images at rest and images on their way take of a continuation's park area. -/
def State.unitsUsed (s : State) (block : Nat) : Nat :=
  16 * ((s.launches.filter (fun (_, l) => decide (l.block = block))).foldl (fun n (_, l) => n + l.saved.length) 0
    + (s.cores.filter (fun (_, w) => match w.stop, w.usr.task with
        | some p, some t => p.park && p.dest.isNone && decide ((s.launches.find? t.launch).map Launch.block = some block)
        | _, _ => false)).length)
def State.unitsFree (s : State) (block : Nat) : Nat :=
  match s.conts.find? block with
  | some q => 2 ^ (q.plog - 16) - s.unitsUsed block
  | none => 0

/-- The cores of a partition that advertise bivouac space (R170); a cluster that its home reclaims gives none (log 99). -/
def State.advertising (s : State) (p : Nat) : List Nat :=
  ((s.clusters.filter (fun (_, k) => decide (k.cur = some p) && !k.reclaim)).flatMap (fun (n, _) => clusterCores n)).filter (fun c =>
    !s.launches.any (fun (_, l) => l.covers c) && (s.core c).biv.isNone && !s.expected c)

def coreDist (a b : Nat) : Nat := (max (cx a) (cx b) - min (cx a) (cx b)) + (max (cy a) (cy b) - min (cy a) (cy b))
/-- The nearest core of a list, the lower number among equals. -/
def nearest (c : Nat) (l : List Nat) : Option Nat :=
  l.foldl (fun b d => match b with
    | some e => if coreDist c d < coreDist c e ∨ (coreDist c d = coreDist c e ∧ d < e) then some d else some e
    | none => some d) none

/-- A place for the image of every core of a stop: an advertising core, else a park place; none if one has neither. -/
def reserve : List Nat → List Nat → Nat → Option (List (Nat × Option Nat))
  | [], _, _ => some []
  | c :: t, adv, units =>
    match nearest c adv with
    | some d => (reserve t (adv.filter (fun e => decide (e ≠ d))) units).map (fun l => (c, some d) :: l)
    | none => if 16 ≤ units then (reserve t adv (units - 16)).map (fun l => (c, none) :: l) else none

/-! ### Images (R169, R170) -/

/-- Insert an allocation by ascending base. -/
def allocInsert (a : Alloc) : List Alloc → List Alloc
  | [] => [a]
  | b :: t => if a.base ≤ b.base then a :: b :: t else b :: allocInsert a t
/-- The ranges between allocations, from `lo` on. -/
def allocGaps : Nat → List Alloc → List (Nat × Nat)
  | lo, [] => [(lo, 0xC0000)]
  | lo, a :: t => (lo, a.base) :: allocGaps (a.base + a.size) t
/-- The bytes outside the allocations are unspecified (R266). -/
def spoilGaps (m : Mem) (allocs : List Alloc) (g : Nat) : Mem :=
  ((allocGaps 0 (allocs.foldr allocInsert [])).filter (fun (a, b) => decide (a < b))).foldl (fun (m : Mem) ((a, b) : Nat × Nat) => m.spoil a b g) m

/-- Whether an image fails its integrity check on reload (R169): it is damaged, or an uncorrectable word lies in the units
that it takes. -/
def State.imageBad (s : State) (i : Image) : Bool :=
  i.bad || (match i.at' with | some pa => s.unc.any (fun w => decide (pa ≤ w * 8 ∧ w * 8 < pa + 2 ^ 20)) | none => false)

/-- Take the image of a tile out of its place. -/
def State.takeImage (s : State) (k tile : Nat) : Option Image × State :=
  match (s.launches.find? k).bind (fun l => l.saved.find? (fun i => decide (i.tile = tile))) with
  | some i => (some i, s.modLaunch k (fun l => { l with saved := l.saved.filter (fun i => decide (i.tile ≠ tile)) }))
  | none =>
    match List.find? (fun ((_, w) : Nat × WCore) => match w.biv with | some i => decide (i.launch = k ∧ i.tile = tile) | none => false) s.cores with
    | some (n, w) => (w.biv, s.modCore n (fun w => { w with biv := none }))
    | none => (none, s)

/-- An image is loaded into a core: its task is as it was saved, and the bytes outside its allocations are unspecified; one
that fails its check is FATAL (R169). -/
def State.loadImage (s : State) (c : Nat) (i : Image) : State :=
  if s.imageBad i then s.fatal c cFATAL
  else
    let (g, s) := s.takeGen
    let u := { i.usr with
      spad := spoilGaps i.usr.spad i.usr.allocs g
      task := i.usr.task.map (fun t => { t with st := if t.st == .swapped then .preempted else t.st }) }
    s.modCore c (fun w => { w with usr := u, trapAt := s.cyc, lan := { w.lan with trapSeen := (u.task.map Task.posted).getD false } })

/-- A placement onto a core moves an image it holds to the image's park area. -/
def State.evict (s : State) (c : Nat) : State :=
  match (s.core c).biv with
  | some i => (s.modLaunch i.launch (fun l => { l with saved := l.saved ++ [i] })).modCore c (fun w => { w with biv := none })
  | none => s

/-- Whether the images on a rectangle's cores find room in their park areas. -/
def State.canEvict (s : State) (rect : List Nat) : Bool :=
  let blocks := (rect.filterMap (fun c => (s.core c).biv)).filterMap (fun i => (s.launches.find? i.launch).map Launch.block)
  blocks.all (fun b => decide (16 * countNat b blocks ≤ s.unitsFree b))

/-! ### Fresh tasks (R126, R127, R266) -/

def regsOf (l : List Word) : Vector SReg 64 := (l.zipIdx).foldl (fun (v : Vector SReg 64) ((w, i) : Word × Nat) => rset v i { v := w }) (Vector.replicate 64 {})

/-- The user side of tile (tx, ty) of a launch on core `c`, as placement leaves it. -/
def State.freshUser (s : State) (k : Nat) (l : Launch) (tx ty j c : Nat) : User × State :=
  let (g, s) := s.takeGen
  let inGrid := decide (tx < l.gx ∧ ty < l.gy)
  let spad := (l.allocs.filter Alloc.zeroed).foldl (fun (m : Mem) (a : Alloc) => m.zero a.base (a.base + a.size)) { open' := [(0, 0xC0000, g)] }
  ({ task := some { launch := k, tx := tx, ty := ty, team := j, st := if inGrid then .placed else .ended }
     ctx := { s := regsOf l.args, pc := BitVec.ofNat 64 (l.code + l.entry)
              seed := BitVec.ofNat 64 (l.lid * 2 ^ 32 + (ty * l.gx + tx) % 2 ^ 32) }
     spad := spad, allocs := l.allocs, lfsr := lfsrInit c l.lid
     tids := l.tidDecl.foldl (fun (t : Tab Tid) ((n, w0, w1) : Nat × Word × Word) => t.put n (Tid.declare w0 w1)) []
     porters := l.porters.map (fun p => match p with | some w => { store := w.zipIdx.map (fun (x, i) => (i, x)), sgen := g } | none => { sgen := g }) }, s)

/-! ### Placement and rotation (R153, R155, R158, R160) -/

def Launch.team (l : Launch) (j : Nat) : TeamSt := l.teams.getD j .waiting
def Launch.setTeam (l : Launch) (j : Nat) (t : TeamSt) : Launch := { l with teams := l.teams.put j t }

/-- The first unended team from `j` on, wrapping to 0. -/
def Launch.nextTeam (l : Launch) : Nat → Nat → Option Nat
  | 0, _ => none
  | f + 1, j =>
    let j := if l.teamCount ≤ j then 0 else j
    if l.team j == .ended then l.nextTeam f (j + 1) else some j
/-- A team unended other than the current one. -/
def Launch.otherTeam (l : Launch) : Option Nat :=
  match l.nextTeam (l.teams.length + 1) (l.cur + 1) with
  | some j => if j = l.cur then none else some j
  | none => none

/-- The cores of a rectangle with their offsets in it. -/
def Launch.cells (l : Launch) : List (Nat × Nat) := (upto 0 l.H).flatMap (fun y => (upto 0 l.W).map (fun x => (x, y)))

/-- The tasks of team `j` are put on the rectangle's cores: fresh ones, or those of its saved images. -/
def State.placeTeam (s : State) (k j : Nat) : State :=
  match s.launches.find? k with
  | none => s
  | some l =>
    let swapped := l.team j == .swapped
    let s := l.cells.foldl (fun (s : State) ((x, y) : Nat × Nat) =>
      let c := coreAt (l.x0 + x) (l.y0 + y)
      let tx := j % l.teamsX * l.W + x
      let ty := j / l.teamsX * l.H + y
      let (img, s) := if swapped then s.takeImage k (l.tile tx ty) else (none, s)
      match img with
      | some i => s.loadImage c i
      | none =>
        let (u, s) := s.freshUser k l tx ty j c
        s.modCore c (fun w => { w with usr := u })) s
    let c := s.cyc + 64
    let sh := s.shareOf l.part
    s.modLaunch k (fun l => { l.setTeam j .starting with cur := j, startAt := some (if c % sh = sh - 1 then c + 1 else c) })

/-- A cluster goes to a partition, and firmware clears its scratchpads (R163, R266); or to none, and its cores are gated (R12). -/
def State.giveCluster (s : State) (k : Nat) (p : Option Nat) : State :=
  let s := s.modCluster k (fun x => { x with cur := p, reclaim := false, retryAt := none, gated := p.isNone })
  let s := (clusterCores k).foldl (fun (s : State) (c : Nat) => s.modLan c (fun l => if p.isSome then { l with image := s.mod.imageGen } else l)) s
  (clusterCores k).foldl (fun (s : State) (c : Nat) => if (s.usr c).task.isSome then s else s.modSpad c (fun _ => {})) s

/-- The estimate of a launch is created at its placement (R408). -/
def State.makeEst (s : State) (k : Nat) : State :=
  match (s.launches.find? k).bind Launch.est, s.ests.find? k with
  | some e, none => { s with ests := s.ests.put k { cfg := e } }
  | _, _ => s

/-- The head launch is placed at (x, y). -/
def State.placeAt (s : State) (k : Nat) (l : Launch) (x y : Nat) : State :=
  let s := (s.borrows l.part x y l.W l.H).foldl (fun (s : State) (c : Nat) => s.giveCluster c (some l.part)) s
  let s := (({ l with x0 := x, y0 := y } : Launch).rect.foldl State.evict s).modLaunch k (fun z => { z with x0 := x, y0 := y, st := .placing })
  match l.nextTeam (l.teams.length + 1) l.cur with
  | some j => (s.makeEst k).placeTeam k j
  | none => s

/-! ### Stops (R167, R171) -/

/-- An IDLE that waits on a core is told of a stop, a debugger's request or a command (R180). -/
def State.callLantern (s : State) (c : Nat) : State :=
  if (s.core c).lan.idle.isSome then s.modLan c (fun l => { l with called := true }) else s

/-- Stop every core of a launch's rectangle from cycle `at'` on, their images to go where `l` says. -/
def State.stopCores (s : State) (l : List (Nat × Option Nat)) (at' : Nat) : State :=
  (l.filter (fun (c, _) => (s.task? c).isSome)).foldl (fun (s : State) ((c, d) : Nat × Option Nat) => (s.callLantern c).modCore c (fun w =>
    { w with stop := some { at' := at', reached := (match w.usr.task with | some t => t.st == .preempted | none => false), park := true, dest := d } })) s

/-- The image of core `c`'s task goes to rest: to core `dest`, or to the park area, where `at'` names its place. -/
def State.storeImage (s : State) (c : Nat) (dest at' : Option Nat) : State :=
  match s.launchOf? c with
  | none => s
  | some l =>
    let k := s.launchKey c
    let u := s.usr c
    let u := { u with task := u.task.map (fun t => { t with st := if t.st == .preempted then .swapped else t.st }) }
    let img : Image := { launch := k, tile := (u.task.map (Task.tile · l)).getD 0, usr := u, core := c, at' := at' }
    let s := match dest with
      | some d => s.modCore d (fun w => { w with biv := some img })
      | none => s.modLaunch k (fun l => { l with saved := l.saved ++ [img] })
    s.modCore c (fun w => { w with usr := {} })

/-- Whether the team that is about to start has run before. -/
def State.resumed (s : State) (k : Nat) : Bool :=
  (s.coresOf k).any (fun c => match s.task? c with | some t => t.st == .preempted || t.st == .trapped | none => false)

/-- The tasks of a team that is about to start leave their cores again, the images of a resumed one for the places of `r`. -/
def State.unplace (s : State) (k : Nat) (r : List (Nat × Option Nat)) : State :=
  let back := s.resumed k
  let s := (s.coresOf k).foldl (fun (s : State) (c : Nat) =>
    if back then s.storeImage c ((r.find? (fun (x, _) => decide (x = c))).bind Prod.snd) none else s.modCore c (fun w => { w with usr := {} })) s
  s.modLaunch k (fun l => l.setTeam l.cur (if back then .swapped else .waiting))

/-- A launch goes back to the arbiter (R153). -/
def State.backToReady (s : State) (k : Nat) : State :=
  s.modLaunch k (fun l => { l with st := .ready, readyAt := s.cyc, aged := s.cyc, eff := l.prio, leaving := false, startAt := none })

/-- Stop a placed launch so that it leaves its rectangle; none if its images find no place. -/
def State.stopLaunch (s : State) (k : Nat) : Option State :=
  match s.launches.find? k with
  | none => some s
  | some l =>
    if !l.holds then some s
    else
      let place := reserve l.rect (s.advertising l.part) (s.unitsFree l.block)
      match l.team l.cur with
      | .starting => if s.resumed k then place.map (fun r => (s.unplace k r).backToReady k) else some ((s.unplace k []).backToReady k)
      | .stopping => some (s.modLaunch k (fun l => { l with leaving := true }))
      | _ => place.map (fun r => (s.stopCores r s.cyc).modLaunch k (fun l => { l.setTeam l.cur .stopping with leaving := true }))

/-- Stop several launches; none if one cannot be. -/
def State.stopLaunches (s : State) : List Nat → Option State
  | [] => some s
  | k :: t => (s.stopLaunch k).bind (fun s => s.stopLaunches t)

/-- A parking is over once no launch of the continuation holds cores (R78, R84, R107); the CSAVEs that wait for it return
(R97). -/
def State.parkCheck (s : State) (block : Nat) : State :=
  match s.conts.find? block with
  | none => s
  | some q =>
    if q.parking ∧ !s.launches.any (fun (_, l) => decide (l.block = block) && l.holds) then
      let s := s.setCont block (fun q => { q with st := .parked, parking := false, resident := false, stream := q.stream.park, fetch := (q.stream.level 0).next })
      s.harts.foldl (fun (s : State) ((h, x) : Nat × Hart) => match x.wait with
        | .save rd b => if b = block then s.hartDone h rd 0 else s
        | _ => s) s
    else s

/-- Park a continuation (R84); none if the images find no place (R171). -/
def State.beginPark (s : State) (block : Nat) : Option State :=
  match s.conts.find? block with
  | none => some s
  | some q =>
    if q.parking ∨ (q.st ≠ .idle ∧ q.st ≠ .running ∧ q.st ≠ .waiting ∧ q.st ≠ .faulted) then some s
    else
      (s.stopLaunches ((s.launches.filter (fun (_, l) => decide (l.block = block) && l.holds)).map Prod.fst)).map (fun s =>
        (s.setCont block (fun q => { q with pst := q.st, parking := true, stream := q.stream.hold })).parkCheck block)

/-! ### Displacement and reclaim (R156, R162) -/

/-- Whether a launch may be displaced: at most once per 10 ms (R156). -/
def State.mayShift (s : State) (v : Launch) : Bool := match v.shifted with | some t => decide (t + 12000000 ≤ s.cyc) | none => true

/-- The lower corner where a launch displaces those that hold it: the candidate of R155, with the preference of R163. -/
def State.victimRect (s : State) (l : Launch) : Option (Nat × Nat) :=
  s.fewest l.part l.W l.H ((corners l.W l.H).filter (fun (x, y) =>
    s.mayUse l.part x y l.W l.H && !(s.holders x y l.W l.H).isEmpty
      && s.launches.all (fun (_, v) => !v.meets x y l.W l.H ||
        (v.st == .active && !v.leaving && decide (v.eff + 8 ≤ l.eff) && s.mayShift v)))) none

/-- Displace launches (R153). -/
def State.displace (s : State) (ks : List Nat) : State :=
  match s.stopLaunches ks with
  | some t => ks.foldl (fun (s : State) (k : Nat) => s.modLaunch k (fun l => { l with shifted := some s.cyc })) t
  | none => s

/-- The launches that hold cores of a cluster. -/
def State.clusterHolders (s : State) (k : Nat) : List Nat := s.holders (8 * (k % 8)) (4 * (k / 8)) 8 4

/-- Whether every launch on a cluster may be displaced now. -/
def State.shiftable (s : State) (k : Nat) : Bool := (s.clusterHolders k).all (fun n => ((s.launches.find? n).map s.mayShift).getD true)

/-- The clusters that the head launch of their home needs back (R162). -/
def State.wantsBack (s : State) (p : Nat) : List Nat :=
  match s.head p with
  | none => []
  | some (_, l) =>
    if (s.candidate l).isSome then []
    else
      let lent (k : Nat) : Bool := match (s.cluster k).cur with
        | some b => decide ((s.cluster k).home = some p ∧ b ≠ p ∧ (s.part b).rprio < (s.part p).rprio)
        | none => false
      match (corners l.W l.H).find? (fun (x, y) =>
          (rectClusters x y l.W l.H).all (fun k => decide ((s.cluster k).cur = some p) || lent k)
            && !s.launches.any (fun (_, v) => v.meets x y l.W l.H && decide (v.part = p))) with
      | some (x, y) => (rectClusters x y l.W l.H).filter (fun k => lent k && !(s.cluster k).reclaim && (s.cluster k).retryAt.isNone && s.shiftable k)
      | none => []

/-- CLUSTER_RECLAIM (R162, R171): the borrower's launches on the cluster are displaced, and the continuations anchored on it
parked; where an image finds no place, the reclaim asks again after 10 ms. -/
def State.reclaim (s : State) (k : Nat) : State :=
  let x := s.cluster k
  match x.home, x.cur with
  | some h, some b =>
    if h = b ∨ x.reclaim ∨ (s.part h).rprio ≤ (s.part b).rprio ∨ !s.shiftable k then s
    else
      let ls := s.clusterHolders k
      let qs := (s.conts.filter (fun (_, q) => q.resident && decide (clusterOf q.anchor = k))).map Prod.fst
      match ((s.modCluster k (fun x => { x with reclaim := true, retryAt := none })).stopLaunches ls).bind (fun s => qs.foldl (fun r q => r.bind (fun (s : State) => s.beginPark q)) (some s)) with
      | some t => ls.foldl (fun (s : State) (k : Nat) => s.modLaunch k (fun l => { l with shifted := some s.cyc })) t
      | none => s.modCluster k (fun x => { x with retryAt := some (s.cyc + 12000000) })
  | _, _ => s

/-- RECLAIM_RETRY: the reclaim asks again, where the head of the home still needs the cluster. -/
def State.reclaimRetry (s : State) (k : Nat) : State :=
  match (s.cluster k).retryAt with
  | some t =>
    if t ≤ s.cyc then
      let s := s.modCluster k (fun x => { x with retryAt := none })
      if (match (s.cluster k).home with | some h => (s.wantsBack h).contains k | none => false) then s.reclaim k else s
    else s
  | none => s

/-- Whether a cluster can go home (R162, R163): it is lent, or the plan gives it to nobody (R12), and it is bare; a reclaimed one
need hold no team and no anchor, and the images on it find room in their park areas. -/
def State.goesHome (s : State) (k : Nat) : Bool :=
  let x := s.cluster k
  decide (x.home ≠ x.cur) && (s.bare k || (x.reclaim && (s.clusterHolders k).isEmpty && !s.anchored k && s.canEvict (clusterCores k)))
    && (clusterCores k).all (fun c => s.coreQuiet c && !s.expected c)

/-- CLUSTER_RETURN (R162, R163). -/
def State.clusterReturn (s : State) (k : Nat) : State :=
  if s.goesHome k then ((clusterCores k).foldl State.evict s).giveCluster k (s.cluster k).home else s

/-- LAUNCH_PLACE (R154 to R156, R163): partition `p`'s arbiter places its head, or displaces for it. -/
def State.launchPlace (s : State) (p : Nat) : State :=
  match s.head p with
  | none => s
  | some (k, l) =>
    if !(s.part p).en ∨ (l.est.isSome ∧ (s.ests.find? k).isNone ∧ 256 ≤ s.ests.length) then s
    else match s.candidate l with
      | some (x, y) =>
        let rect := { l with x0 := x, y0 := y }.rect
        if rect.all (fun c => s.coreQuiet c && !s.expected c) && s.canEvict rect then s.placeAt k l x y else s
      | none => match s.victimRect l with
        | some (x, y) => s.displace (s.holders x y l.W l.H)
        | none => s

/-- Whether LAUNCH_PLACE would do anything. -/
def State.placeable (s : State) (p : Nat) : Bool := (s.head p).isSome && decide (s.launchPlace p ≠ s)

/-- The partition whose arbiter places next: that of the head of highest effective priority, then the lower number (R163). -/
def State.placeNext (s : State) : Option Nat :=
  let eff (p : Nat) : Nat := ((s.head p).map (fun (_, l) => l.eff)).getD 0
  ((upto 0 16).filter s.placeable).foldl (fun b p => match b with
    | some q => if eff q < eff p then some p else some q
    | none => some p) none

/-- PRIORITY_AGING (R154). -/
def State.age (s : State) (k : Nat) : State :=
  s.modLaunch k (fun l => if l.st = .ready ∧ l.aged + 12000000 ≤ s.cyc then
    { l with aged := l.aged + 12000000, eff := if l.eff < l.ceil then l.eff + 1 else l.eff } else l)

/-! ### Team start and resumption (R160, R166, R168) -/

/-- The window length and mode of a pair follow the team that starts on its even core (R166). -/
def State.setPairMode (s : State) (l : Launch) (c : Nat) : State :=
  if c % 2 = 0 then s.setPair (pairOf c) { s.pair (pairOf c) with len := l.winLen, solo := l.solo } else s

/-- TEAM_START: on T_s the team's cores issue, or resume in the order of their stop offsets. -/
def State.teamStart (s : State) (k : Nat) : State :=
  match s.launches.find? k with
  | none => s
  | some l =>
    match l.startAt with
    | none => s
    | some t =>
      if s.cyc < t ∨ s.cyc % s.shareOf l.part = s.shareOf l.part - 1 then s
      else
        let tasks := l.rect.filterMap (fun c => s.task? c)
        let dmin := (tasks.filter (fun t => !t.st.over')).foldl (fun m t => min m t.stopOff) (2 ^ 64)
        let s := l.rect.foldl (fun (s : State) (c : Nat) =>
          let s := s.setPairMode l c
          s.modUsr c (fun u => match u.task with
            | some t =>
              if t.st == .placed then { u with task := some { t with st := .running } }
              else { u with resume := some (t.stopOff - dmin, 0) }
            | none => u)) s
        s.modLaunch k (fun l => { l.setTeam l.cur .running with st := .active, startAt := none, quantumEnd := s.cyc + l.quantum })

/-- CORE_RESUME: the core goes on once enough common cycles have passed (R168). -/
def State.coreResume (s : State) (c : Nat) : State :=
  match (s.usr c).resume with
  | some (need, seen) =>
    if need ≤ seen then
      s.modUsr c (fun u => { u with resume := none, task := u.task.map (fun t => { t with st := if t.st == .preempted then .running else t.st }) })
    else s
  | none => s

/-! ### Rotation and saving (R158, R167, R170) -/

/-- Whether a team's quantum has elapsed when the present cycle ends, and the team has not ended (R158). -/
def State.expires (s : State) (k : Nat) : Bool :=
  match s.launches.find? k with
  | some l => l.st == .active && l.team l.cur == .running && decide (l.quantumEnd ≤ s.cyc + 1) && !l.teamOver l.cur
  | none => false

/-- QUANTUM_EXPIRY: the stop request reaches the cores as the next cycle begins. -/
def State.quantumExpiry (s : State) (k : Nat) : State :=
  match s.launches.find? k with
  | none => s
  | some l =>
    if !s.expires k then s
    else match l.otherTeam, reserve l.rect (s.advertising l.part) (s.unitsFree l.block) with
      | some _, some r => (s.stopCores r (s.cyc + 1)).modLaunch k (fun l => l.setTeam l.cur .stopping)
      | _, _ => s.modLaunch k (fun l => { l with quantumEnd := s.cyc + 1 + l.quantum })

/-- A stop reaches its boundary (R167): the segment commits, the waits end, and the stop offset is kept. -/
def State.stopReach (s : State) (c : Nat) : State :=
  match (s.core c).stop with
  | some p =>
    if p.reached then s
    else
      (((s.segCommit c).stopWaits c).modTask c (fun t =>
        { t with st := if t.st == .running then .preempted else t.st, stopOff := p.common, rdvFrom := none, rdvAt := none, rdvGo := none })).modCore c
        (fun w => { w with stop := some { p with reached := true } })
  | none => s

/-- Whether a stop is complete: what R167 waits for has landed. -/
def State.stopDone (s : State) (c : Nat) : Bool :=
  match (s.core c).stop with
  | some p => p.reached && (s.usr c).mops.isEmpty && (s.usr c).delivs.isEmpty
      && (match (s.pair (pairOf c)).run with | some r => decide (r.core ≠ c) | none => true)
  | none => false

/-- The images of a launch's team `j` are gone. -/
def State.dropTeam (s : State) (k j : Nat) : State :=
  let kept (i : Image) : Bool := !(decide (i.launch = k ∧ i.usr.task.map Task.team = some j))
  { s with
    cores := s.cores.map (fun ((n, w) : Nat × WCore) => (n, { w with biv := w.biv.filter kept }))
    launches := s.launches.map (fun ((n, l) : Nat × Launch) => (n, { l with saved := l.saved.filter kept })) }

/-- The rectangle's last core is free: the launch leaves, or the next team takes its turn. Of a team that has ended meanwhile
nothing stays saved (R158). -/
def State.finishSwap (s : State) (k : Nat) : State :=
  match s.launches.find? k with
  | none => s
  | some l =>
    let s := if l.teamOver l.cur then s.dropTeam k l.cur else s
    let l := l.setTeam l.cur (if l.teamOver l.cur then .ended else .swapped)
    let s := s.modLaunch k (fun x => { x with teams := l.teams })
    if l.leaving then (s.backToReady k).parkCheck l.block
    else match l.nextTeam (l.teams.length + 1) (l.cur + 1) with
      | some j => s.placeTeam k j
      | none => s

/-- Whether the image of a stopped core can be saved now; its transfers go on (R167). -/
def State.canSave (s : State) (c : Nat) : Bool :=
  match (s.core c).stop with
  | some p => p.park && s.stopDone c && (match s.launchOf? c with | some l => l.st == .active | none => false) && (s.usr c).porters.all (fun p => p.blocks.isEmpty)
  | none => false

/-- IMAGE_SAVED. -/
def State.imageSaved (s : State) (c : Nat) : State :=
  match s.canSave c, (s.core c).stop, s.launchOf? c with
  | true, some p, some l =>
    let k := s.launchKey c
    let s := (s.storeImage c p.dest none).modCore c (fun w => { w with stop := none })
    if l.rect.all (fun c => (s.core c).stop.isNone) then s.finishSwap k else s
  | _, _, _ => s

/-- A team that has ended hands the rectangle to the next unended one (R158). -/
def State.teamNext (s : State) (k : Nat) : State :=
  match s.launches.find? k with
  | none => s
  | some l =>
    if l.st = .active ∧ l.team l.cur = .running ∧ l.teamOver l.cur ∧ !l.allOver ∧ !l.leaving ∧ l.rect.all s.coreQuiet then
      let l := l.setTeam l.cur .ended
      match l.nextTeam (l.teams.length + 1) (l.cur + 1) with
      | some j => (s.modLaunch k (fun _ => l)).placeTeam k j
      | none => s
    else s

/-! ### The end of a launch (R153, R419) -/

/-- Every task of an ACTIVE launch is over: it drains. -/
def State.allEnded (s : State) (k : Nat) : State :=
  match s.launches.find? k with
  | none => s
  | some l => if l.st = .active ∧ l.allOver then (s.drainLaunch k).modEst k Estimate.drains else s

/-- Whether a draining launch has nothing left under way. -/
def State.drained (s : State) (k : Nat) : Bool :=
  match s.launches.find? k with
  | none => false
  | some l => l.st == .draining
      && (s.coresOf k).all (fun c => s.coreQuiet c || (match s.task? c with | some t => t.st.over' && (s.core c).stop.isSome && (s.usr c).mops.isEmpty && (s.usr c).delivs.isEmpty | none => true))
      && s.images.all (fun i => decide (i.launch ≠ k) || i.usr.xfers.isEmpty)
      && s.launches.all (fun (_, x) => decide (x.parent ≠ some k) || x.st == .done)

/-- The record of an estimate is written (R419). -/
def State.writeEst (s : State) (k : Nat) (l : Launch) : State :=
  match l.est with
  | none => s
  | some e =>
    let x := ((s.ests.find? k).getD (if l.killed then (Estimate.kill { cfg := e }) else { cfg := e })).drains
    let s := if e.record = 0 then s else s.storeMem e.recordPa x.recordBytes
    { s with ests := s.ests.erase k }

/-- The dies that hold a core of a launch's rectangle. -/
def Launch.dies (l : Launch) : List Nat := [0, 1, 2, 3].filter (fun d => l.meets (32 * (d % 2)) (16 * (d / 2)) 32 16)

/-- LAUNCH_DRAINED (R153): every dirty B line of its dies is written back (R325), the DONE add is made, and its packet
retires. -/
def State.launchDrained (s : State) (k : Nat) : State :=
  match s.drained k, s.launches.find? k with
  | true, some l =>
    let s := l.dies.foldl (fun (s : State) (d : Nat) => s.flushB d false (fun _ => true)) s
    let s := s.writeEst k l
    let s := match l.donePa with | some pa => if l.noDone then s else (s.counterAdd pa l.amount).2.2 | none => s
    let s := (s.coresOf k).foldl (fun (s : State) (c : Nat) => s.modCore c (fun w => { w with usr := {}, stop := none })) s
    let s : State := { s with cores := s.cores.map (fun ((n, w) : Nat × WCore) => (n, { w with biv := w.biv.filter (fun i => decide (i.launch ≠ k)) })) }
    ((s.modLaunch k (fun l => { l with st := .done, saved := [] })).launchRetired l.block k).parkCheck l.block
  | _, _ => s

end Sys2Proof.Machine
end

