-- ==== Sys2Proof/Machine/LanternOps.lean ====
section
/-! DEFINITION. The instructions of the lantern context (R49, R174 to R180, R283, R437 to R443, R450), their effects that
come later, debugger holds (R173), and the watchdog (R146). -/
namespace Sys2Proof.Machine

/-! ### Deliveries of the lantern context -/

/-- A delivery at the end of the trigger cycle. -/
def State.say (s : State) (t : Trig) (v : Word) (st : Status) : ArvWhen × State := s.deliverTrig t v st

/-- Whether every access that core `c` triggered before operation `bar` is performed, the stores that its open segment
holds among them. -/
def State.settledTo (s : State) (c bar : Nat) : Bool := (s.ownStores c).all (fun m => decide (bar ≤ m.id))

/-! ### TLB invalidation (R264, R283) -/

/-- Whether a shootdown of a kind takes an entry away. -/
def TlbEnt.hit (e : TlbEnt) (kind asid va : Nat) : Bool :=
  match kind with
  | 0 => decide (e.va ≤ va ∧ va < e.va + e.size) && (e.glob || decide (e.asid = asid))
  | 1 => !e.glob && decide (e.asid = asid)
  | _ => true

/-- The cores of a die. -/
def dieCores (d : Nat) : List Nat :=
  (upto 0 16).flatMap (fun y => (upto 0 32).map (fun x => coreAt (32 * (d % 2) + x) (16 * (d / 2) + y)))

/-- A die's TLBs lose the entries of a shootdown, and its walk cache every line (R283). -/
def State.tlbClear (s : State) (d kind asid va : Nat) (pclr : Bool) : State :=
  let keep (l : List TlbEnt) : List TlbEnt := l.filter (fun e => !e.hit kind asid va)
  let s := s.modDie d (fun x => { x with tlb := keep x.tlb, wlines := [], poison := if pclr then [] else x.poison })
  { s with cores := s.cores.map (fun ((n, w) : Nat × WCore) =>
      (n, if dieOf n = d then { w with tlb := keep w.tlb, settled := keep w.settled } else w)) }

/-- Whether every access of a die's cores that was triggered before operation `bar` is performed. -/
def State.dieSettled (s : State) (d bar : Nat) : Bool := (s.cores.filter (fun (n, _) => decide (dieOf n = d))).all (fun (n, _) => s.settledTo n bar)

/-- TLBI. -/
def State.tlbi (s : State) (t : Trig) : ArvWhen × State :=
  let b := t.b.toNat
  if b / 2 ^ 19 ≠ 0 ∨ b / 2 ^ 16 % 4 = 3 then s.say t 0 stERROR
  else (s.tlbClear (dieOf t.c) (b / 2 ^ 16 % 4) (b % 2 ^ 16) t.a.toNat (t.b.getLsbD 18)).askAgent t s.nextOp 0

/-- SHOOTDOWN_GO: a write of the shootdown register's word at 0x108. GO reads 1 until the shootdown is complete, whatever is
written meanwhile; a write of GO = 0 sets the other fields for a later one (log 93). -/
def State.shootdownGo (s : State) (v : Word) : State :=
  let n := v.toNat
  if n / 2 ^ 20 % 2 ^ 43 ≠ 0 then s
  else if !v.getLsbD 63 then { s with shoot := { s.shoot with ctl := v &&& 0xDFFFF } }
  else if s.shoot.go ∨ n / 2 ^ 18 % 4 = 3 then s
  else
    let s := [0, 1, 2, 3].foldl (fun (s : State) (d : Nat) => s.tlbClear d (n / 2 ^ 18 % 4) (n % 2 ^ 16) s.shoot.va.toNat (v.getLsbD 16)) s
    { s with shoot := { s.shoot with ctl := v &&& 0xDFFFF, go := true, bar := s.nextOp } }

/-- SHOOTDOWN_COMPLETE. -/
def State.shootdownDone (s : State) : State :=
  if s.shoot.go && [0, 1, 2, 3].all (fun d => s.dieSettled d s.shoot.bar) then { s with shoot := { s.shoot with go := false } } else s

/-! ### SNAP and SNAPR (R176) -/

/-- The bytes of a snapshot record. -/
def Pipe.record (e : Pipe) : List Byte :=
  let (n, v) := match e.val with | .sc a => (8, a.toNat) | .vec a => (256, a.toNat)
  toBytesLE 8 (e.rem * 2 ^ 32 + e.unit * 2 ^ 5 + e.port) ++ toBytesLE 8 n ++ toBytesLE (if n = 8 then 16 else 256) v

/-- The records are written and SNAP delivers their count. -/
def State.snapOut (s : State) (c : Nat) (reg id a : Nat) : State :=
  let ps := (s.usr c).ctx.pipe
  let s := if a = 0 then s else s.storeMem a (ps.flatMap Pipe.record)
  s.answerLan c id reg (BitVec.ofNat 64 ps.length) stOK

/-- SNAP: a running task stops; a preempted one is stopped already. -/
def State.snap (s : State) (t : Trig) : ArvWhen × State :=
  let st := (s.task? t.c).map Task.st
  if t.a.toNat % 16 ≠ 0 ∨ (s.core t.c).stop.isSome then s.say t 0 stFAIL
  else if st = some .preempted then
    let (w, s) := s.askAgent t 0 0
    (w, s.snapOut t.c t.d (s.nextOp - 1) t.a.toNat)
  else if st = some .running then
    let (w, s) := s.askAgent t 0 0
    (w, s.modCore t.c (fun x => { x with stop := some { at' := s.cyc, forSnap := some (t.d, s.nextOp - 1, t.a) } }))
  else s.say t 0 stFAIL

/-- The end of SNAP's stop. -/
def State.snapDone (s : State) (c : Nat) : State :=
  match s.stopDone c, (s.core c).stop with
  | true, some p => if p.park then s else
    let s := s.modCore c (fun w => { w with stop := none })
    match p.forSnap with | some (reg, id, a) => s.snapOut c reg id a.toNat | none => s
  | _, _ => s

/-- The first cycle on which a team of a core's partition may start (R160). -/
def State.startOf (s : State) (c : Nat) : Nat :=
  let t := s.cyc + 64
  let sh := ((s.corePart c).map s.shareOf).getD 0
  if sh ≠ 0 ∧ t % sh = sh - 1 then t + 1 else t

/-- SNAPR. -/
def State.snapr (s : State) (t : Trig) : ArvWhen × State :=
  if (s.task? t.c).map Task.st = some .preempted ∧ (s.core t.c).stop.isNone then s.askAgent t 0 0 (some (s.startOf t.c)) else s.say t 0 stFAIL

/-- Whether SNAPR's resumption is due. -/
def State.snaprDue (s : State) (c : Nat) : Option Ask :=
  (s.core c).lan.asks.find? (fun q => q.op == .snapr && (match q.limit with | some t => decide (t ≤ s.cyc) | none => false) && !s.shareCycle c)

/-- CORE_RESUME of either kind (R168, R176). -/
def State.resumeCore (s : State) (c : Nat) : State :=
  match s.snaprDue c with
  | some q =>
    ((s.modTask c (fun t => if t.st == .preempted then { t with st := .running } else t)).modUsr c (fun u => { u with resume := none })).answerLan c q.id q.reg 0 stOK
  | none => s.coreResume c

/-! ### PARK and UNPARK (R177) -/

/-- Whether an operand names an advertising core, or a place in the park area of continuation `k` with room for an image. -/
def State.imagePlace (s : State) (c : Nat) (block : Nat) (a : Word) : Option (Nat ⊕ Nat) :=
  let n := a.toNat
  if a.getLsbD 63 then
    let d := n % 2 ^ 11
    match s.corePart c with
    | some p => if n % 2 ^ 63 / 2 ^ 11 = 0 ∧ (s.cluster (clusterOf d)).cur = some p then some (.inl d) else none
    | none => none
  else match s.conts.find? block with
    | some q => if n % 2 ^ 16 = 0 ∧ q.pbase ≤ n ∧ n + 2 ^ 20 ≤ q.pbase + 2 ^ q.plog then some (.inr n) else none
    | none => none

/-- Whether a core has bivouac space to give (R170). -/
def State.adverts (s : State) (d : Nat) : Bool :=
  !s.launches.any (fun (_, l) => l.covers d) && (s.core d).biv.isNone && !s.expected d

/-- PARK: the image is written once the accesses under way and the porters' blocks have ended; the copies go on. -/
def State.parkCore (s : State) (t : Trig) : ArvWhen × State :=
  match (s.task? t.c).map Task.st, s.launchOf? t.c with
  | some .preempted, some l =>
    match s.imagePlace t.c l.block t.a with
    | some (.inl d) => if s.adverts d ∧ (s.core t.c).stop.isNone then s.askAgent t d 1 else s.say t 0 stFAIL
    | some (.inr n) =>
      if !l.saved.any (fun i => decide (i.at' = some n)) ∧ (s.core t.c).stop.isNone then s.askAgent t n 0 else s.say t 0 stFAIL
    | none => s.say t 0 stFAIL
  | _, _ => s.say t 0 stFAIL

/-- PARK's image is written; where the park area reaches beyond memory the write faults, and the task stays PREEMPTED. -/
def State.parkDone (s : State) (c : Nat) : State :=
  match (s.core c).lan.asks.find? (fun q => q.op == .park) with
  | some q =>
    let u := s.usr c
    if u.porters.all (fun p => p.blocks.isEmpty) && u.mops.isEmpty && u.delivs.isEmpty then
      if q.b = 1 then (s.storeImage c (some q.a) none).answerLan c q.id q.reg 0 stOK
      else if inHbm q.a && inHbm (q.a + (2 ^ 20 - 1)) then (s.storeImage c none (some q.a)).answerLan c q.id q.reg 0 stOK
      else s.answerLan c q.id q.reg 0 stFAULTED
    else s
  | none => s

/-- The image that UNPARK names, with its user side. -/
def State.imageAt (s : State) (c : Nat) (a : Word) : Option Image :=
  if a.getLsbD 63 then
    match s.imagePlace c 0 a with | some (.inl d) => (s.core d).biv | _ => none
  else ((s.launches.flatMap (fun (_, l) => l.saved)).find? (fun i => decide (i.at' = some a.toNat)))

/-- UNPARK. -/
def State.unparkCore (s : State) (t : Trig) : ArvWhen × State :=
  match s.imageAt t.c t.a, (s.usr t.c).task with
  | some i, none =>
    let (_, s) := s.takeImage i.launch i.tile
    (s.loadImage t.c i).say t 0 stOK
  | _, _ => s.say t 0 stFAIL

/-! ### FWSHARE and SLOTW (R178, R179) -/

/-- The next package cycle that is a multiple of `n`. -/
def nextMultiple (c n : Nat) : Nat := (c / n + 1) * n

/-- FWSHARE. -/
def State.fwshare (s : State) (t : Trig) : ArvWhen × State :=
  let a := t.a.toNat
  match s.corePart t.c with
  | some p =>
    if a < 4 ∨ 10 < a then s.say t 0 stERROR
    else
      let (w, s) := s.askAgent t 0 0
      (w, { s with shareWrs := s.shareWrs ++ [{ part := p, share := a, core := t.c, due := nextMultiple s.cyc 1024, reg := t.d, id := s.nextOp - 1 }] })
  | none => s.say t 0 stERROR

/-- Insert by ascending core. -/
def byCore {α : Type} (f : α → Nat) (x : α) : List α → List α
  | [] => [x]
  | y :: t => if f x < f y then x :: y :: t else y :: byCore f x t

/-- SHARE_CHANGE_EFFECT: of several writes the one of the highest core stands. -/
def State.shareEffect (s : State) (p : Nat) : State :=
  let due (x : ShareWr) : Bool := decide (x.part = p ∧ x.due ≤ s.cyc)
  let xs := (s.shareWrs.filter due).foldl (fun l x => byCore ShareWr.core x l) []
  let s := xs.foldl (fun (s : State) (x : ShareWr) => (s.modPart p (fun q => { q with share := x.share })).answerLan x.core x.id x.reg 0 stOK) s
  { s with shareWrs := s.shareWrs.filter (fun x => !due x) }

/-- Whether a partition has a launch that keeps its cells. -/
def State.partBusy (s : State) (p : Nat) : Bool := s.launches.any (fun (_, l) => decide (l.part = p) && (l.st == .active || l.st == .placing))

/-- SLOTW. -/
def State.slotw (s : State) (t : Trig) : ArvWhen × State :=
  let a := t.a.toNat
  let b := t.b.toNat
  let row := a / 2 ^ 8
  let lane := a % 2 ^ 6
  let d := dieOf t.c
  let old := s.cellOwner d row lane
  if a / 2 ^ 16 ≠ 0 ∨ a / 2 ^ 6 % 4 ≠ 0 then s.say t 0 stERROR
  else if b / 2 ^ 5 ≠ 0 ∨ (0x10 ≤ b ∧ b ≠ 0x1F) then s.say t 0 stERROR
  else if (old < 16 && s.partBusy old) || (b < 16 && s.partBusy b) then s.say t 0 stBUSY
  else
    let (w, s) := s.askAgent t 0 0
    (w, { s with slotWrs := s.slotWrs ++ [{ die := d, cell := row * 64 + lane, owner := b, core := t.c, due := nextMultiple s.cyc 256, reg := t.d, id := s.nextOp - 1 }] })

/-- A cell's owner; FREE is listed by nothing. -/
def State.setCell (s : State) (d cell o : Nat) : State :=
  s.modDie d (fun x => { x with cells := if o = 0x1F then x.cells.erase cell else x.cells.put cell o })

/-- SLOT_CELL_EFFECT. -/
def State.slotEffect (s : State) (d cell : Nat) : State :=
  let due (x : SlotWr) : Bool := decide (x.die = d ∧ x.cell = cell ∧ x.due ≤ s.cyc)
  let xs := (s.slotWrs.filter due).foldl (fun l x => byCore SlotWr.core x l) []
  let s := xs.foldl (fun (s : State) (x : SlotWr) => (s.setCell d cell x.owner).answerLan x.core x.id x.reg 0 stOK) s
  { s with slotWrs := s.slotWrs.filter (fun x => !due x) }

/-! ### IDLE (R180) -/

/-- Whether a step is due for a stream that a core serves (R120). -/
def State.servesStep (s : State) (c : Nat) : Bool := s.conts.any (fun (k, q) => decide (q.anchor = c) && (s.streamStep k).isSome)

/-- Why a waiting IDLE ends. -/
def State.idleReason (s : State) (c : Nat) : Option (Word × Status) :=
  let w := s.core c
  match w.lan.idle with
  | none => none
  | some q =>
    if s.held c && !w.lan.trapSeen then some (1, stOK)
    else if s.servesStep c then some (2, stOK)
    else if w.lan.called then some (3, stOK)
    else match q.limit with
      | some t => if t ≤ s.cyc then some (0, stTIMEOUT) else none
      | none => none

/-- IDLE. -/
def State.idle (s : State) (t : Trig) : ArvWhen × State :=
  let (id, s) := s.pend t t.d
  (.op id, s.modLan t.c (fun l => { l with called := false, idle := some { op := .idle, reg := t.d, id := id, limit := if t.a = 0 then none else some (s.cyc + t.a.toNat), since := s.cyc } }))

/-- IDLE_WAKE. -/
def State.idleWake (s : State) (c : Nat) : State :=
  match s.idleReason c, (s.core c).lan.idle with
  | some (v, st), some q => (s.modLan c (fun l => { l with idle := none, called := false, trapSeen := l.trapSeen || decide (v = 1) })).answerLan c q.id q.reg v st
  | _, _ => s

/-! ### Keys (R448 to R450) -/

def keyPart (h : Word) : Nat := h.toNat / 2 ^ 60
def keyClass (h : Word) : Nat := h.toNat / 2 ^ 58 % 4
def State.keyValid (s : State) (h : Word) : Bool := s.mod.keys.any (fun k => decide (k.handle = h) && k.valid)

/-- A partition's memory key changes: what its memory held reads as unpredictable bytes (R449). -/
def State.newMemKey (s : State) (p : Nat) : State :=
  let (g, s) := s.takeGen
  let rs := ((s.plan.parts.find? (fun x => decide (x.part = p))).map PlanPart.mem).getD []
  let s := rs.foldl (fun (s : State) (r : Nat) => { s with mem := s.mem.spoil (r * 2 ^ 21) ((r + 1) * 2 ^ 21) g }) s
  { s with mod := { s.mod with memKeyGen := s.mod.memKeyGen.put p g } }

/-- Keys that meet a condition become invalid. -/
def State.dropKeys (s : State) (f : Key → Bool) : State :=
  { s with mod := { s.mod with keys := s.mod.keys.map (fun k => if f k then { k with valid := false } else k) } }

/-- KEYOP. -/
def State.keyop (s : State) (t : Trig) : ArvWhen × State :=
  let p := (s.corePart t.c).getD 16
  let ours := s.keyValid t.b && decide (keyPart t.b = p)
  match t.a.toNat with
  | 0 => if s.keyValid t.b then s.say t (t.b >>> 58) stOK else s.say t 0 stFAIL
  | 1 =>
    if !ours ∨ keyClass t.b ≠ 1 then s.say t 0 stFAIL
    else if s.launches.any (fun (_, l) => decide (l.part = p) && (l.st == .active || l.st == .placing || l.st == .draining)) then s.say t 0 stBUSY
    else (s.newMemKey p).say t 0 stOK
  | 2 => if !ours then s.say t 0 stFAIL else (s.dropKeys (fun k => decide (k.handle = t.b))).say t 0 stOK
  | 3 =>
    let mine (k : Key) : Bool := k.valid && decide (keyPart k.handle = p)
    ((s.dropKeys mine).newMemKey p).say t (BitVec.ofNat 64 (s.mod.keys.filter mine).length) stOK
  | _ => s.say t 0 stERROR

/-! ### The instructions (R174, R437) -/

/-- The trigger-time check of an instruction of the lantern context: the register it delivers into. -/
def lanternCheck (t : Trig) : Chk :=
  match t.op with
  | .eret | .dump => .ok
  | _ => sDesignator t.d

/-- An instruction of the lantern context takes effect. -/
def State.lanternRun (s : State) (t : Trig) : ArvWhen × State :=
  let a := t.a.toNat
  let now : ArvWhen := .cycle s.cyc
  match t.op with
  | .eret => (now, if a < 8 then s.eret t.c a t.b.toNat else s)
  | .snap => s.snap t
  | .snapr => s.snapr t
  | .segrew =>
    let (st, due, s) := s.segrew t.c a
    let (id, s) := s.pend t t.d
    (.op id, s.send t.c { id := id, reg := t.d, val := .sc 0, tag := st, due := due, lan := t.lan })
  | .inj => let (v, st, s) := s.inj t.c a t.b.toNat; s.say t v st
  | .fcsr => let (v, st, s) := s.fcsr t.c a t.b; s.say t v st
  | .tlbi => s.tlbi t
  | .faultq =>
    if 2 ^ 8 ≤ a ∨ a / 2 ^ 6 = 0 ∨ a / 2 ^ 6 = 3 ∨ !s.held t.c then s.say t 0 stERROR
    else
      let (w, s) := s.askAgent t 0 0
      (w, s.faultq t.c (a / 2 ^ 6) (a % 2 ^ 6) t.b (some (s.nextOp - 1, t.d)))
  | .park => s.parkCore t
  | .unpark => s.unparkCore t
  | .dump => (now, s.fatal t.c a)
  | .fwshare => s.fwshare t
  | .slotw => s.slotw t
  | .keyop => s.keyop t
  | .idle => s.idle t
  | _ => (now, s)

/-- At the end of a cycle: the lantern operations of a core whose conditions hold. -/
def State.lanternEnd (s : State) (c : Nat) : State :=
  let s := (s.snapDone c).parkDone c
  ((s.core c).lan.asks.filter (fun q => q.op == .tlbi)).foldl (fun (s : State) (q : Ask) =>
    if s.dieSettled (dieOf c) q.a then s.answerLan c q.id q.reg 0 stOK else s) s

/-! ### Debugger holds (R173), the share violation and the watchdog (R146, R436) -/

/-- Whether the partition of a core lets a debugger hold its tasks. -/
def State.mayDebug (s : State) (c : Nat) : Bool := match s.corePart c with | some p => (s.part p).dbg | none => false

/-- DEBUG_HOLD: a stop. -/
def State.debugHold (s : State) (c : Nat) : State :=
  if s.mayDebug c ∧ (s.task? c).map Task.st = some .running ∧ (s.core c).stop.isNone then
    (s.callLantern c).modCore c (fun w => { w with debugHeld := true, stop := some { at' := s.cyc } })
  else s

/-- Let a held task go on. -/
def State.letGo (s : State) (c : Nat) : State :=
  match (s.task? c).map Task.st with
  | some .preempted => if (s.core c).stop.isSome then s else s.modTask c (fun t => { t with st := .running })
  | some .trapped => if isDebug (s.trapRec c).cause then s.eret c 0 0 else s
  | _ => s

/-- DEBUG_STEP: one user cycle, at whose end the task traps DEBUG_STEP (`State.stepEnd`). -/
def State.debugStep (s : State) (c : Nat) : State :=
  if s.mayDebug c ∧ (s.core c).debugHeld then ((s.callLantern c).letGo c).modCore c (fun w => { w with debugStep := true }) else s

/-- DEBUG_RELEASE. -/
def State.debugRelease (s : State) (c : Nat) : State :=
  if (s.core c).debugHeld then ((s.callLantern c).letGo c).modCore c (fun w => { w with debugHeld := false, debugStep := false }) else s

/-- Whether firmware has held one trap for more than 2^24 cycles; a trap that it has posted, or holds for a debugger, waits
for others. -/
def State.heldTooLong (s : State) (c : Nat) : Bool :=
  s.held c && !((s.task? c).map Task.posted).getD false && !(s.core c).debugHeld && decide ((s.core c).trapAt + 2 ^ 24 < s.cyc)

/-- SHARE_VIOLATION is FATAL (R436). -/
def State.shareViolation (s : State) (c : Nat) : State := if s.heldTooLong c then s.fatal c cSHARE_VIOLATION else s

/-- WATCHDOG_EXPIRY. -/
def State.watchdogExpiry (s : State) (c : Nat) : State :=
  let x := (s.usr c).ctx
  match x.wdog with
  | some t =>
    if t ≤ x.sched.toNat then
      (s.modCtx c false (fun x => { x with wdog := none })).trapAfter c { cause := cWATCHDOG, pc := x.pc }
    else s
  | none => s

end Sys2Proof.Machine
end

