-- ==== Sys2Proof/Machine/LinkOps.lean ====
section
/-! DEFINITION. The Stolpin fabric (R383 to R397, R402 to R407): ports, messages at their sender and destination, the
quiescence wave, reduction windows; and PCI Express landing (R398 to R401). -/
namespace Sys2Proof.Machine

/-! ### Ports (R384 to R387) -/

def State.port' (s : State) (n : Nat) : Stolpin := s.fab.ports.getD n {}
def State.modPort (s : State) (n : Nat) (f : Stolpin → Stolpin) : State := { s with fab := { s.fab with ports := s.fab.ports.put n (f (s.port' n)) } }
def Stolpin.carries (p : Stolpin) : Bool := p.st == .up || p.st == .degraded
/-- The port by which messages leave: the lowest that carries traffic. -/
def State.route (s : State) : Option Nat := (List.find? (fun (n, p) => decide (n < 96) && Stolpin.carries p) s.fab.ports).map Prod.fst

/-- The payload bytes of a message. -/
def MsgKind.payload : MsgKind → List Byte
  | .msg _ _ _ p => p
  | .rwr _ p => p
  | _ => []
/-- The flits of a message (R383). -/
def Msg.flits (m : Msg) : Nat := (32 + m.kind.payload.length + 255) / 256

/-- Whether a message is a fetching RAMO, which has an answer, and whether it is such an answer. -/
def MsgKind.fetches : MsgKind → Bool
  | .ramo _ _ _ _ f => f
  | _ => false
def MsgKind.answers : MsgKind → Bool
  | .answer _ _ _ => true
  | _ => false

/-- What leaves for another package by a port; without a route it goes nowhere. -/
def State.depart (s : State) (m : Msg) : State :=
  match s.route with
  | some n => s.modPort n (fun p => { p with replay := p.replay ++ [m] })
  | none => s

/-- The answer of a fetching RAMO, the old value or the notice of its loss, goes to its sender, a core of this package or
another package (R393, R405). It is no message of its job (R389). -/
def State.ramoAnswer (s : State) (m : Msg) (v : Word) (lost : Bool) : State :=
  if !m.kind.fetches then s
  else if m.src = s.plan.pkg then (match m.reply with | some (c, id, _) => s.soon [.event (.ramoReply c id v lost)] | none => s)
  else
    { s with fab := { s.fab with nextSeq := s.fab.nextSeq + 1 } }.depart
      { seq := s.fab.nextSeq, src := s.plan.pkg, dst := m.src, job := m.job, key := 2 ^ 20, kind := .answer m.ref v lost }

/-- A message is lost at this package (R393): it is counted, and the sender of a fetching RAMO hears of it. -/
def State.loseMsg (s : State) (m : Msg) (cause : Nat) : State := (s.countLoss m.job 1 cause).ramoAnswer m 0 true

/-- A message leaves for another package, or is lost for want of a route. -/
def State.transmit (s : State) (m : Msg) : State :=
  if s.route.isNone && !m.kind.answers then s.loseMsg m cMESSAGE_UNDELIVERABLE else s.depart m

/-- The port goes DOWN: what it has not had acknowledged goes another way (R386). -/
def State.portDown (s : State) (n : Nat) : State :=
  let ms := (s.port' n).replay
  ms.foldl State.transmit (s.modPort n (fun p => { p with st := .down, peer := 0xFF, fails := 0, replay := [] }))

/-- The flits of the replay buffer, 64 at most, are sent again (R384, R387). -/
def Stolpin.resend (p : Stolpin) : Stolpin :=
  { p with retry := min (p.retry + min (p.replay.foldl (fun n m => n + m.flits) 0) 64) (2 ^ 32 - 1) }
/-- A flit is refused: it is sent again, and 16 resends in a row that fail exhaust the retry (R384). -/
def Stolpin.refused (p : Stolpin) : Stolpin := { (if 16 ≤ p.fails then p else p.resend) with fails := p.fails + 1 }

/-- PORT_TRAIN. -/
def State.portTrain (s : State) (n : Nat) : State :=
  if n < 96 ∧ (s.port' n).st = .down then s.modPort n (fun p => { p with st := .training, began := s.cyc }) else s
/-- PORT_TRAINED on two lanes, one, or none. -/
def State.portTrained (s : State) (n lanes : Nat) : State :=
  if (s.port' n).st = .training then
    s.modPort n (fun p => if lanes = 0 then { p with st := .down } else
      { p with st := if 2 ≤ lanes then .up else .degraded, peer := Config.peerSwitch n % 256 })
  else s
/-- PORT_TRAINING_TIMEOUT: 10 ms have passed. -/
def State.portTimeout (s : State) (n : Nat) : State :=
  if (s.port' n).st = .training ∧ (s.port' n).began + 12000000 ≤ s.cyc then s.modPort n (fun p => { p with st := .down }) else s
/-- LANE_LOST. -/
def State.laneLost (s : State) (n : Nat) : State :=
  match (s.port' n).st with
  | .up => s.modPort n (fun p => { p.resend with st := .degraded })
  | .degraded => s.portDown n
  | _ => s
/-- RETRY_EXHAUSTED. -/
def State.retryExhausted (s : State) (n : Nat) : State := if (s.port' n).carries then s.portDown n else s

/-! ### What a port receives (R384, R386; the layout of a header is the model's, log 42) -/

/-- A message from the words of its header and payload; the mark of an uncorrectable error. -/
def msgOf (words : List Word) : Option (Msg × Bool) :=
  let w (i : Nat) : Nat := (nth 0 words i).toNat
  let h := w 0
  let va := w 2 % 2 ^ 56
  let len := fld h 49 9
  let data := ((words.drop 4).flatMap (fun x => toBytesLE 8 x.toNat)).take len
  let kind : Option MsgKind := match fld h 0 4 with
    | 0 => some (.msg (fld (w 2) 0 11) (fld (w 2) 16 8) (fld (w 2) 32 20) data)
    | 1 => some (.rwr va data)
    | 2 => some (.ramo va (fld h 12 4) (decide (fld h 10 1 = 1)) (BitVec.ofNat 64 (w 3)) (decide (fld h 11 1 = 1)))
    | 3 => some (.rred va (BitVec.ofNat 64 (w 3)))
    | 4 => some (.amoWin va (BitVec.ofNat 64 (w 3)))
    | _ => none
  kind.map (fun k => ({ seq := w 1, src := fld h 4 6, dst := 0, job := fld h 16 16, key := fld h 32 17, kind := k, ref := w 1 }, decide (fld h 63 1 = 1)))

/-- FLIT_RECEIVE: a bad CRC is refused; acknowledgements and refusals act on the replay buffer; a message enters once. -/
def State.flitReceive (s : State) (n : Nat) (good : Bool) (words : List Word) : State :=
  if !(s.port' n).carries || !good then s
  else match fld (nth 0 words 0).toNat 0 4 with
    | 15 => s.modPort n (fun p => { p with replay := p.replay.drop (nth 0 words 1).toNat, fails := 0 })
    | 14 =>
      let s := s.modPort n Stolpin.refused
      if 16 < (s.port' n).fails then s.portDown n else s
    | _ => match msgOf words with
      | none => s
      | some (m, bad) =>
        if s.fab.seen.contains (m.src, m.seq) then s
        else
          let s := { s with fab := { s.fab with seen := (m.src, m.seq) :: s.fab.seen } }
          if bad then s.loseMsg m cUNCORRECTABLE_CONSUMED else s.arrive m

/-! ### The destination (R388, R393, R394, R404, R405) -/

/-- Take a message out. -/
def State.dropMsg (s : State) (seq : Nat) : State := { s with fab := { s.fab with msgs := s.fab.msgs.filter (fun (m : Msg) => decide (m.seq ≠ seq)) } }
def State.msg? (s : State) (seq : Nat) : Option Msg := s.fab.msgs.find? (fun (m : Msg) => decide (m.seq = seq))
/-- The address of a message, if it has one. -/
def MsgKind.va : MsgKind → Option Nat
  | .msg _ _ _ _ => none
  | .rwr va _ => some va
  | .ramo va _ _ _ _ => some va
  | .rred va _ => some va
  | .amoWin va _ => some va
  | .answer _ _ _ => none
/-- The first and the last of the 2 MiB regions that a message reaches. -/
def MsgKind.span (k : MsgKind) : Option (Nat × Nat) := k.va.map (fun va => (va / 2 ^ 21, (va + (k.payload.length - 1)) / 2 ^ 21))
/-- Whether a held message of the same job with a region of the message stands before one (R394). -/
def State.behind (s : State) (m : Msg) : Bool :=
  match m.kind.span with
  | none => false
  | some (lo, hi) => s.fab.msgs.any (fun (x : Msg) => x.held && decide (x.job = m.job ∧ x.seq < m.seq) &&
      x.kind.span.any (fun (r : Nat × Nat) => decide (r.1 ≤ hi ∧ lo ≤ r.2)))
/-- The holder of a job, if it is held and not being killed. -/
def State.holder (s : State) (job : Nat) : Option Cont :=
  match s.fab.jobs.find? job with
  | none => none
  | some j => match s.conts.find? j.holder with
    | some q => if q.st == .killing || q.st == .dead || q.st == .free then none else some q
    | none => none

/-- Whether nobody holds a message's job any more: it is lost, held or not (R393). -/
def State.orphan (s : State) (m : Msg) : Bool := (s.holder m.job).isNone

/-- A translation of a message's address fails: held with a fault record if the cause is resolvable, else lost. -/
def State.msgFault (s : State) (m : Msg) (cause va : Nat) : State :=
  if resolvable cause then
    let s := { s with fab := { s.fab with msgs := s.fab.msgs.map (fun (x : Msg) => if x.seq = m.seq then { x with held := true } else x) } }
    match s.holder m.job with
    | some q => s.fault q.block { cls := 1, cause := cause, slot := 6, core := 0x7FF, addr := BitVec.ofNat 64 va, time := s.cyc, obj := .message m.seq }
    | none => s
  else (s.loseMsg m cause).dropMsg m.seq

/-- Where `n` bytes of a job's address space lie, in 8-byte granules: the page of the first byte, or the fault. -/
def State.msgPlace (s : State) (job va n : Nat) (store : Bool) : Option (Nat × Nat) :=
  ((upto 0 ((n + 7) / 8)).filterMap (fun i =>
    match s.jobPhys job (va + 8 * i) store with | .inl _ => none | .inr c => some (c, va + 8 * i))).head?

/-- RWR_ARRIVAL (R405). -/
def State.rwrArrival (s : State) (seq : Nat) : State :=
  match s.msg? seq with
  | some m => match m.kind with
    | .rwr va data =>
      if s.orphan m then (s.loseMsg m cMESSAGE_UNDELIVERABLE).dropMsg seq
      else if m.held || s.behind m then s
      else match s.msgPlace m.job va data.length true with
        | some (c, a) => s.msgFault m c a
        | none =>
          let pieces := (upto 0 (data.length / 8)).filterMap (fun i =>
            match s.jobPhys m.job (va + 8 * i) true with | .inl e => some (e, e.phys (va + 8 * i), (data.drop (8 * i)).take 8) | .inr _ => none)
          if pieces.any (fun (e, _, _) => e.attr == .K) then (s.loseMsg m cCOUNTER_PAGE_MISUSE).dropMsg seq
          else ((pieces.foldl (fun (s : State) ((_, pa, b) : TlbEnt × Nat × List Byte) => s.storeMem pa b) s).countCons m.job 1).dropMsg seq
    | _ => s
  | none => s

/-- RAMO_ARRIVAL (R405). -/
def State.ramoArrival (s : State) (seq : Nat) : State :=
  match s.msg? seq with
  | some m => match m.kind with
    | .ramo va aop w32 b _ =>
      let w := if w32 then 4 else 8
      if s.orphan m then (s.loseMsg m cMESSAGE_UNDELIVERABLE).dropMsg seq
      else if m.held || s.behind m then s
      else match s.jobPhys m.job va true with
        | .inr c => s.msgFault m c va
        | .inl e =>
          if e.attr = .K then (s.loseMsg m cCOUNTER_PAGE_MISUSE).dropMsg seq
          else if e.attr = .B then (s.loseMsg m cATOMIC_SPACE).dropMsg seq
          else
            let pa := e.phys va
            let s := s.unlockLines (linesOf pa w)
            let old := s.mem.num pa w
            let s := ((s.storeMem pa (toBytesLE w (amoNew aop w old (b.toNat % 2 ^ (8 * w))))).countCons m.job 1).dropMsg seq
            s.ramoAnswer m (BitVec.ofNat 64 old) false
    | _ => s
  | none => s

/-- RAMO_REPLY: the reply, or the loss notice, of a fetching RAMO that core `c` sent. -/
def State.ramoReply (s : State) (id : Nat) (v : Word) (lost : Bool) : State :=
  match s.askBy id with
  | some (_, q) => if q.op = .ramo then (if lost then s.answer id q.reg 0 stDROPPED else s.answer id q.reg v stOK) else s
  | none => s

/-- The address and value of a contribution. -/
def MsgKind.contribution : MsgKind → Option (Nat × Word)
  | .rred va v => some (va, v)
  | .amoWin va v => some (va, v)
  | _ => none

/-- The contribution that a message makes to a window. -/
def Msg.contrib (m : Msg) (w : RWin) (va : Nat) (v : Word) : Contrib :=
  { elem := (va - rwBase w) / rwWidth w, key := m.key, val := BitVec.ofNat 64 (v.toNat % 2 ^ (8 * rwWidth w)), job := m.job, src := m.src, op := m.op }

/-- REDUCTION_CONTRIBUTION (R396): a contribution arrives at its window. One whose round's last access meets a resolvable
fault is held (R394). -/
def State.reductionContribution (s : State) (seq : Nat) : State :=
  match s.msg? seq with
  | some m => match m.kind.contribution with
    | some (va, v) =>
      if s.orphan m then (s.loseMsg m cMESSAGE_UNDELIVERABLE).dropMsg seq
      else if m.held || s.behind m then s
      else match s.windowOf (s.holderBlock m.job) va with
        | some (k, w) =>
          let x := m.contrib w va v
          match s.mergeFault k x with
          | some (c, a) => if resolvable c then s.msgFault m c a else (s.dropMsg seq).contribute k x
          | none => (s.dropMsg seq).contribute k x
        | none => (s.loseMsg m cREDUCTION_WINDOW).dropMsg seq
    | none => s
  | none => s

/-- The launch of a job that holds a core. -/
def State.jobLaunch (s : State) (job c : Nat) : Option (Nat × Launch) := List.find? (fun (_, l) => l.covers c && decide (l.job = some job)) s.launches

/-- Whether an active message can be performed on its target (R404): the team is on the core, its task ended or not, and the
deque has a place. -/
def State.msgRoom (s : State) (k c : Nat) : Bool :=
  match (s.usr c).task with
  | some t => decide (t.launch = k ∧ (s.usr c).deque.length < 32) && (t.st == .running || t.st == .trapped || t.st == .preempted || t.st.over')
  | none => false

/-- An active message reaches its target (R404): payload and handler record in one action. -/
def State.deliverMsg (s : State) (m : Msg) : State :=
  match m.kind with
  | .msg c tmpl doff data =>
    match s.holder m.job, s.jobLaunch m.job c with
    | some q, some (k, l) =>
      match decide (l.block = q.block), l.loops[tmpl]? with
      | false, _ => (s.loseMsg m cMESSAGE_UNDELIVERABLE).dropMsg m.seq
      | true, none => (s.loseMsg m cLOOP_RECORD_INVALID).dropMsg m.seq
      | true, some r =>
        if !r.valid l.bundles then (s.loseMsg m cLOOP_RECORD_INVALID).dropMsg m.seq
        else if !data.isEmpty && !l.allocs.any (fun a => a.shared && a.covers doff data.length) then (s.loseMsg m cREMOTE_SCRATCH_DENIED).dropMsg m.seq
        else if !s.msgRoom k c then
          { s with fab := { s.fab with msgs := s.fab.msgs.map (fun (x : Msg) => if x.seq = m.seq then { x with held := true } else x) } }
        else
          let w3 := r.w3.toNat
          let w3 := w3 - r.cmask * 2 ^ 16 + 0xF * 2 ^ 16 - (if r.port then 1 else 0)
          let h : LRec := { r with w3 := BitVec.ofNat 64 w3, own := 2 ^ 64, job := m.job
                                   cv := [BitVec.ofNat 64 doff, BitVec.ofNat 64 data.length, BitVec.ofNat 64 m.key, BitVec.ofNat 64 m.job] }
          (((s.awaken c).modSpad c (fun p => p.wrN doff data)).modUsr c (fun u => { u with deque := u.deque ++ [h] })).dropMsg m.seq
    | _, _ => (s.loseMsg m cMESSAGE_UNDELIVERABLE).dropMsg m.seq
  | _ => s

/-- MSG_ARRIVAL. -/
def State.msgArrival (s : State) (seq : Nat) : State :=
  match s.msg? seq with
  | some m => if m.held then s else s.deliverMsg m
  | none => s
/-- HELD_MESSAGE_RETRY. -/
def State.heldRetry (s : State) (seq : Nat) : State :=
  match s.msg? seq with
  | some m => if m.held then s.deliverMsg m else s
  | none => s

/-- The arrival event that is due for a message, if it can do anything. -/
def State.msgDue (s : State) (m : Msg) : Option Instr :=
  match m.kind with
  | .msg c _ _ _ =>
    if !m.held then some (.msgArrival m.seq)
    else match s.jobLaunch m.job c with
      | some (k, _) => if s.msgRoom k c || s.orphan m then some (.heldMessageRetry m.seq) else none
      | none => some (.heldMessageRetry m.seq)
  | k =>
    if (m.held || s.behind m) && !s.orphan m then none
    else match k with
      | .rwr _ _ => some (.rwrArrival m.seq)
      | .ramo _ _ _ _ _ => some (.ramoArrival m.seq)
      | .answer _ _ _ => none
      | _ => some (.reductionContribution m.seq)

/-- CRESUME of a held message (R394). -/
def State.msgResume (s : State) (seq action : Nat) : State :=
  match s.msg? seq with
  | some m =>
    if action = 0 then { s with fab := { s.fab with msgs := s.fab.msgs.map (fun (x : Msg) => if x.seq = seq then { x with held := false } else x) } }
    else (s.loseMsg m cPAGE_ABSENT).dropMsg seq
  | none => s

/-- The handlers of a core whose accesses are performed: each releases at fabric scope, and its message is consumed
(R329, R390, R404). -/
def State.handlersRetire (s : State) (c : Nat) : State :=
  let due := (s.usr c).retiring.filter (fun (_, bar) => !s.undone c bar 3 5)
  if due.isEmpty then s
  else
    let s := due.foldl (fun (s : State) ((j, _) : Nat × Nat) => s.countCons j 1) s
    s.modUsr c (fun u => { u with retiring := u.retiring.filter (fun x => !due.contains x) })

/-! ### Sending (R402 to R405) -/

def lkLen (c : Word) : Nat := fld c.toNat 0 9
def lkOrd (c : Word) : Nat := fld c.toNat 12 2
def lkW32 (c : Word) : Bool := c.getLsbD 14
def lkF (c : Word) : Bool := c.getLsbD 15
def lkAop (c : Word) : Nat := fld c.toNat 16 4
def lkDoff (c : Word) : Nat := fld c.toNat 20 20
def lkPkg (a : Word) : Nat := fld a.toNat 58 6
def lkVa (a : Word) : Nat := fld a.toNat 0 56

/-- The enabled window of a package that holds an address of core `c`'s: this package's own, of a job that the core's
continuation holds, or one that the fabric has announced for the core's job (log 43). -/
def State.windowAt (s : State) (c pkg va : Nat) : Option RWin :=
  if pkg = s.plan.pkg then (s.windowOf (s.blockOf c) va).map Prod.snd
  else (List.find? (fun ((n, w) : Nat × RWin) => w.en && w.holds va && decide (n / 64 = pkg + 1 ∧ rwJob w = s.jobOf c)) s.fab.wins).map Prod.snd

/-- The checks of MSG, RWR, RAMO and RRED, in the order of R402. -/
def State.linkCheck (s : State) (t : Trig) : Chk :=
  let a := t.a.toNat
  let c := t.u.c
  let len := lkLen c
  let src := t.b.toNat
  match t.op with
  | .wquiet | .jobr => sDesignator t.d
  | _ =>
    let badA := if t.op = .msg then decide (fld a 43 15 ≠ 0 ∨ fld a 8 24 ≠ 0) else decide (fld a 56 2 ≠ 0)
    let badC := decide (fld c.toNat 40 24 ≠ 0 ∨ fld c.toNat 9 3 ≠ 0 ∨ lkOrd c = 1 ∨ lkOrd c = 3)
    let badF := match t.op with
      | .ramo => decide (8 < lkAop c)
      | .msg => decide (len % 8 ≠ 0 ∨ 256 < len ∨ lkDoff c % 16 ≠ 0)
      | .rwr => decide (len % 8 ≠ 0 ∨ 256 < len ∨ len < 8)
      | _ => false
    let job := s.jobOf t.c
    let win := s.windowAt t.c (lkPkg t.a) (lkVa t.a)
    let w := if lkW32 c then 4 else 8
    (trapIf (badA || badC || badF || decide (0x40 ≤ t.d)) cILLEGAL_PORT).or (
      (trapIf (decide (job = 0) || !s.plan.joined.contains (lkPkg t.a)) cMESSAGE_UNDELIVERABLE t.a).or (
        (trapIf (match t.op with | .msg | .rwr => decide (src % 8 ≠ 0) | .ramo => decide (lkVa t.a % w ≠ 0) | _ => false) cMISALIGNED
          (if t.op = .ramo then t.a else t.b)).or (
          (trapIf (match t.op with | .msg | .rwr => decide (spadTop < src + len) | _ => false) cSCRATCH_RANGE t.b).or (
            trapIf (match t.op, win with
              | .rred, none => true
              | .rred, some x => decide (lkVa t.a % rwWidth x ≠ 0 ∨ rwJob x ≠ job)
              | .ramo, some x => !amoFits x (lkW32 c) (lkAop c)
              | _, _ => false) cREDUCTION_WINDOW t.a))))

/-- What a message does at its destination, from the operands of its trigger and its source bytes. -/
def msgKindOf (o : Op) (a b c : Word) (inWin : Bool) (data : List Byte) : MsgKind :=
  match o with
  | .msg => .msg (fld a.toNat 32 11) (fld a.toNat 0 8) (lkDoff c) data
  | .rwr => .rwr (lkVa a) data
  | .rred => .rred (lkVa a) b
  | _ => if inWin then .amoWin (lkVa a) b else .ramo (lkVa a) (lkAop c) (lkW32 c) b (lkF c)

/-- The interface accepts a fabric operation: it reads the source bytes, counts the message, and the operation delivers
unless it fetches. -/
def State.accept (s : State) (c : Nat) (q : Ask) : State :=
  let w (i : Nat) : Word := BitVec.ofNat 64 (nth 0 q.data i)
  let a := w 0
  let inWin := (s.windowAt c (lkPkg a) (lkVa a)).isSome
  let s := match q.op with | .msg | .rwr => s.awaken c | _ => s
  let data := (s.spad c).rdN (w 1).toNat (match q.op with | .msg | .rwr => lkLen (w 2) | _ => 0)
  let kind := msgKindOf q.op a (w 1) (w 2) inWin data
  let fetch := kind.fetches
  let job := s.jobOf c
  let m : Msg := { seq := s.fab.nextSeq, src := s.plan.pkg, dst := lkPkg a, job := job, key := s.plan.pkg * 2 ^ 11 + c, kind := kind, op := q.id
                   reply := if fetch then some (c, q.id, q.reg) else none }
  let s := s.countInj job
  let s := if m.dst = s.plan.pkg then s.arrive m
    else { s with fab := { s.fab with nextSeq := s.fab.nextSeq + 1 } }.transmit m
  if fetch then s.modUsr c (fun u => { u with asks := u.asks.map (fun x => if x.id = q.id then { x with b := 1 } else x) })
  else s.answer q.id q.reg 0 stOK

/-- At the end of a cycle: the fabric operations of a core that its interface can accept, in program order. One waits for
an earlier acquire or FENCE (R320, R321), one that reads source bytes for every earlier access, a release for everything
before it at fabric scope (R403). -/
def State.linkSends (s : State) (c : Nat) : State :=
  ((s.usr c).asks.filter (fun q => (q.op == .msg || q.op == .rwr || q.op == .ramo || q.op == .rred) && q.b == 0)).foldl (fun (s : State) (q : Ask) =>
    let ord := lkOrd (BitVec.ofNat 64 (nth 0 q.data 2))
    let kept := (s.usr c).mops.any (fun (e : MemOp) => decide (e.id < q.id) &&
      (if e.op == .fence then decide (Nat.land (fenceSucc e) (fabricClass (q.op == .ramo)) ≠ 0) else e.holdsLater))
    let reads := q.op == .msg || q.op == .rwr
    if kept || (reads && s.undone c q.id 3 4) || (ord == 2 && s.undone c q.id 3 5) then s
    else s.accept c q) s

/-- WQUIET (R406): a wait for a wave that begins after it. -/
def State.wquiet (s : State) (t : Trig) : ArvWhen × State :=
  let l := (t.x0.sreg t.d).v
  let j := t.a.toNat
  let ok := j < 2 ^ 16 ∧ (match s.fab.jobs.find? j, s.contOf? t.c with | some x, some q => decide (x.holder = q.block) | _, _ => false : Bool)
  if !ok ∨ fld l.toNat 40 23 ≠ 0 then s.say t 0 stERROR
  else s.askAgent t j (if l.getLsbD 63 then 1 else 0) (limitOf s.cyc l)

/-- JOBR (R407). -/
def State.jobr (s : State) (t : Trig) : ArvWhen × State :=
  let n := t.a.toNat
  match s.fab.jobs.find? (n % 2 ^ 16), s.contOf? t.c with
  | some x, some q =>
    if x.holder ≠ q.block ∨ n / 2 ^ 19 ≠ 0 ∨ fld n 16 3 = 7 then s.say t 0 stERROR
    else s.say t (match fld n 16 3 with
      | 0 => x.inj
      | 1 => x.cons
      | 2 => x.loss
      | 3 => x.sumI
      | 4 => x.sumC
      | 5 => BitVec.ofNat 64 x.st.code
      | _ => BitVec.ofNat 64 x.cause) stOK
  | _, _ => s.say t 0 stERROR

/-- A fabric instruction takes effect. -/
def State.linkRun (s : State) (t : Trig) : ArvWhen × State :=
  match t.op with
  | .wquiet => s.wquiet t
  | .jobr => s.jobr t
  | _ => s.askAgent t 0 0 none [t.a.toNat, t.b.toNat, t.u.c.toNat]

/-- WQUIET_TIMEOUT: the limit of a core's WQUIETs has passed; with T = 1 the task traps once the delivery has landed. -/
def State.wquietTimeout (s : State) (c : Nat) : State :=
  ((s.usr c).asks.filter (fun q => q.op == .wquiet && (match q.limit with | some t => decide (t ≤ s.cyc) | none => false))).foldl (fun (s : State) (q : Ask) =>
    (s.modUsr c (fun u => { u with asks := u.asks.filter (fun x => decide (x.id ≠ q.id)) })).send c
      { id := q.id, reg := q.reg, val := .sc 0, tag := stTIMEOUT, due := s.cyc, slot := 6, trap := if q.b = 1 then some cQUIET_TIMEOUT else none }) s

/-! ### The quiescence wave (R391, R392) -/

/-- Whether this package drives the wave and one is due. -/
def State.waveDue (s : State) : Bool :=
  s.route.isSome && s.fab.wave.isNone && s.plan.joined.all (fun p => decide (s.plan.pkg ≤ p)) && decide (s.fab.lastWave + s.plan.period ≤ s.cyc)

/-- WAVE_START: pass 1 begins. -/
def State.waveStart (s : State) : State :=
  if s.fab.wave.isSome then s
  else { s with fab := { s.fab with wave := some (1, s.cyc), lastWave := s.cyc
                                    jobs := s.fab.jobs.map (fun ((n, j) : Nat × Job) => (n, { j with st := .probing })) } }

/-- The sums of a pass for job `j`: this package's counters and those of the others. -/
def passSum (others : List (Nat × Nat × Nat × Nat)) (n : Nat) (j : Job) : Nat × Nat × Nat :=
  (others.filter (fun ((m, _) : Nat × Nat × Nat × Nat) => decide (m = n))).foldl (fun (a, b, c) (_, i, k, l) => (a + i, b + k, c + l))
    (j.inj.toNat, j.cons.toNat, j.loss.toNat)

/-- WAVE_PASS_END. -/
def State.wavePassEnd (s : State) (others : List (Nat × Nat × Nat × Nat)) : State :=
  match s.fab.wave with
  | none => s
  | some (pass, w) =>
    let word (n : Nat) : Word := BitVec.ofNat 64 n
    let upd (n : Nat) (j : Job) : Job :=
      let (i, c, _) := passSum others n j
      let j' := { j with sumI := word i, sumC := word c }
      if pass = 1 then
        { j' with p1I := word i, p1C := word c, st := if j.st == .probing then (if word i = word c then .confirming else .active) else j.st }
      else if j.st == .confirming then { j' with st := if word i = word c ∧ word i = j.p1I ∧ word c = j.p1C then .quiet else .active }
      else j'
    let was := s.fab.jobs
    let s := { s with fab := { s.fab with jobs := was.map (fun ((n, j) : Nat × Job) => (n, upd n j)), wave := if pass = 1 then some (2, w) else none } }
    if pass = 1 then s
    else
      let quiet := was.filter (fun ((n, j) : Nat × Job) => j.st == .confirming && (upd n j).st == .quiet)
      quiet.foldl (fun (s : State) ((n, j) : Nat × Job) =>
        let (_, _, l) := passSum others n j
        let qs := (s.users.flatMap User.asks).filter (fun q => q.op == .wquiet && decide (q.a = n ∧ q.since < w))
        qs.foldl (fun (s : State) (q : Ask) => s.answer q.id q.reg (word l) stOK) s) s

/-! ### Reduction windows (R395) -/

def State.rwin (s : State) (w : Nat) : RWin := s.fab.wins.getD w {}
def State.modWin (s : State) (w : Nat) (f : RWin → RWin) : State := { s with fab := { s.fab with wins := s.fab.wins.put w (f (s.rwin w)) } }

/-- Whether a window's words may be enabled: no reserved bit, every field in range. -/
def RWin.ok (w : RWin) : Bool :=
  decide (fld w.w0.toNat 56 8 = 0 ∧ fld w.w0.toNat 0 3 = 0 ∧ fld w.w1.toNat 46 2 = 0 ∧ fld w.w1.toNat 42 2 = 0 ∧ fld w.w1.toNat 36 4 = 0
    ∧ fld w.w1.toNat 1 3 = 0 ∧ rwJob w ≠ 0 ∧ rwType w < 3 ∧ rwOp w < 3 ∧ 1 ≤ rwExpect w ∧ 1 ≤ rwSize w ∧ rwBase w % rwWidth w = 0)
def RWin.overlaps (a b : RWin) : Bool :=
  decide (rwBase a < rwBase b + rwSize b * rwWidth b ∧ rwBase b < rwBase a + rwSize a * rwWidth a)

/-- REDUCTION_WINDOW_WRITE: word 0 or 1 of a descriptor; windows of 64 and above are those other packages announce (log 43).
Reserved bits written to word 0 are dropped, its BASE is in force at once, and while EN is not yet 1 another EN = 1 begins
the installation anew (log 93). -/
def State.windowWrite (s : State) (w off : Nat) (v : Word) : State :=
  let x := s.rwin w
  match off with
  | 0 => s.modWin w (fun x => { x with w0 := v &&& 0x00FFFFFFFFFFFFF8 })
  | 8 =>
    if v.getLsbD 0 then
      let y := { x with w1 := v }
      if x.en ∨ !y.ok ∨ (w < 64 ∧ (s.fab.jobs.find? (rwJob y)).isNone)
          ∨ s.fab.wins.any (fun (n, z) => decide (n ≠ w ∧ n / 64 = w / 64) && (z.en || z.installing) && z.overlaps y) then s
      else s.modWin w (fun x => { x with w1 := v, installing := true, got := [] })
    else
      let s := x.got.foldl (fun (s : State) (g : Contrib) => s.countLoss g.job 1 cREDUCTION_WINDOW) s
      s.modWin w (fun x => { x with w1 := v, installing := false, en := false, got := [] })
  | _ => s

/-- WINDOW_INSTALLED. -/
def State.windowInstalled (s : State) (w : Nat) : State :=
  if (s.rwin w).installing then s.modWin w (fun x => { x with installing := false, en := true }) else s

/-! ### PCI Express (R398 to R401) -/

def State.pcie (s : State) (n : Nat) : Pcie := s.fab.pcie.getD n {}
def State.modPcie (s : State) (n : Nat) (f : Pcie → Pcie) : State := { s with fab := { s.fab with pcie := s.fab.pcie.put n (f (s.pcie n)) } }
/-- Window `w` of partition `p`. -/
def State.lwin (s : State) (p w : Nat) : LWin := s.fab.land'.getD (16 * p + w) {}
def LWin.base (x : LWin) : Nat := fld x.w0.toNat 16 40 * 2 ^ 16
def LWin.slog (x : LWin) : Nat := fld x.w0.toNat 0 6
def LWin.dbell (x : LWin) : Nat := fld x.w1.toNat 3 53 * 8
def LWin.en (x : LWin) : Bool := x.w1.getLsbD 0

/-- Whether a byte range lies in a partition's memory as the plan grants it (R399). -/
def State.granted (s : State) (p lo n : Nat) : Bool :=
  let rs := ((s.plan.parts.find? (fun x => decide (x.part = p))).map PlanPart.mem).getD []
  inHbm lo && inHbm (lo + n - 1) && (upto (lo / 2 ^ 21) ((lo + n - 1) / 2 ^ 21 - lo / 2 ^ 21 + 1)).all rs.contains

/-- LANDING_WINDOW_WRITE: reserved bits are dropped; a word 0 whose SLOG is out of range is not written (log 93). -/
def State.landingWrite (s : State) (p w off : Nat) (v : Word) : State :=
  let x := s.lwin p w
  let put (y : LWin) : State := { s with fab := { s.fab with land' := s.fab.land'.put (16 * p + w) y } }
  match off with
  | 0 =>
    let n := fld v.toNat 0 6
    if 16 ≤ p ∨ 16 ≤ w ∨ n < 16 ∨ 36 < n then s else put { x with w0 := v &&& 0x00FFFFFFFFFF003F }
  | 8 =>
    let y := { x with w1 := v &&& 0x00FFFFFFFFFFFFF9 }
    if 16 ≤ p ∨ 16 ≤ w then s
    else if v.getLsbD 0 ∧ !(decide (y.base % 2 ^ y.slog = 0) && s.granted p y.base (2 ^ y.slog) && s.granted p y.dbell 8) then s
    else put y
  | _ => s

/-- Whether a port carries traffic to the landing of a partition. -/
def State.lands (s : State) (port fn : Nat) : Bool := (s.pcie port).up && !(s.pcie port).dpc && decide (fn < 16)

/-- An Unsupported Request of a port: nothing is written, and AER reports it (R400, R401). -/
def State.unsupported (s : State) (port : Nat) : State := s.modPcie port (fun x => { x with aer := true })

/-- PCIE_PEER_WRITE (R400): nothing is written outside the window, to a disabled window, or after a reset of the function. -/
def State.peerWrite (s : State) (port fn w off : Nat) (bytes : List Byte) : State :=
  let x := s.lwin fn w
  if !s.lands port fn || (s.part fn).closed then s
  else if !x.en || decide (16 ≤ w ∨ 2 ^ x.slog < off + bytes.length) then s.unsupported port
  else s.storeMem (x.base + off) bytes

/-- PCIE_WINDOW_READ (R400): the bytes are answered on the port. -/
def State.windowRead (s : State) (port fn w off n : Nat) : State :=
  let x := s.lwin fn w
  if !s.lands port fn || !x.en || decide (16 ≤ w ∨ 2 ^ x.slog < off + n) then s
  else { s with answers := s.answers ++ [(port, s.mem.rdN (x.base + off) n)] }

/-- PCIE_DOORBELL_WRITE (R401): that of a disabled window is an Unsupported Request too (log 93). -/
def State.doorbell (s : State) (port fn off : Nat) (bytes : List Byte) : State :=
  let x := s.lwin fn (off / 8)
  if !s.lands port fn || (s.part fn).closed then s
  else if decide (bytes.length ≠ 8 ∨ off % 8 ≠ 0 ∨ 16 ≤ off / 8) || !x.en then s.unsupported port
  else (s.counterAdd x.dbell (ofBytesLE bytes)).2.2

/-- PCIE_DOORBELL_READ (R401). -/
def State.doorbellRead (s : State) (port fn w : Nat) : State :=
  let x := s.lwin fn w
  if !s.lands port fn || !x.en || decide (16 ≤ w) then s else { s with answers := s.answers ++ [(port, s.mem.rdN x.dbell 8)] }

end Sys2Proof.Machine
end

