-- ==== Sys2Proof/Machine/Rv64.lean ====
section
/-! DEFINITION. RV64GC, the published instruction set of the host harts (R18): the instructions of RV64IMAFD, Zicsr and
Zifencei with their words, the compressed words, and what each computes. State and memory are in Machine/HartOps.lean. -/
namespace Sys2Proof.Machine

/-- The instructions. `f` is funct3 and `alt` bit 30 of the word (SUB, SRA); `w` says a form of 32 bits; `f5` is the
operation of an atomic, `f7` that of a floating-point instruction, whose third field is `rs2`. -/
inductive Rv64 where
  | lui (rd : Nat) (imm : Word)
  | auipc (rd : Nat) (imm : Word)
  | jal (rd : Nat) (off : Word)
  | jalr (rd rs1 : Nat) (off : Word)
  | branch (f rs1 rs2 : Nat) (off : Word)
  | load (f rd rs1 : Nat) (off : Word)
  | store (f rs1 rs2 : Nat) (off : Word)
  | opImm (w : Bool) (f : Nat) (alt : Bool) (rd rs1 : Nat) (imm : Word)
  | op (w : Bool) (f : Nat) (alt : Bool) (rd rs1 rs2 : Nat)
  | mulDiv (w : Bool) (f rd rs1 rs2 : Nat)
  | fence
  | amo (f5 f rd rs1 rs2 : Nat)
  | csr (f rd src n : Nat)
  | ecall
  | ebreak
  | sret
  | wfi
  | sfence
  | fload (f rd rs1 : Nat) (off : Word)
  | fstore (f rs1 rs2 : Nat) (off : Word)
  | fma (op fmt rm rd rs1 rs2 rs3 : Nat)
  | fop (f7 rm rd rs1 rs2 : Nat)
  deriving DecidableEq, Repr

/-- The field of `w` bits at bit `lo`. -/
def Rv64.fld (n lo w : Nat) : Nat := n / 2 ^ lo % 2 ^ w

/-- A number of `w` bits as a signed one. -/
def Rv64.sext (w n : Nat) : Word := BitVec.ofInt 64 (if n < 2 ^ (w - 1) then (n : Int) else (n : Int) - 2 ^ w)

/-- Whether an instruction of OP-FP exists: its funct7, its rounding field and its rs2 field. -/
def Rv64.fopLegal (f7 rm rs2 : Nat) : Bool :=
  decide (f7 % 4 < 2) &&
  match f7 / 4 with
  | 0 | 1 | 2 | 3 => true
  | 0x0B => decide (rs2 = 0)
  | 0x04 => decide (rm < 3)
  | 0x05 => decide (rm < 2)
  | 0x08 => decide (rs2 = 1 - f7 % 4)
  | 0x14 => decide (rm < 3)
  | 0x18 | 0x1A => decide (rs2 < 4)
  | 0x1C => decide (rs2 = 0 ∧ rm < 2)
  | 0x1E => decide (rs2 = 0 ∧ rm = 0)
  | _ => false

/-- OP, OP-32 and the M extension. -/
def Rv64.decodeOp (w : Bool) (f f7 rd rs1 rs2 : Nat) : Option Rv64 :=
  if f7 = 1 then (if w && decide (0 < f ∧ f < 4) then none else some (.mulDiv w f rd rs1 rs2))
  else if w && decide (f ≠ 0 ∧ f ≠ 1 ∧ f ≠ 5) then none
  else if f7 = 0 then some (.op w f false rd rs1 rs2)
  else if f7 = 0x20 ∧ (f = 0 ∨ f = 5) then some (.op w f true rd rs1 rs2)
  else none

/-- OP-IMM and OP-IMM-32; `b` is the number of bits of a shift's amount. -/
def Rv64.decodeImm (w : Bool) (f n rd rs1 : Nat) : Option Rv64 :=
  let b := if w then 5 else 6
  let hi := fld n (20 + b) (12 - b)
  let alt := if w then 0x20 else 0x10
  let sh := BitVec.ofNat 64 (fld n 20 b)
  match f with
  | 1 => if hi = 0 then some (.opImm w 1 false rd rs1 sh) else none
  | 5 => if hi = 0 then some (.opImm w 5 false rd rs1 sh) else if hi = alt then some (.opImm w 5 true rd rs1 sh) else none
  | _ => if w && decide (f ≠ 0) then none else some (.opImm w f false rd rs1 (sext 12 (fld n 20 12)))

/-- SYSTEM. -/
def Rv64.decodeSystem (f n rd rs1 : Nat) : Option Rv64 :=
  if f = 0 then
    match n with
    | 0x73 => some .ecall
    | 0x100073 => some .ebreak
    | 0x10200073 => some .sret
    | 0x10500073 => some .wfi
    | _ => if fld n 25 7 = 9 ∧ rd = 0 then some .sfence else none
  else if f = 4 then none
  else some (.csr f rd rs1 (fld n 20 12))

/-- The instruction of a word of 32 bits; none for a word that is none of RV64G. -/
def Rv64.decode (n : Nat) : Option Rv64 :=
  let rd := fld n 7 5; let rs1 := fld n 15 5; let rs2 := fld n 20 5
  let f := fld n 12 3; let f7 := fld n 25 7
  let immI := sext 12 (fld n 20 12)
  let immS := sext 12 (f7 * 32 + rd)
  match fld n 0 7 with
  | 0x37 => some (.lui rd (sext 32 (fld n 12 20 * 4096)))
  | 0x17 => some (.auipc rd (sext 32 (fld n 12 20 * 4096)))
  | 0x6F => some (.jal rd (sext 21 (fld n 31 1 * 2 ^ 20 + fld n 12 8 * 4096 + fld n 20 1 * 2048 + fld n 21 10 * 2)))
  | 0x67 => if f = 0 then some (.jalr rd rs1 immI) else none
  | 0x63 => if f = 2 ∨ f = 3 then none else
      some (.branch f rs1 rs2 (sext 13 (fld n 31 1 * 4096 + fld n 7 1 * 2048 + fld n 25 6 * 32 + fld n 8 4 * 2)))
  | 0x03 => if f = 7 then none else some (.load f rd rs1 immI)
  | 0x23 => if f > 3 then none else some (.store f rs1 rs2 immS)
  | 0x13 => decodeImm false f n rd rs1
  | 0x1B => decodeImm true f n rd rs1
  | 0x33 => decodeOp false f f7 rd rs1 rs2
  | 0x3B => decodeOp true f f7 rd rs1 rs2
  | 0x0F => if f < 2 then some .fence else none
  | 0x73 => decodeSystem f n rd rs1
  | 0x2F =>
    let f5 := fld n 27 5
    if (f = 2 ∨ f = 3) ∧ (f5 ∈ [0, 1, 3, 4, 8, 12, 16, 20, 24, 28] ∨ (f5 = 2 ∧ rs2 = 0)) then some (.amo f5 f rd rs1 rs2) else none
  | 0x07 => if f = 2 ∨ f = 3 then some (.fload f rd rs1 immI) else none
  | 0x27 => if f = 2 ∨ f = 3 then some (.fstore f rs1 rs2 immS) else none
  | 0x43 | 0x47 | 0x4B | 0x4F => if fld n 25 2 < 2 then some (.fma (fld n 2 2) (fld n 25 2) f rd rs1 rs2 (fld n 27 5)) else none
  | 0x53 => if fopLegal f7 f rs2 then some (.fop f7 f rd rs1 rs2) else none
  | _ => none

/-- Bits of a compressed word gathered into a number: pairs of a bit of the word and the place it goes to, and the number of bits. -/
def Rv64.gather (n : Nat) (l : List (Nat × Nat × Nat)) : Nat := l.foldl (fun (a : Nat) ((lo, w, at') : Nat × Nat × Nat) => a + fld n lo w * 2 ^ at') 0

/-- The instruction of a compressed word; none for a reserved word. -/
def Rv64.decodeC (n : Nat) : Option Rv64 :=
  let f := fld n 13 3
  let r := fld n 7 5; let r2 := fld n 2 5
  let ra := 8 + fld n 7 3; let rb := 8 + fld n 2 3
  let imm6 := gather n [(12, 1, 5), (2, 5, 0)]
  let simm6 := sext 6 imm6
  let u (l : List (Nat × Nat × Nat)) : Word := BitVec.ofNat 64 (gather n l)
  let offD := u [(10, 3, 3), (5, 2, 6)]
  let offW := u [(10, 3, 3), (6, 1, 2), (5, 1, 6)]
  let spD := u [(12, 1, 5), (5, 2, 3), (2, 3, 6)]
  let spW := u [(12, 1, 5), (4, 3, 2), (2, 2, 6)]
  let stD := u [(10, 3, 3), (7, 3, 6)]
  let offB := sext 9 (gather n [(12, 1, 8), (10, 2, 3), (5, 2, 6), (3, 2, 1), (2, 1, 5)])
  let nz (v : Nat) (i : Rv64) : Option Rv64 := if v = 0 then none else some i
  match n % 4, f with
  | 0, 0 =>
    let v := gather n [(11, 2, 4), (7, 4, 6), (6, 1, 2), (5, 1, 3)]
    nz v (.opImm false 0 false rb 2 (BitVec.ofNat 64 v))
  | 0, 1 => some (.fload 3 rb ra offD)
  | 0, 2 => some (.load 2 rb ra offW)
  | 0, 3 => some (.load 3 rb ra offD)
  | 0, 5 => some (.fstore 3 ra rb offD)
  | 0, 6 => some (.store 2 ra rb offW)
  | 0, 7 => some (.store 3 ra rb offD)
  | 1, 0 => some (.opImm false 0 false r r simm6)
  | 1, 1 => nz r (.opImm true 0 false r r simm6)
  | 1, 2 => some (.opImm false 0 false r 0 simm6)
  | 1, 3 =>
    if r = 2 then
      let v := gather n [(12, 1, 9), (6, 1, 4), (5, 1, 6), (3, 2, 7), (2, 1, 5)]
      nz v (.opImm false 0 false 2 2 (sext 10 v))
    else nz imm6 (.lui r (sext 18 (imm6 * 4096)))
  | 1, 4 =>
    match fld n 10 2 with
    | 0 => some (.opImm false 5 false ra ra (BitVec.ofNat 64 imm6))
    | 1 => some (.opImm false 5 true ra ra (BitVec.ofNat 64 imm6))
    | 2 => some (.opImm false 7 false ra ra simm6)
    | _ => match fld n 12 1, fld n 5 2 with
      | 0, 0 => some (.op false 0 true ra ra rb)
      | 0, 1 => some (.op false 4 false ra ra rb)
      | 0, 2 => some (.op false 6 false ra ra rb)
      | 0, _ => some (.op false 7 false ra ra rb)
      | _, 0 => some (.op true 0 true ra ra rb)
      | _, 1 => some (.op true 0 false ra ra rb)
      | _, _ => none
  | 1, 5 => some (.jal 0 (sext 12 (gather n [(12, 1, 11), (11, 1, 4), (9, 2, 8), (8, 1, 10), (7, 1, 6), (6, 1, 7), (3, 3, 1), (2, 1, 5)])))
  | 1, 6 => some (.branch 0 ra 0 offB)
  | 1, 7 => some (.branch 1 ra 0 offB)
  | 2, 0 => some (.opImm false 1 false r r (BitVec.ofNat 64 imm6))
  | 2, 1 => some (.fload 3 r 2 spD)
  | 2, 2 => nz r (.load 2 r 2 spW)
  | 2, 3 => nz r (.load 3 r 2 spD)
  | 2, 4 =>
    match fld n 12 1, r2 with
    | 0, 0 => nz r (.jalr 0 r 0)
    | 0, _ => some (.op false 0 false r 0 r2)
    | _, 0 => if r = 0 then some .ebreak else some (.jalr 1 r 0)
    | _, _ => some (.op false 0 false r r r2)
  | 2, 5 => some (.fstore 3 2 r2 stD)
  | 2, 6 => some (.store 2 2 r2 (u [(9, 4, 2), (7, 2, 6)]))
  | 2, 7 => some (.store 3 2 r2 stD)
  | _, _ => none

/-! ### Integer operations -/

/-- The low 32 bits of a number as a signed one. -/
def Rv64.sx32 (v : Nat) : Word := sext 32 (v % 2 ^ 32)

/-- The operation of OP and OP-IMM with funct3 `f`. -/
def Rv64.alu (f : Nat) (alt : Bool) (a b : Word) : Word :=
  match f with
  | 0 => if alt then a - b else a + b
  | 1 => a <<< (b.toNat % 64)
  | 2 => if a.slt b then 1 else 0
  | 3 => if a.ult b then 1 else 0
  | 4 => a ^^^ b
  | 5 => if alt then a.sshiftRight (b.toNat % 64) else a >>> (b.toNat % 64)
  | 6 => a ||| b
  | _ => a &&& b

/-- The operation of OP-32 and OP-IMM-32. -/
def Rv64.aluW (f : Nat) (alt : Bool) (a b : Word) : Word :=
  let n := b.toNat % 32
  match f with
  | 0 => sx32 (if alt then a - b else a + b).toNat
  | 1 => sx32 (a.toNat % 2 ^ 32 * 2 ^ n)
  | _ => if alt then (sx32 a.toNat).sshiftRight n else sx32 (a.toNat % 2 ^ 32 / 2 ^ n)

/-- A quotient and a remainder; those of a division by zero are those that the published set states. -/
def Rv64.divS (a b : Int) : Int := if b = 0 then -1 else Int.tdiv a b
def Rv64.remS (a b : Int) : Int := if b = 0 then a else Int.tmod a b

/-- The operation of the M extension with funct3 `f`. -/
def Rv64.muldiv (f : Nat) (a b : Word) : Word :=
  let i (v : Int) : Word := BitVec.ofInt 64 v
  match f with
  | 0 => a * b
  | 1 => i (a.toInt * b.toInt / 2 ^ 64)
  | 2 => i (a.toInt * (b.toNat : Int) / 2 ^ 64)
  | 3 => BitVec.ofNat 64 (a.toNat * b.toNat / 2 ^ 64)
  | 4 => i (divS a.toInt b.toInt)
  | 5 => i (divS a.toNat b.toNat)
  | 6 => i (remS a.toInt b.toInt)
  | _ => i (remS a.toNat b.toNat)

/-- The operations of the M extension on 32 bits. -/
def Rv64.muldivW (f : Nat) (a b : Word) : Word :=
  let sa := (sx32 a.toNat).toInt; let sb := (sx32 b.toNat).toInt
  let ua : Int := (a.toNat % 2 ^ 32 : Nat); let ub : Int := (b.toNat % 2 ^ 32 : Nat)
  let i (v : Int) : Word := sx32 (BitVec.ofInt 64 v).toNat
  match f with
  | 0 => i (sa * sb)
  | 4 => i (divS sa sb)
  | 5 => i (divS ua ub)
  | 6 => i (remS sa sb)
  | _ => i (remS ua ub)

/-- The condition of a branch with funct3 `f`. -/
def Rv64.taken (f : Nat) (a b : Word) : Bool :=
  match f with
  | 0 => decide (a = b)
  | 1 => decide (a ≠ b)
  | 4 => a.slt b
  | 5 => !a.slt b
  | 6 => a.ult b
  | _ => !a.ult b

/-- What an atomic memory operation stores: of `n` bytes, from the old value and the register. -/
def Rv64.amoVal (f5 n : Nat) (old src : Word) : Word :=
  let sg (v : Word) : Int := if n = 4 then (sx32 v.toNat).toInt else v.toInt
  let us (v : Word) : Nat := v.toNat % 2 ^ (8 * n)
  match f5 with
  | 0 => old + src
  | 1 => src
  | 4 => old ^^^ src
  | 8 => old ||| src
  | 12 => old &&& src
  | 16 => if sg src < sg old then src else old
  | 20 => if sg old < sg src then src else old
  | 24 => if us src < us old then src else old
  | _ => if us old < us src then src else old

/-- What a load of funct3 `f` makes of the bytes it read. -/
def Rv64.extend (f v : Nat) : Word :=
  match f with
  | 0 => sext 8 (v % 2 ^ 8)
  | 1 => sext 16 (v % 2 ^ 16)
  | 2 => sx32 v
  | _ => BitVec.ofNat 64 v

/-! ### Floating point -/

/-- The format of an instruction. -/
def Rv64.ffmt (fmt : Nat) : FFmt := if fmt % 2 = 0 then fp32 else fp64

/-- The value that an f register holds in a format: a narrow one is boxed in ones, and what is not boxed reads as the canonical NaN. -/
def Rv64.unbox (fmt : Nat) (v : Word) : Nat :=
  if fmt % 2 = 1 then v.toNat else if v.toNat / 2 ^ 32 = 2 ^ 32 - 1 then v.toNat % 2 ^ 32 else fp32.nan
/-- A value as an f register holds it. -/
def Rv64.boxed (fmt v : Nat) : Word := if fmt % 2 = 1 then BitVec.ofNat 64 v else BitVec.ofNat 64 (2 ^ 64 - 2 ^ 32 + v % 2 ^ 32)

/-- The rounding mode of a field and of `frm`; none where the published set reserves it. -/
def Rv64.rmode (rm frm : Nat) : Option RMode :=
  match (if rm = 7 then frm else rm) with
  | 0 => some .rne
  | 1 => some .rtz
  | 2 => some .rdn
  | 3 => some .rup
  | 4 => some .rmm
  | _ => none

/-- Whether an instruction of OP-FP rounds by its rounding field. -/
def Rv64.rounds (f7 : Nat) : Bool := match f7 / 4 with | 0 | 1 | 2 | 3 | 0x0B | 0x08 | 0x18 | 0x1A => true | _ => false

/-- The result of a floating-point instruction: for an f or an x register, with its flags. -/
inductive FRes where
  | f (v : Word) (fl : Flags)
  | x (v : Word) (fl : Flags)
  deriving DecidableEq, Repr

/-- The four fused operations: FMADD, FMSUB, FNMSUB, FNMADD. -/
def Rv64.fmaVal (op fmt : Nat) (rm : RMode) (a b c : Word) : FRes :=
  let g := ffmt fmt
  let p := (unpack g (unbox fmt a)).mul (unpack g (unbox fmt b))
  let z := unpack g (unbox fmt c)
  let (p, z) := match op with | 0 => (p, z) | 1 => (p, z.neg) | 2 => (p.neg, z) | _ => (p.neg, z.neg)
  let (v, fl) := roundFV g rm (fsum rm [p, z])
  .f (boxed fmt v) fl

/-- The integer bounds of a conversion: W, WU, L, LU. -/
def Rv64.ibounds (k : Nat) : Int × Int :=
  match k with
  | 0 => (-2 ^ 31, 2 ^ 31 - 1)
  | 1 => (0, 2 ^ 32 - 1)
  | 2 => (-2 ^ 63, 2 ^ 63 - 1)
  | _ => (0, 2 ^ 64 - 1)

/-- The integer that a conversion reads from an x register. -/
def Rv64.iread (k : Nat) (v : Word) : Int :=
  match k with
  | 0 => (sx32 v.toNat).toInt
  | 1 => (v.toNat % 2 ^ 32 : Nat)
  | 2 => v.toInt
  | _ => v.toNat

/-- The sign that FSGNJ, FSGNJN and FSGNJX give. -/
def Rv64.sgnj (g : FFmt) (k a b : Nat) : Nat :=
  let sa := decide (g.sbit ≤ a); let sb := decide (g.sbit ≤ b)
  let sg := match k with | 0 => sb | 1 => !sb | _ => sa != sb
  a % g.sbit + (if sg then g.sbit else 0)

/-- FLE, FLT, FEQ: a NaN compares false; it is invalid where the comparison is signaling or the NaN is. -/
def Rv64.fcmpVal (k : Nat) (a b : FV) : Bool × Flags :=
  if a.isNan || b.isNan then (false, if k < 2 ∨ a = .nan true ∨ b = .nan true then flNV else 0)
  else
    let c := a.cmp b
    (match k with | 0 => decide (c ≤ 0) | 1 => decide (c < 0) | _ => decide (c = 0), 0)

/-- The operations of OP-FP: `a` and `b` the f registers, `x` the x register of rs1, `rs2` the second field. -/
def Rv64.fopVal (f7 rmf : Nat) (rm : RMode) (rs2 : Nat) (a b x : Word) : FRes :=
  let fmt := f7 % 4
  let g := ffmt fmt
  let va := unbox fmt a; let vb := unbox fmt b
  let ret (p : Nat × Flags) : FRes := .f (boxed fmt p.1) p.2
  match f7 / 4 with
  | 0 => ret (fadd g rm va vb)
  | 1 => ret (fsub g rm va vb)
  | 2 => ret (fmul g rm va vb)
  | 3 => ret (fdiv g rm (unpack g va) (unpack g vb))
  | 0x0B => ret (fsqrt g rm (unpack g va))
  | 0x04 => .f (boxed fmt (sgnj g rmf va vb)) 0
  | 0x05 => ret (fminmax g (decide (rmf = 1)) va vb)
  | 0x08 => ret (fcvt (ffmt rs2) g rm (unbox rs2 a))
  | 0x14 => let (v, fl) := fcmpVal rmf (unpack g va) (unpack g vb); .x (if v then 1 else 0) fl
  | 0x18 =>
    let (lo, hi) := ibounds rs2
    let (v, fl) := toInteger rm lo hi (unpack g va)
    .x (if rs2 < 2 then sx32 (BitVec.ofInt 64 v).toNat else BitVec.ofInt 64 v) fl
  | 0x1A => ret (roundFV g rm (.ofInt (iread rs2 x)))
  | 0x1C =>
    if rmf = 1 then .x (BitVec.ofNat 64 (fclass g va)) 0
    else .x (if fmt = 1 then a else sx32 a.toNat) 0
  | _ => .f (boxed fmt x.toNat) 0

end Sys2Proof.Machine
end

