-- ==== Sys2Proof/Machine/HartOps.lean ====
section
/-! DEFINITION. The harts' side of the published RISC-V set (R18): traps to S-mode (R86, R88, R91), address translation, and
the supervisor and floating-point control registers. -/
namespace Sys2Proof.Machine

/-! ### Traps (R86, R88, R91) -/

/-- A hart takes a trap to S-mode: an exception with its cause and value, or an interrupt (bit 63 of the cause). -/
def State.hartTrap (s : State) (h : Nat) (cause : Nat) (tval : Word) : State :=
  let x := s.hart h
  let base := BitVec.ofNat 64 (x.stvec.toNat / 4 * 4)
  s.setHart h { x with
    sepc := x.pc, scause := BitVec.ofNat 64 cause, stval := tval, spp := x.sup, spie := x.sie, sie := false, sup := true, wait := .none
    pc := if x.stvec.toNat % 4 = 1 ∧ 2 ^ 63 ≤ cause then base + BitVec.ofNat 64 (4 * (cause - 2 ^ 63)) else base }

/-- The interrupt that a hart takes: of those pending and enabled the continuation attention (20, R86), then the external,
the software and the timer interrupt of S-mode. -/
def Hart.irq (x : Hart) : Option Nat :=
  if x.sie || !x.sup then [20, 9, 1, 5].find? (fun n => x.sipBits.getLsbD n && x.sieBits.getLsbD n) else none

/-- An instruction of the host executes on the hart that is the agent. -/
def State.onHart (s : State) (f : State → Nat → State) : Out := match s.actor with | .hart h => .next (f s h) | _ => .next s

def stIllegal : Nat := 2
/-- Raise the illegal-instruction exception. -/
def State.hartIllegal (s : State) (h : Nat) : State := s.hartTrap h stIllegal 0

/-! ### Translation -/

/-- What a hart accesses memory for. -/
inductive HAcc where
  | fetch | load | store
  deriving DecidableEq, Repr

/-- The page fault and the access fault of an access. -/
def HAcc.pageFault : HAcc → Nat | .fetch => 12 | .load => 13 | .store => 15
def HAcc.accessFault : HAcc → Nat | .fetch => 1 | .load => 5 | .store => 7

/-- The base of the hub's control page (R447). -/
def ctlPage : Nat := 0xF000000000
/-- Whether a physical address lies in the control page. -/
def inCtl (pa : Nat) : Bool := decide (ctlPage ≤ pa ∧ pa < ctlPage + 2 ^ 16)

/-- Whether a leaf permits an access of a hart: its R, W and X bits, MXR, the U bit against the mode and SUM, A and D. -/
def Hart.permits (x : Hart) (a : HAcc) (n : Nat) : Bool :=
  let bit (k : Nat) : Bool := n.testBit k
  (match a with | .fetch => bit 3 | .load => bit 1 || (x.mxr && bit 3) | .store => bit 2)
    && (if x.sup then !bit 4 || (x.sum && decide (a ≠ .fetch)) else bit 4)
    && bit 6 && (decide (a ≠ .store) || bit 7)

/-- A hart's walk of the page tables of `satp` from level `lvl` down: the physical address, or the exception's code. The
harts read RSW as software bits and ignore the attribute (R257). -/
def State.hartWalk (s : State) (x : Hart) (a : HAcc) (va : Nat) : Nat → Nat → Nat ⊕ Nat
  | lvl, tab =>
    let pte := tab + va / 2 ^ (12 + 9 * lvl) % 2 ^ 9 * 8
    let n := s.mem.num pte 8
    let ppn := fld n 10 44
    if !inHbm pte then .inr a.accessFault
    else if !n.testBit 0 || (!n.testBit 1 && n.testBit 2) || decide (fld n 54 7 ≠ 0) then .inr a.pageFault
    else if n.testBit 1 || n.testBit 3 then
      let napot := n.testBit 63
      let size := if napot then 2 ^ 16 else 2 ^ (12 + 9 * lvl)
      if (napot && decide (lvl ≠ 0 ∨ ppn % 16 ≠ 8)) || (!napot && decide (ppn % 2 ^ (9 * lvl) ≠ 0)) || !x.permits a n then .inr a.pageFault
      else .inl (ppn * 2 ^ 12 / size * size + va % size)
    else if n.testBit 4 || n.testBit 6 || n.testBit 7 || n.testBit 63 then .inr a.pageFault
    else match lvl with
      | 0 => .inr a.pageFault
      | l + 1 => s.hartWalk x a va l (ppn * 2 ^ 12)

/-- The levels below the root that a mode of `satp` has: Sv39, Sv48, Sv57. -/
def satpLevels (mode : Nat) : Option Nat := match mode with | 8 => some 2 | 9 => some 3 | 10 => some 4 | _ => none

/-- The physical address of a hart's access to a byte: `satp` mode 0 is bare, another than Sv39, Sv48 and Sv57 a page fault
(log 94); the exception's code otherwise. The control page answers only S-mode (R447). -/
def State.hartPhys (s : State) (h : Nat) (a : HAcc) (va : Word) : Nat ⊕ Nat :=
  let x := s.hart h
  let r : Nat ⊕ Nat :=
    if atpMode x.satp = 0 then .inl va.toNat
    else match satpLevels (atpMode x.satp) with
      | none => .inr a.pageFault
      | some l => if Rv64.sext (21 + 9 * l) (va.toNat % 2 ^ (21 + 9 * l)) ≠ va then .inr a.pageFault else s.hartWalk x a va.toNat l (atpRoot x.satp)
  match r with
  | .inr c => .inr c
  | .inl pa => if inHbm pa || (inCtl pa && x.sup && decide (a ≠ .fetch)) then .inl pa else .inr a.accessFault

/-- The physical addresses of `n` bytes, or the first exception with its address. -/
def State.hartBytes (s : State) (h : Nat) (a : HAcc) (va : Word) : Nat → List Nat ⊕ (Nat × Word)
  | 0 => .inl []
  | n + 1 => match s.hartPhys h a va with
    | .inr c => .inr (c, va)
    | .inl pa => match s.hartBytes h a (va + 1) n with
      | .inr e => .inr e
      | .inl t => .inl (pa :: t)

/-! ### Control and status registers -/

/-- The bits of `sstatus`: FS, VS, SUM, MXR, SPP, SPIE, SIE; UXL reads 2, SD the summary. -/
def Hart.sstatus (x : Hart) : Word :=
  let b (v : Bool) (k : Nat) : Nat := if v then 2 ^ k else 0
  BitVec.ofNat 64 (b x.sie 1 + b x.spie 5 + b x.spp 8 + x.vs.toNat * 2 ^ 9 + x.fs.toNat * 2 ^ 13 + b x.sum 18 + b x.mxr 19 + 2 * 2 ^ 32
    + b (decide (x.fs = 3 ∨ x.vs = 3)) 63)

/-- The interrupts of a hart: software 1, timer 5, external 9, continuation attention 20 (R86). -/
def irqMask : Word := 0x100222

/-- Whether a control register exists for a hart in its mode: the floating-point ones where FS is not Off, the vector ones where VS is not, the counters as
`scounteren` gives them to U-mode, those of S-mode in S-mode. -/
def Hart.csrOk (x : Hart) (n : Nat) : Bool :=
  match n with
  | 1 | 2 | 3 => decide (x.fs ≠ 0)
  | 0x8 | 0x9 | 0xA | 0xF | 0xC20 | 0xC21 | 0xC22 => decide (x.vs ≠ 0)
  | 0xC00 | 0xC01 | 0xC02 => x.sup || x.scounteren.toNat.testBit (n % 4)
  | 0x100 | 0x104 | 0x105 | 0x106 | 0x140 | 0x141 | 0x142 | 0x143 | 0x144 | 0x180 => x.sup
  | _ => false

/-- A control register's value; the three counters are free values (log 94). -/
def Hart.csr (x : Hart) (n : Nat) (free : Word) : Word :=
  match n with
  | 1 => x.fflags.setWidth 64
  | 2 => x.frm.setWidth 64
  | 3 => (x.frm ++ x.fflags).setWidth 64
  | 0x8 => x.vstart.setWidth 64
  | 0x9 => if x.vxsat then 1 else 0
  | 0xA => x.vxrm.setWidth 64
  | 0xF => x.vxrm.setWidth 64 * 2 + (if x.vxsat then 1 else 0)
  | 0xC20 => BitVec.ofNat 64 x.vl
  | 0xC21 => x.vtype
  | 0xC22 => 16
  | 0x100 => x.sstatus
  | 0x104 => x.sieBits
  | 0x105 => x.stvec
  | 0x106 => x.scounteren
  | 0x140 => x.sscratch
  | 0x141 => x.sepc
  | 0x142 => x.scause
  | 0x143 => x.stval
  | 0x144 => x.sipBits
  | 0x180 => x.satp
  | _ => free

/-- A control register is written. -/
def Hart.csrPut (x : Hart) (n : Nat) (v : Word) : Hart :=
  match n with
  | 1 => { x with fflags := v.setWidth 5, fs := 3 }
  | 2 => { x with frm := v.setWidth 3, fs := 3 }
  | 3 => { x with fflags := v.setWidth 5, frm := BitVec.ofNat 3 (fld v.toNat 5 3), fs := 3 }
  | 0x8 => { x with vstart := v.setWidth 7, vs := 3 }
  | 0x9 => { x with vxsat := v.getLsbD 0, vs := 3 }
  | 0xA => { x with vxrm := v.setWidth 2, vs := 3 }
  | 0xF => { x with vxsat := v.getLsbD 0, vxrm := BitVec.ofNat 2 (fld v.toNat 1 2), vs := 3 }
  | 0x100 => { x with
      sie := v.getLsbD 1, spie := v.getLsbD 5, spp := v.getLsbD 8, vs := BitVec.ofNat 2 (fld v.toNat 9 2), fs := BitVec.ofNat 2 (fld v.toNat 13 2)
      sum := v.getLsbD 18, mxr := v.getLsbD 19 }
  | 0x104 => { x with sieBits := v &&& irqMask }
  | 0x105 => { x with stvec := v &&& ~~~2 }
  | 0x106 => { x with scounteren := v &&& 7 }
  | 0x140 => { x with sscratch := v }
  | 0x141 => { x with sepc := v &&& ~~~1 }
  | 0x142 => { x with scause := v }
  | 0x143 => { x with stval := v }
  | 0x144 => { x with sipBits := (x.sipBits &&& ~~~0x100002) ||| (v &&& 0x100002) }
  | 0x180 => if atpMode v = 0 ∨ (satpLevels (atpMode v)).isSome then { x with satp := v } else x
  | _ => x

/-- An access to a control register: the register's old value, and the hart after the write; none where the register or the
write does not exist. `f` is funct3, `src` the field of rs1. -/
def Hart.csrOp (x : Hart) (f src n : Nat) (free : Word) : Option (Word × Hart) :=
  let old := x.csr n free
  let v := if 4 ≤ f then BitVec.ofNat 64 src else x.rd src
  let writes := decide (f % 4 = 1 ∨ src ≠ 0)
  if !x.csrOk n || (writes && decide (0xC00 ≤ n)) then none
  else some (old, if !writes then x else x.csrPut n (match f % 4 with | 1 => v | 2 => old ||| v | _ => old &&& ~~~v))

/-- Floating-point flags are raised. -/
def Hart.raise (x : Hart) (fl : Flags) : Hart :=
  if fl.toNat % 32 = 0 then x else { x with fflags := x.fflags ||| fl.setWidth 5, fs := 3 }

/-- An f register is written. -/
def Hart.fput (x : Hart) (r : Nat) (v : Word) : Hart := { x with f := rset x.f r v, fs := 3 }
def Hart.fget (x : Hart) (r : Nat) : Word := rget 0 x.f r

/-- The result of a floating-point instruction. -/
def Hart.fres (x : Hart) (rd : Nat) : FRes → Hart
  | .f v fl => (x.fput rd v).raise fl
  | .x v fl => (x.wr rd v).raise fl

end Sys2Proof.Machine
end

