-- ==== Sys2Proof/Machine/ContOps.lean ====
section
/-! DEFINITION. The twelve host instructions (R91 to R97) with a hart's traps, and the continuation engine's events:
parking and unparking (R84, R85), kill (R89), CRESUME's effects (R78), checkpoints (R90, R453), attention and fault
steering (R86, R161), the partition plan, partition reset (R161, R162), the functions of PCI Express ports (R398), host
stores and register writes (R5, R263). -/
namespace Sys2Proof.Machine

/-! ### Supervisor and user instructions (R80, R91, R92) -/

/-- An instruction that takes effect after every earlier store of its hart: while stores of harts wait for their regions it
waits (R93, R361; log 95). -/
def State.afterStores (s : State) (h : Nat) (f : State → State) : State :=
  if s.hostq.isEmpty then f s else s.setHart h { (s.hart h) with wait := .stores }

/-- A supervisor instruction with a block address in register `r` (R91, R92). -/
def State.superBlock (s : State) (h : Nat) (r : BitVec 5) (f : State → Nat → State) : State :=
  let x := s.hart h
  let va := x.rd r.toNat
  if !x.sup then s.hartIllegal h
  else if va.toNat % 256 ≠ 0 then s.hartTrap h 5 va
  else match s.hartPhys h .load va with
    | .inl pa => if inHbm pa then s.afterStores h (fun s => f s pa) else s.hartTrap h 5 va
    | .inr c => s.hartTrap h c va

/-- The live continuation of a block (R82). -/
def State.cont? (s : State) (block : Nat) : Option Cont :=
  match s.conts.find? block with
  | some q => if q.st == .free then none else some q
  | none => none

/-- A user instruction of a hart whose binding names a live block (R80, R82, R91). -/
def State.userCont (s : State) (h : Nat) (f : State → Cont → State) : State :=
  match (s.hart h).binding, s.cont? (s.hart h).binding with
  | 0, _ | _, none => s.hartIllegal h
  | _, some q => f s q

/-- The continuation exception (R88): delivery clears XP. -/
def State.contException (s : State) (h : Nat) (q : Cont) : State :=
  (s.setCont q.block (fun q => { q with xp := false })).hartTrap h 24 (BitVec.ofNat 64 q.block)

/-- A status of R92 as it stands in rd: 0, or −n. -/
def hartErr (n : Nat) : Word := BitVec.ofNat 64 (2 ^ 64 - n)
def eFIELD : Word := hartErr 1
def eSTATE : Word := hartErr 2
def ePART : Word := hartErr 3
def eNOSLOT : Word := hartErr 4
def eFLASH : Word := hartErr 5
def ePARK : Word := hartErr 6

/-! ### CPOST, CJOIN, CQUERY (R93 to R95) -/

/-- The posts that FETCH has not reached (R85). -/
def Cont.unserved (q : Cont) : List (Nat × Nat) := q.posts.filter (fun ((i, _) : Nat × Nat) => decide (q.fetch < i))
/-- The cycle of the oldest of them. -/
def Cont.postAt (q : Cont) : Nat := match q.unserved with | (_, t) :: _ => t | [] => 2 ^ 64

/-- CPOST. -/
def State.cpost (s : State) (h : Nat) (s1 d : BitVec 5) : State :=
  s.userCont h (fun s q =>
    if q.xp then s.contException h q
    else s.afterStores h (fun s =>
      let k := q.block
      let old := s.post k
      let new := max old ((s.hart h).rd s1.toNat).toNat
      let s := if old < new then (s.putNum (k + 0x10) new).modCont k (fun q => { q with posts := q.unserved ++ [(new, s.cyc)] }) else s
      (s.settleStream k).hartDone h d.toNat (BitVec.ofNat 64 new)))

/-- CJOIN: it ends at once, or the hart waits (R94). -/
def State.cjoin (s : State) (h : Nat) (t s1 d : BitVec 5) : State :=
  s.userCont h (fun s q =>
    let x := s.hart h
    let target := x.rd s1.toNat
    let ns := (x.rd t.toNat).toNat
    if q.xp then s.contException h q
    else if target.toNat ≤ q.progress ∨ q.st = .killing ∨ q.st = .dead ∨ ns = 0 then s.hartDone h d.toNat (joinWord q target)
    else s.setHart h { x with wait := .join d.toNat target (if ns = 2 ^ 64 - 1 then none else some (s.cyc + (ns * 6 + 4) / 5)) })

/-- CJOIN_TIMEOUT. -/
def State.cjoinTimeout (s : State) (h : Nat) : State :=
  match (s.hart h).wait with
  | .join rd target (some l) =>
    if s.cyc < l then s
    else match s.cont? (s.hart h).binding with
      | some q => s.hartDone h rd (joinWord q target)
      | none => s.setHart h { (s.hart h) with wait := .none }
  | _ => s

/-- CQUERY's value. -/
def State.cqueryVal (s : State) (q : Cont) (sel : Nat) : Nat :=
  match sel with
  | 0 => q.st.code + 2 ^ 4 * q.pst.code + (if q.xp then 2 ^ 8 else 0) + (if q.ap then 2 ^ 9 else 0)
  | 1 => s.post q.block
  | 2 => q.progress
  | 3 => q.fetch
  | 4 => q.drops
  | 5 => q.cid
  | 6 => (q.fault.map FRec.word).getD 0
  | 7 => (q.fault.map (fun f => f.addr.toNat)).getD 0
  | 8 => (q.fault.map (fun f => f.fpca.toNat)).getD 0
  | 9 => (q.fault.map FRec.time).getD 0
  | _ => 2 ^ 64 - 1

/-- CQUERY. -/
def State.cquery (s : State) (h : Nat) (s1 d : BitVec 5) : State :=
  s.userCont h (fun s q => s.hartDone h d.toNat (BitVec.ofNat 64 (s.cqueryVal q ((s.hart h).rd s1.toNat).toNat)))

/-! ### Kill (R89, R96) -/

/-- The continuation goes to KILLING: its stream stops, started packets keep their state (R119), and every launch is
killed without a DONE add; its packet retires when it is DONE (R153). -/
def State.killCont (s : State) (k : Nat) : State :=
  let ks := (s.launches.filter (fun ((_, l) : Nat × Launch) => decide (l.block = k) && l.st != .done)).map Prod.fst
  let s := s.setCont k (fun q => { q with
    st := .killing, parking := false, ckpt := false, later := [], fate := none
    stream := { q.stream.hold with window := [], loops := [], ending := [], calls := [], waiting := false } })
  let s := (s.users.filter (fun (u : User) => u.task.any (fun (t : Task) => ks.contains t.launch))).foldl (fun (s : State) (u : User) =>
    match u.member with
    | some m => s.abortHandle m.handle cKILLED
    | none => s) s
  (ks.foldl (fun (s : State) (l : Nat) => s.killLaunch l true) s).checkJoins k

/-- Whether every condition of R89 holds. -/
def State.killComplete (s : State) (k : Nat) : Bool := s.launches.all (fun ((_, l) : Nat × Launch) => !(decide (l.block = k)) || l.st == .done)

/-- KILL_DONE. -/
def State.killDone (s : State) (k : Nat) : State :=
  match s.conts.find? k with
  | some q =>
    if q.st = .killing ∧ s.killComplete k then
      let s := s.setCont k (fun q => { q with st := .dead, ap := false, xp := false })
      let s := s.modPart q.part (fun p => { p with waiting := p.waiting.filter (fun (b, _) => decide (b ≠ k)) })
      s.harts.foldl (fun (s : State) ((h, x) : Nat × Hart) =>
        match x.wait with
        | .kill rd b => if b = k then s.hartDone h rd (BitVec.ofNat 64 q.progress) else s
        | _ => s) s
    else s
  | none => s

/-- CKILL. -/
def State.ckill (s : State) (h : Nat) (d : BitVec 5) : State :=
  s.userCont h (fun s q =>
    match q.st with
    | .orphaned => s.hartIllegal h
    | .dead => s.hartDone h d.toNat (BitVec.ofNat 64 q.progress)
    | st =>
      let s := if st == .killing then s else s.killCont q.block
      s.setHart h { (s.hart h) with wait := .kill d.toNat q.block })

/-! ### CCREATE, CFREE, CBIND, CADOPT (R78, R97) -/

/-- The resident continuations; the engine has 4,096 slots. -/
def State.residents (s : State) : Nat := (s.conts.filter (fun ((_, q) : Nat × Cont) => q.resident)).length
def State.slotFree (s : State) : Bool := decide (s.residents < 4096)

/-- Whether a field of a block is out of range or a reserved bit set (R75). -/
def State.badFields (s : State) (b : Nat) : Bool :=
  let w (o : Nat) : Nat := s.mem.num (b + o) 8
  let slog := w 8 % 64; let clog := w 0x50 % 64; let plog := w 0x58 % 64
  let sbase := fld (w 8) 12 44 * 2 ^ 12
  decide (Nat.land (w 0) 0xFFFFC800FFF0E000 ≠ 0 ∨ Nat.land (w 8) 0xFF00000000000FC0 ≠ 0 ∨ w 0x30 / 2 ^ 32 ≠ 0
    ∨ Nat.land (w 0x48) 0xFF000000000003FF ≠ 0 ∨ Nat.land (w 0x50) 0xFF00000000000FC0 ≠ 0 ∨ Nat.land (w 0x58) 0xFF0000000000FFC0 ≠ 0
    ∨ Nat.land (w 0x60) 0xFF880000 ≠ 0 ∨ slog < 12 ∨ 30 < slog ∨ sbase % 2 ^ slog ≠ 0 ∨ clog < 12 ∨ 24 < clog ∨ plog < 16 ∨ 40 < plog
    ∨ !inHbm (fld (w 0x58) 16 40 * 2 ^ 16)) || (upto 17 15).any (fun i => decide (w (8 * i) ≠ 0))

/-- The binding table as memory holds it (R281). -/
def State.readBinds (s : State) (btab : Nat) : List Bind :=
  (upto 0 64).map (fun i => (bindOf (s.mem.num (btab + 16 * i) 8) (s.mem.num (btab + 16 * i + 8) 8)).getD {})

/-- The first number from `n` on, wrapping at 2^32, that no continuation bears; `f` numbers are tried. -/
def State.freeCid (s : State) : Nat → Nat → Nat
  | 0, n => n
  | f + 1, n => if s.conts.any (fun ((_, q) : Nat × Cont) => decide (q.cid = n)) then s.freeCid f ((n + 1) % 2 ^ 32) else n

/-- CCREATE's effect on a block at `b` with the owner tag `o`: the value of rd, and the state. -/
def State.contCreate (s : State) (b : Nat) (o : Word) : Word × State :=
  let w (x : Nat) : Nat := s.mem.num (b + x) 8
  let part := fld (w 0) 16 4
  let anchor := fld (w 0) 32 11
  if (s.cont? b).isSome then (eSTATE, s)
  else if s.badFields b then (eFIELD, s)
  else if !(s.part part).en then (ePART, s)
  else if (s.cluster (clusterOf anchor)).cur ≠ some part then (eFIELD, s)
  else
    let (r, s) := s.takeWord
    let cid := s.freeCid (s.conts.length + 1) (r.toNat % 2 ^ 32)
    let slot := s.slotFree
    let q : Cont := {
      block := b, st := if slot then .idle else .parked, pst := if slot then .free else .idle, resident := slot
      prio := fld (w 0) 8 5, part := part, anchor := anchor
      sbase := fld (w 8) 12 44 * 2 ^ 12, slog := w 8 % 64, cid := cid, atp := BitVec.ofNat 64 (w 0x40)
      btab := fld (w 0x48) 10 46 * 2 ^ 10, cring := fld (w 0x50) 12 44 * 2 ^ 12, clog := w 0x50 % 64
      pbase := fld (w 0x58) 16 40 * 2 ^ 16, plog := w 0x58 % 64, binds := s.readBinds (fld (w 0x48) 10 46 * 2 ^ 10) }
    let s := s.endWaits .reinit (fun p => decide (p.place = .glob .K ∧ p.pa = b + 0x18))
    let s := [0x10, 0x18, 0x20, 0x28, 0x60, 0x68, 0x70, 0x78, 0x80].foldl (fun (s : State) (x : Nat) => s.putNum (b + x) 0) s
    let s := s.putNum (b + 0x38) o.toNat
    let s := (s.ringWr q q.cring (toBytesLE 8 0)).ringWr q (q.cring + 8) (toBytesLE 8 0)
    let s := { s with conts := s.conts.put b q }
    (BitVec.ofNat 64 cid, s.syncBlock b)

/-- CCREATE. -/
def State.ccreate (s : State) (h : Nat) (t s1 d : BitVec 5) : State :=
  s.superBlock h s1 (fun s b =>
    let (v, s) := s.contCreate b ((s.hart h).rd t.toNat)
    s.hartDone h d.toNat v)

/-- The block becomes FREE: slot, CID and the jobs it holds are released (R78, R388). -/
def State.contFree (s : State) (b : Nat) : State :=
  let s := s.setCont b (fun q => { q with st := .free, resident := false })
  let s : State := { s with
    parts := s.parts.map (fun p => { p with waiting := p.waiting.filter (fun (x, _) => decide (x ≠ b)) })
    fab := { s.fab with jobs := s.fab.jobs.filter (fun ((_, j) : Nat × Job) => decide (j.holder ≠ b)) }
    launches := s.launches.filter (fun ((_, l) : Nat × Launch) => decide (l.block ≠ b)) }
  { s with conts := s.conts.erase b }

/-- CFREE. -/
def State.cfree (s : State) (h : Nat) (s1 d : BitVec 5) : State :=
  s.superBlock h s1 (fun s b =>
    match s.cont? b with
    | some q =>
      if q.st = .idle ∨ q.st = .dead ∨ q.st = .orphaned then (s.contFree b).hartDone h d.toNat 0 else s.hartDone h d.toNat eSTATE
    | none => s.hartDone h d.toNat eSTATE)

/-- CBIND: the old binding is read and the new one written; the engine is not asked (R80). -/
def State.cbind (s : State) (h : Nat) (s1 d : BitVec 5) : State :=
  let bind (s : State) (b : Nat) : State :=
    let x := s.hart h
    (s.setHart h { x with binding := b }).hartDone h d.toNat (BitVec.ofNat 64 x.binding)
  if !(s.hart h).sup then s.hartIllegal h
  else if (s.hart h).rd s1.toNat = 0 then s.afterStores h (fun s => bind s 0)
  else s.superBlock h s1 bind

/-- CADOPT: ATP is read from the block and checked, its mode being Sv57's (log 101); STATE := PARKED. -/
def State.cadopt (s : State) (h : Nat) (s1 d : BitVec 5) : State :=
  s.superBlock h s1 (fun s b =>
    match s.cont? b with
    | some q =>
      let atp := BitVec.ofNat 64 (s.mem.num (b + 0x40) 8)
      if q.st ≠ .orphaned then s.hartDone h d.toNat eSTATE
      else if atpMode atp ≠ 10 then s.hartDone h d.toNat eFIELD
      else (s.setCont b (fun q => { q with st := .parked, atp := atp })).hartDone h d.toNat 0
    | none => s.hartDone h d.toNat eSTATE)

/-! ### CRESUME (R78, R87, R97) -/

/-- The core that holds the task of a tile. -/
def State.coreOfTile (s : State) (k tile : Nat) : Option Nat :=
  match s.launches.find? k with
  | some l => (List.find? (fun ((_, w) : Nat × WCore) => match w.usr.task with | some t => decide (t.launch = k ∧ t.tile l = tile) | none => false) s.cores).map Prod.fst
  | none => none

/-- Change the user side of a tile's task, on its core or in its image. -/
def State.modTileUser (s : State) (k tile : Nat) (f : User → User) : State :=
  match s.launches.find? k with
  | none => s
  | some l => s.mapUsers (fun u => match u.task with | some t => if t.launch = k ∧ t.tile l = tile then f u else u | none => u)

/-- The user side of a tile's task. -/
def State.tileUser (s : State) (k tile : Nat) : Option User :=
  match s.launches.find? k with
  | none => none
  | some l => s.users.find? (fun (u : User) => match u.task with | some t => decide (t.launch = k ∧ t.tile l = tile) | none => false)

/-- Drop a task that rests in an image (R126, R374). -/
def State.dropImage (s : State) (k tile : Nat) (u : User) : State :=
  match s.launches.find? k with
  | none => s
  | some l =>
    let s := match u.member with | some m => s.abortRegion (s.slotKey m.handle) cKILLED | none => s
    let s := s.modTileUser k tile (fun u => { u with
      task := u.task.map (fun t => { t with st := .dropped, drains := [], trap := none, killAt := false, posted := false })
      ctx := { u.ctx with ret := [], loops := [], wdog := none, idle := 0, pipe := [], arvs := [] }
      tids := [], claim := 0, member := none, after := [], latched := none, waive := false, xfers := [], cpwaits := [], asks := []
      porters := u.porters.map (fun p => { p with st := .idle, blocks := [], token := none, sigs := [] }), mseq := none, seg := {} })
    let s := s.dropRecords k tile
    let s := if l.over'.any (fun (x, _) => decide (x = tile)) then s else s.modLaunch k (fun l => { l with over' := l.over' ++ [(tile, .dropped)] })
    s.dropsAdd l.block

/-- Retry (0) or drop (1) of the task of a tile (R438, R442). -/
def State.taskResume (s : State) (k tile action : Nat) : State :=
  match s.tileUser k tile, s.coreOfTile k tile with
  | some u, core =>
    match u.task with
    | some t =>
      if t.trap.isNone ∨ !t.posted then s
      else if action = 0 then
        let after := (t.trap.map TrapRec.after).getD false
        let s := s.modTileUser k tile (fun u => { u with
          task := u.task.map (fun t => if after then { t with posted := false } else { t with st := if t.st == .trapped then t.was else t.st, trap := none, posted := false })
          member := if !after && u.member.any (fun m => m.noted.isSome && decide (m.noted = t.trap.map TrapRec.cause)) then none else u.member })
        match core with | some c => s.modLan c (fun l => { l with trapSeen := false }) | none => s
      else match core with
        | some c => s.endTask c .dropped
        | none => s.dropImage k tile u
    | none => s
  | none, _ => s

/-- Retry or drop of a faulted transfer (R291, R292). -/
def State.xferResume (s : State) (k tile ch id action : Nat) : State :=
  match s.tileUser k tile with
  | some u =>
    match u.xfer? ch id with
    | some x =>
      if x.st ≠ .faulted then s
      else if action = 0 then
        s.modTileUser k tile (fun u => { u with xfers := u.xfers.map (fun (y : Xfer) => if y.ch = ch ∧ y.id = id then { y with st := .inFlight, cause := 0, wait := none } else y) })
      else match s.coreOfTile k tile with
        | some c => s.xferEnd c x stABORTED
        | none => s.modTileUser k tile (fun u => { u with
            xfers := u.xfers.filter (fun (y : Xfer) => decide (¬ (y.ch = ch ∧ y.id = id))), ctx := u.ctx.deliver x.reg (.sc (BitVec.ofNat 64 id)) stABORTED })
    | none => s
  | none => s

/-- Retry or drop of a faulted porter (R306). -/
def State.porterResume (s : State) (k tile side action : Nat) : State :=
  match s.tileUser k tile with
  | some u =>
    let p := nth {} u.porters side
    let code := match p.fault with | some (_, _, true) => 15 | _ => 13
    if p.st ≠ .faulted then s
    else if action = 0 then s.modTileUser k tile (fun u => { u with porters := setAt u.porters side { p with st := .running, fault := none } })
    else match s.coreOfTile k tile with
      | some c => s.porterEnd c side .error code code
      | none => s.modTileUser k tile (fun u => { u with
          porters := setAt u.porters side { p with st := .error, cause := code, token := none, fault := none }
          ctx := match p.token with | some (reg, _) => u.ctx.deliver reg (.sc (BitVec.ofNat 64 code)) stERROR | none => u.ctx })
  | none => s

/-- CRESUME's action on what the recorded fault holds. -/
def State.resumeObj (s : State) (k : Nat) (o : FObj) (action : Nat) : State :=
  match o with
  | .task l t => s.taskResume l t action
  | .xfer l t ch id => s.xferResume l t ch id action
  | .porter l t side => s.porterResume l t side action
  | .stream => s.streamResume k action
  | .copyPkt => s.copyPktResume k action
  | .message n => s.msgResume n action

/-- Whether what a waiting fault record names is still held. -/
def State.stillHeld (s : State) (o : FObj) : Bool :=
  match o with
  | .task l t => match (s.tileUser l t).bind User.task with | some t => t.trap.isSome && t.posted | none => false
  | .xfer l t ch id => match (s.tileUser l t).bind (fun u => u.xfer? ch id) with | some x => x.st == .faulted | none => false
  | .porter l t side => match s.tileUser l t with | some u => (nth {} u.porters side).st == .faulted | none => false
  | .message n => (s.msg? n).isSome
  | _ => true

/-- Record the next of the faults that wait behind the one just cleared, if the continuation may record it. -/
def State.nextFault (s : State) (k : Nat) : State :=
  match s.conts.find? k with
  | some q =>
    if q.parking ∨ !(q.st == .idle || q.st == .running || q.st == .waiting) then s
    else match q.later.filter (fun (f : FRec) => s.stillHeld f.obj) with
      | [] => s.modCont k (fun q => { q with later := [] })
      | f :: rest => (s.modCont k (fun q => { q with later := rest })).holdFault k f
  | none => s

/-- CRESUME's status and effect on a block; on a parked continuation the held object's fate takes effect at unparking (R97). -/
def State.contResume (s : State) (b action : Nat) : Word × State :=
  match s.cont? b with
  | none => if 2 < action then (eFIELD, s) else (eSTATE, s)
  | some q =>
    let parked := q.st == .parked && q.pst == .faulted
    if 2 < action then (eFIELD, s)
    else if q.st ≠ .faulted ∧ !parked then (eSTATE, s)
    else if action = 0 ∧ (q.fault.map FRec.cls).getD 0 = 2 then (eSTATE, s)
    else
      let s := s.modCont b (fun q => { q with ap := false, xp := q.xp && action != 1 })
      let s := s.modPart q.part (fun p => { p with waiting := p.waiting.filter (fun (x, _) => decide (x ≠ b)) })
      if action = 2 then (0, s.killCont b)
      else
        let s := match q.fault with | some f => if parked then s else s.resumeObj b f.obj action | none => s
        let s := if parked then s.setCont b (fun q => { q with pst := .running, fate := some action })
          else if q.parking then s.setCont b (fun q => { q with st := .running, pst := .running })
          else (s.setCont b (fun q => { q with st := .running, stream := q.stream.release })).settleStream b
        (0, if parked then s else s.nextFault b)

/-- CRESUME. -/
def State.cresume (s : State) (h : Nat) (t s1 d : BitVec 5) : State :=
  s.superBlock h s1 (fun s b =>
    let (v, s) := s.contResume b ((s.hart h).rd t.toNat).toNat
    s.hartDone h d.toNat v)

/-! ### Parking and unparking (R84, R85) -/

/-- Whether a cluster lets a continuation anchored on it run: it is the partition's and nobody takes it back. -/
def State.anchorReady (s : State) (q : Cont) : Bool :=
  let x := s.cluster (clusterOf q.anchor)
  decide (x.cur = some q.part) && !x.reclaim

/-- Unpark a continuation into a free slot: what CRESUME has decided meanwhile is done, it goes back to PSTATE, and POST is
read. -/
def State.unparkCont (s : State) (k : Nat) : State :=
  let s := match (s.conts.find? k).bind (fun q => q.fate.bind (fun a => q.fault.map (fun f => (f.obj, a)))) with
    | some (o, a) => (s.modCont k (fun q => { q with fate := none })).resumeObj k o a
    | none => s
  let s := s.setCont k (fun q => { q with
    st := q.pst, resident := true, stream := if q.pst == .faulted then q.stream else q.stream.release })
  (s.settleStream k).nextFault k

/-- A parked continuation that waits to run. -/
def State.wantsSlot (s : State) (q : Cont) : Bool :=
  q.st == .parked && !q.ckpt && s.anchorReady q && (q.pst != .idle || decide (q.fetch < s.post q.block))

/-- The order in which parked continuations are served: PRIO, then the oldest unserved post, then the lower block. -/
def Cont.sooner (a b : Cont) : Bool :=
  decide (a.prio > b.prio ∨ (a.prio = b.prio ∧ (a.postAt < b.postAt ∨ (a.postAt = b.postAt ∧ a.block < b.block))))
def firstCont (f : Cont → Cont → Bool) : List Cont → Option Cont
  | [] => none
  | q :: t => match firstCont f t with | some r => if f r q then some r else some q | none => some q

/-- Whether a slot is free that no waiting CLOAD has had made for its own continuation. -/
def State.engineFree (s : State) : Bool :=
  decide (s.residents + (s.harts.filter (fun ((_, x) : Nat × Hart) => match x.wait with | .load _ _ => true | _ => false)).length < 4096)

/-- The continuation that is unparked next when a slot is free. -/
def State.nextWaiting (s : State) : Option Cont := firstCont Cont.sooner ((s.conts.map Prod.snd).filter s.wantsSlot)

/-- CONT_UNPARK. -/
def State.contUnpark (s : State) (k : Nat) : State :=
  match s.nextWaiting with
  | some q => if q.block = k ∧ s.engineFree then s.unparkCont k else s
  | none => s

/-- The residents that may be parked to make room for `q`: of lower PRIO, or of the same PRIO with a younger post where
`age` allows it; the first to go stands first. -/
def State.victims (s : State) (q : Cont) (age : Bool) : List Cont :=
  let l := (s.conts.map Prod.snd).filter (fun (v : Cont) =>
    v.resident && !v.parking && (v.st == .idle || v.st == .running || v.st == .waiting || v.st == .faulted)
      && decide (v.prio < q.prio ∨ (age ∧ v.prio = q.prio ∧ q.postAt < v.postAt)))
  l.mergeSort (fun a b => !a.sooner b)

/-- Whether a parking that frees a slot is under way. -/
def State.slotComing (s : State) : Bool := s.conts.any (fun ((_, q) : Nat × Cont) => q.parking && !q.ckpt)

/-- The first of several continuations that can be parked, parked (R171 passes over the others). -/
def State.parkOne (s : State) : List Cont → Option State
  | [] => none
  | v :: t => match s.beginPark v.block with | some s' => some s' | none => s.parkOne t

/-- The continuation that the engine parks next to free a slot. -/
def State.parkDue (s : State) : Option Nat :=
  if s.engineFree || s.slotComing then none
  else match s.nextWaiting with
    | none => none
    | some q => ((s.victims q true).find? (fun (v : Cont) => (s.beginPark v.block).isSome)).map Cont.block

/-- CONT_PARK. -/
def State.contPark (s : State) (k : Nat) : State :=
  if s.parkDue = some k then (s.beginPark k).getD s else s

/-- CSAVE. -/
def State.csave (s : State) (h : Nat) (s1 d : BitVec 5) : State :=
  s.superBlock h s1 (fun s b =>
    match s.cont? b with
    | none => s.hartDone h d.toNat eSTATE
    | some q =>
      if q.st = .parked then s.hartDone h d.toNat 0
      else if q.st = .idle ∨ q.st = .running ∨ q.st = .waiting ∨ q.st = .faulted then
        match s.beginPark b with
        | none => s.hartDone h d.toNat ePARK
        | some s => s.setHart h { (s.hart h) with wait := .save d.toNat b }
      else s.hartDone h d.toNat eSTATE)

/-- CLOAD. -/
def State.cload (s : State) (h : Nat) (s1 d : BitVec 5) : State :=
  s.superBlock h s1 (fun s b =>
    match s.cont? b with
    | none => s.hartDone h d.toNat eSTATE
    | some q =>
      let wait (s : State) : State := s.setHart h { (s.hart h) with wait := .load d.toNat b }
      if q.st ≠ .parked then s.hartDone h d.toNat eSTATE
      else if q.ckpt then wait s
      else if !s.anchorReady q then s.hartDone h d.toNat eNOSLOT
      else if s.engineFree then (s.unparkCont b).hartDone h d.toNat 0
      else match s.parkOne (s.victims q false) with
        | some s => wait s
        | none => s.hartDone h d.toNat eNOSLOT)

/-- The waits of harts in CSAVE and CLOAD that end in this cycle. -/
def State.hartWaits (s : State) : State :=
  s.harts.foldl (fun (s : State) ((h, x) : Nat × Hart) =>
    match x.wait with
    | .save rd b => match s.cont? b with
      | some q => if q.st = .parked then s.hartDone h rd 0 else if q.parking then s else s.hartDone h rd eSTATE
      | none => s.hartDone h rd eSTATE
    | .load rd b => match s.cont? b with
      | some q =>
        if q.st ≠ .parked then s.hartDone h rd (if q.st = .killing ∨ q.st = .dead then eSTATE else 0)
        else if q.ckpt then s
        else if s.slotFree && s.anchorReady q then (s.unparkCont b).hartDone h rd 0
        else if s.slotComing then s
        else s.hartDone h rd eNOSLOT
      | none => s.hartDone h rd eSTATE
    | _ => s) s

/-! ### Checkpoints (R90, R453) -/

/-- The part of a memory between two bounds. -/
def Mem.slice (m : Mem) (lo hi : Nat) : Mem :=
  { cells := m.cells.filter (fun c => decide (lo ≤ c.1 ∧ c.1 < hi))
    open' := (m.open'.filter (fun (a, b, _) => decide (max a lo < min b hi))).map (fun (a, b, g) => (max a lo, min b hi, g)) }
/-- Put a part back. -/
def Mem.graft (m : Mem) (lo hi : Nat) (p : Mem) : Mem :=
  { cells := m.cells.filter (fun c => decide (c.1 < lo)) ++ p.cells ++ m.cells.filter (fun c => decide (c.1 < lo → False) && decide (hi ≤ c.1))
    open' := p.open' ++ openCut lo hi m.open' }

/-- The leaf pages with D = 1 of a page table (R256): `lvl` the level of the table at `tab`. -/
def State.dirtyPages (s : State) : Nat → Nat → List (Nat × Nat)
  | 0, tab => (upto 0 512).filterMap (fun i =>
      let e := s.mem.num (tab + 8 * i) 8
      if e.testBit 0 && e.testBit 7 && (e.testBit 1 || e.testBit 3) then
        let n := fld e 10 44
        if e.testBit 63 then some (n / 16 * 2 ^ 16, n / 16 * 2 ^ 16 + 2 ^ 16) else some (n * 2 ^ 12, (n + 1) * 2 ^ 12)
      else none)
  | l + 1, tab => (upto 0 512).flatMap (fun i =>
      let e := s.mem.num (tab + 8 * i) 8
      let n := fld e 10 44
      if !e.testBit 0 then []
      else if e.testBit 1 || e.testBit 3 then (if e.testBit 7 && decide (l < 2) then [(n * 2 ^ 12, n * 2 ^ 12 + 2 ^ (12 + 9 * (l + 1)))] else [])
      else s.dirtyPages l (n * 2 ^ 12))

/-- The continuations of a checkpoint that can be parked for it are stopped; none if one cannot be parked (R171). -/
def State.ckptPark (s : State) : List Nat → Option State
  | [] => some s
  | k :: t => match s.beginPark k with
    | none => none
    | some s => (s.modCont k (fun q => { q with ckpt := true })).ckptPark t

/-- A checkpoint of some continuations starts. -/
def State.ckptStart (s : State) (ks : List Nat) : Option State :=
  ((s.ckptPark ks)).map (fun s => { s with mod := { s.mod with pending := some ks } })

/-- Whether a checkpoint takes a continuation. -/
def Cont.saveable (q : Cont) : Bool := !(q.st == .free || q.st == .killing || q.st == .dead)

/-- CCKPT: a checkpoint of the block's continuation; during a checkpoint it joins that one, which then takes its
continuation too (R453). -/
def State.cckpt (s : State) (h : Nat) (s1 d : BitVec 5) : State :=
  s.superBlock h s1 (fun s b =>
    let wait (s : State) : State := s.setHart h { (s.hart h) with wait := .ckpt d.toNat }
    match s.cont? b with
    | none => s.hartDone h d.toNat eSTATE
    | some q =>
      if !q.saveable then s.hartDone h d.toNat eSTATE
      else if s.mod.areaLost then s.hartDone h d.toNat eFLASH
      else
        let ks := s.mod.pending.getD []
        match (if ks.contains b then some s else s.ckptPark [b]) with
        | some s => wait { s with mod := { s.mod with pending := some (if ks.contains b then ks else ks ++ [b]) } }
        | none => s.hartDone h d.toNat ePARK)

/-- Package cycles of `n` ms. -/
def msCycles (n : Nat) : Nat := 1200000 * n

/-- The continuations of a checkpoint at the interval: all that can be parked. -/
def State.ckptAll (s : State) : List Nat → List Nat → List Nat × State
  | [], acc => (acc, s)
  | k :: t, acc => match s.ckptPark [k] with
    | some s => s.ckptAll t (acc ++ [k])
    | none => s.ckptAll t acc

/-- CHECKPOINT_INTERVAL. -/
def State.checkpointInterval (s : State) : State :=
  match s.mod.ckNext with
  | some c =>
    if s.cyc < c ∨ s.mod.interval = 0 ∨ s.mod.pending.isSome then s
    else
      let (ks, s) := s.ckptAll ((s.conts.filter (fun ((_, q) : Nat × Cont) => q.saveable)).map Prod.fst) []
      { s with mod := { s.mod with pending := some ks, ckNext := some (s.cyc + msCycles s.mod.interval) } }
  | none => s

/-- Whether the checkpoint in progress has everything it writes at rest. -/
def State.ckptReady (s : State) : Bool :=
  match s.mod.pending with
  | some ks => ks.all (fun k => match s.conts.find? k with | some q => !q.parking | none => true)
  | none => false

/-- What a checkpoint keeps of a continuation. -/
def State.ckptOf (s : State) (q : Cont) : CkptCont :=
  let ls := s.launches.filter (fun ((_, l) : Nat × Launch) => decide (l.block = q.block) && l.st != .done)
  let now := (s.dirtyPages 4 (atpRoot q.atp)).map (fun (lo, hi) => (lo, hi, s.mem.slice lo hi))
  let old := ((s.mod.ckpt.bind (fun c => c.conts.find? (fun (x : CkptCont) => decide (x.cont.block = q.block)))).map CkptCont.pages).getD []
  { cont := { q with ckpt := false }, post := s.post q.block, owner := s.mem.num (q.block + 0x38) 8, launches := ls
    ests := s.ests.filter (fun ((k, _) : Nat × Estimate) => ls.any (fun ((n, _) : Nat × Launch) => decide (n = k)))
    pages := old.filter (fun (lo, hi, _) => !now.any (fun (a, b, _) => decide (a < hi ∧ lo < b))) ++ now }

/-- CHECKPOINT_COMPLETE: the generation is committed, CKGEN and GEN rise, and what waited goes on; in a checkpoint area that is
full or has failed nothing is committed (E_FLASH, R92). -/
def State.checkpointComplete (s : State) : State :=
  match s.mod.pending, s.ckptReady with
  | some ks, true =>
    let live := if s.mod.areaLost then [] else ks.filter (fun k => match s.conts.find? k with | some q => q.st == .parked || q.st == .orphaned | none => false)
    let s := live.foldl (fun (s : State) (k : Nat) => s.setCont k (fun q => { q with ckgen := q.ckgen + 1 })) s
    let g : Ckpt := { gen := s.mod.gen + 1, conts := live.filterMap (fun k => (s.conts.find? k).map s.ckptOf) }
    let s := { s with mod := if s.mod.areaLost then { s.mod with pending := none } else { s.mod with gen := s.mod.gen + 1, ckpt := some g, pending := none } }
    let s := ks.foldl (fun (s : State) (k : Nat) => s.modCont k (fun q => { q with ckpt := false })) s
    s.harts.foldl (fun (s : State) ((h, x) : Nat × Hart) => match x.wait with | .ckpt rd => s.hartDone h rd (if s.mod.areaLost then eFLASH else 0) | _ => s) s
  | _, _ => s

/-! ### Attention and steering (R86, R161) -/

/-- ATTENTION_RETRY. -/
def State.attentionRetry (s : State) (p : Nat) : State := s.attend p ((s.part p).waiting.length + 1)

/-- FAULT_STEERING_WRITE. -/
def State.faultSteeringWrite (s : State) (p : Nat) (v : Word) : State :=
  if 16 ≤ p then s
  else
    let old := s.part p
    let s := s.modPart p (fun x => { x with ring := fld v.toNat 11 45 * 2 ^ 11, hart := v.toNat % 256 })
    let x := s.part p
    let due := decide (192 ≤ old.hart ∧ x.hart < 192 ∧ x.ring ≠ 0) && (upto 0 256).any (fun i => (s.mem.num (x.ring + 8 * i) 8).testBit 7)
    (if due then s.raiseAttention p else s).attentionRetry p

/-! ### Partitions (R161, R162, R398, R449) -/

/-- A command of Basecamp reaches the lantern contexts of the clusters that meet a condition (R180, log 99). -/
def State.callLanterns (s : State) (f : Cluster → Bool) : State :=
  (s.cores.filter (fun ((c, _) : Nat × WCore) => f (s.cluster (clusterOf c)))).foldl (fun (s : State) ((c, _) : Nat × WCore) => s.callLantern c) s

/-- PARTITION_RESET: a fresh memory key, an unrecoverable record for every continuation, and its kill. -/
def State.partitionReset (s : State) (p : Nat) : State :=
  if 16 ≤ p then s
  else
    let ks := (s.conts.filter (fun ((_, q) : Nat × Cont) =>
      decide (q.part = p) && !(q.st == .free || q.st == .killing || q.st == .dead || q.st == .orphaned))).map Prod.fst
    ks.foldl (fun (s : State) (k : Nat) =>
      let f : FRec := { cls := 2, cause := cPARTITION_RESET, time := s.cyc }
      ((s.modCont k (fun q => { q with fault := some f })).raiseXp k).killCont k) ((s.newMemKey p).callLanterns (fun x => decide (x.cur = some p)))

/-- Whether a cluster holds a core of a placed launch. -/
def State.inUse (s : State) (k : Nat) : Bool := !s.bare k

/-- Whether the slot tables may become those of a plan: no partition that owns a cell which changes, before or after, has a
launch PLACING, ACTIVE or DRAINING (R165). -/
def State.cellsFree (s : State) (plan : Plan) : Bool :=
  let busy (p : Nat) : Bool := s.launches.any (fun ((_, l) : Nat × Launch) =>
    decide (l.part = p) && (l.st == .placing || l.st == .active || l.st == .draining))
  s.dies.zipIdx.all (fun ((d, i) : Die × Nat) =>
    let new : Tab Nat := nth [] plan.cells i
    (d.cells ++ new).all (fun ((cell, o) : Nat × Nat) => decide (d.cells.find? cell = new.find? cell) || !busy o))

/-- PARTITION_PLAN_APPLY: partitions, clusters and, as far as R165 lets them change, slot tables become those of the plan; a
cluster in use goes home when it is free. -/
def State.partitionPlanApply (s : State) (plan : Plan) : State :=
  let free := s.cellsFree plan
  let s := { s.callLanterns (fun x => x.cur.isSome) with plan := plan }
  let s := (upto 0 16).foldl (fun (s : State) (p : Nat) =>
    s.modPart p (fun x => match plan.parts.find? (fun (y : PlanPart) => decide (y.part = p)) with
      | some y => { x with en := true, hard := y.hard, rprio := y.rprio, share := y.share, closed := false }
      | none => { x with en := false })) s
  let s := (upto 0 64).foldl (fun (s : State) (k : Nat) =>
    let home := (plan.parts.find? (fun (y : PlanPart) => y.clusters.contains k)).map PlanPart.part
    let x := s.cluster k
    let s := s.modCluster k (fun x => { x with home := home })
    if x.cur = home ∨ s.inUse k then s
    else s.giveCluster k home) s
  if free then { s with dies := s.dies.zipIdx.map (fun (d, i) => { d with cells := nth [] plan.cells i }) } else s

/-- PCIE_FLR: the function's partition is reset, and its landing closed until a plan enables it again. -/
def State.pcieFlr (s : State) (port fn : Nat) : State :=
  if s.lands port fn then (s.partitionReset fn).modPart fn (fun p => { p with closed := true }) else s
/-- PCIE_DPC_CONTAINMENT. -/
def State.pcieDpc (s : State) (port : Nat) (held : Bool) : State := if port < 4 then s.modPcie port (fun x => { x with dpc := held }) else s
/-- PCIE_LINK_TRAINING. -/
def State.pcieTrain (s : State) (port : Nat) : State := if port < 4 then s.modPcie port (fun x => { x with up := true }) else s

/-! ### Register writes and host stores (R5, R75, R260, R263, R447) -/

/-- REGISTER_WRITE: a supervisor's write of a register with no event of its own. -/
def State.registerWrite (s : State) (off : Nat) (v : Word) : State :=
  if off = 0x100 then { s with shoot := { s.shoot with va := v } }
  else if 0x400 ≤ off ∧ off < 0x800 ∧ off % 0x40 = 8 ∧ v.toNat / 2 ^ 16 = 0 then s.modPart ((off - 0x400) / 0x40) (fun p => { p with dbg := v.getLsbD 2 })
  else if 0x2000 ≤ off ∧ off < 0x2000 + 8 * 96 ∧ off % 8 = 0 then
    s.modPort ((off - 0x2000) / 8) (fun p => { p with retry := Nat.land p.retry (2 ^ 32 - 1 - v.toNat / 2 ^ 16 % 2 ^ 32) })
  else if off = 0x4000 then
    let n := v.toNat % 2 ^ 32
    { s with mod := { s.mod with interval := n, ckNext := if n = 0 then none else some (s.cyc + msCycles n) } }
  else s

/-- The CLUSTERS word of a partition (R161). -/
def State.clustersWord (s : State) (p : Nat) : Nat :=
  ((upto 0 64).filter (fun k => decide ((s.cluster k).cur = some p))).foldl (fun (n k : Nat) => n + 2 ^ k) 0

/-- What a supervisor's read of 8 bytes at an offset of the control page finds: the registers of R161, R264, R387, R395, R399
and R447; every other offset is RZ. -/
def State.controlRead (s : State) (off : Nat) : Nat :=
  let b (v : Bool) (k : Nat) : Nat := if v then 2 ^ k else 0
  if off = 0x100 then s.shoot.va.toNat
  else if off = 0x108 then s.shoot.ctl.toNat + b s.shoot.go 63
  else if 0x400 ≤ off ∧ off < 0x800 then
    let p := (off - 0x400) / 0x40
    let x := s.part p
    match off % 0x40 with
    | 0x00 => s.clustersWord p
    | 0x08 => b x.en 0 + b x.hard 1 + b x.dbg 2 + x.share % 2 ^ 4 * 2 ^ 8 + x.rprio % 2 ^ 4 * 2 ^ 12
    | 0x10 => x.ring + x.hart
    | 0x18 => x.next
    | _ => 0
  else if 0x1000 ≤ off ∧ off < 0x1800 then
    let x := s.rwin ((off - 0x1000) / 0x20)
    match off % 0x20 with
    | 0x00 => x.w0.toNat
    | 0x08 => Nat.land x.w1.toNat 0xFFFF330FFFFFFFF1
    | _ => 0
  else if 0x2000 ≤ off ∧ off < 0x2000 + 8 * 96 then
    let x := s.port' ((off - 0x2000) / 8)
    x.st.code + x.peer * 2 ^ 8 + x.retry * 2 ^ 16
  else if 0x3000 ≤ off ∧ off < 0x4000 then
    let x := s.lwin ((off - 0x3000) / 0x100) (off % 0x100 / 0x10)
    if off % 0x10 = 0 then x.w0.toNat else x.w1.toNat
  else if off = 0x4000 then s.mod.interval
  else if off = 0x4008 then s.mod.gen
  else if off = 0x4010 then (s.mod.slot s.mod.activeSlot).svn * 2 ^ 32 + s.mod.upd.code
  else 0

/-- The step that a write of 8 bytes to an offset of the control page is. -/
def ctlWrite (off : Nat) (v : Word) : Instr :=
  if off = 0x108 then .shootdownGo v
  else if 0x400 ≤ off ∧ off < 0x800 ∧ off % 0x40 = 0x10 then .faultSteeringWrite ((off - 0x400) / 0x40) v
  else if 0x1000 ≤ off ∧ off < 0x1800 then .reductionWindowWrite ((off - 0x1000) / 0x20) (off % 0x20) v
  else if 0x3000 ≤ off ∧ off < 0x4000 then .landingWindowWrite ((off - 0x3000) / 0x100) (off % 0x100 / 0x10) (off % 0x10) v
  else .registerWrite off v

/-- Whether a byte of memory is of the POST or the PROGRESS word of a live block: host stores leave both alone, since
counter operations see what the engine wrote (R75, R76). -/
def State.postByte (s : State) (pa : Nat) : Bool :=
  decide (0x10 ≤ pa % 256 ∧ pa % 256 < 0x20) && (s.cont? (pa / 256 * 256)).isSome

/-- A host store is performed: in memory, in every region its bytes reach, with the waits on a counter it writes
checked. -/
def State.hostPerform (s : State) (pa : Nat) (bytes : List Byte) : State :=
  let s := bytes.zipIdx.foldl (fun (s : State) ((b, i) : Byte × Nat) => if s.postByte (pa + i) then s else s.storeMem (pa + i) [b]) s
  let s := (upto (pa / 8) ((pa + bytes.length + 7) / 8 - pa / 8)).foldl (fun (s : State) (w : Nat) => s.touch (.glob .K) (8 * w)) s
  let ps := (upto 0 16).filter (fun p =>
    let x := s.part p
    decide (x.ring ≠ 0 ∧ pa < x.ring + 2048 ∧ x.ring < pa + bytes.length) && !x.waiting.isEmpty)
  s.soon (ps.map (fun p => .event (.attentionRetry p)))

/-- The 2 MiB regions that a store touches. -/
def regionsOf (pa n : Nat) : List Nat := upto (pa / 2 ^ 21) ((pa + n - 1) / 2 ^ 21 - pa / 2 ^ 21 + 1)

/-- The harts that wait for stores go on when every store is performed (R93, R361). -/
def State.wakeHarts (s : State) : State :=
  let hs := if s.hostq.isEmpty then (s.harts.filter (fun ((_, x) : Nat × Hart) => decide (x.wait = .stores))).map Prod.fst else []
  (hs.foldl (fun (s : State) (h : Nat) => s.setHart h { (s.hart h) with wait := .none }) s).soon (hs.map Turn.hart)

/-- A host access to regions that are not the processor's asks for their transfer (R260, R261). -/
def State.wantRegions (s : State) (rs : List Nat) : State :=
  rs.foldl (fun (s : State) (r : Nat) => if (s.region (r * 2 ^ 21)).st == .proc then s
    else { s with regions := s.regions.put r { (s.region (r * 2 ^ 21)) with wantP := true } }) s

/-- The host stores that wait for a region, oldest first, as far as their regions are the processor's (R261). -/
def State.hostGo (s : State) : List (Nat × List Byte) → List (Nat × List Byte) → State
  | [], kept => ({ s with hostq := kept } : State).wakeHarts
  | (pa, bytes) :: t, kept =>
    let rs := regionsOf pa bytes.length
    let blocked := kept.any (fun ((a, bs) : Nat × List Byte) => (regionsOf a bs.length).any rs.contains)
    if !blocked && rs.all (fun r => (s.region (r * 2 ^ 21)).st == .proc) then (s.hostPerform pa bytes).hostGo t kept
    else (s.wantRegions rs).hostGo t (kept ++ [(pa, bytes)])

/-- HOST_STORE. -/
def State.hostStore (s : State) (pa : Nat) (bytes : List Byte) : Out :=
  if bytes.isEmpty then .next s
  else if ctlPage ≤ pa ∧ pa + bytes.length ≤ ctlPage + 2 ^ 16 then
    .next (if bytes.length = 8 ∧ pa % 8 = 0 then s.soon [.event (ctlWrite (pa - ctlPage) (BitVec.ofNat 64 (ofBytesLE bytes)))] else s)
  else if inHbm pa ∧ inHbm (pa + bytes.length - 1) then .next (s.hostGo (s.hostq ++ [(pa, bytes)]) [])
  else .fault (.noMemory pa)

end Sys2Proof.Machine
end

