-- ==== Sys2Proof/Machine/ModuleOps.lean ====
section
/-! DEFINITION. The firmware image and its update (R444 to R446), attestation and keys (R448, R451), bring-up (R452,
R453), power (R454, R455), and the page events: walks, ownership transfers, write-backs, woken units (R261 to R263,
R269, R325). -/
namespace Sys2Proof.Machine

/-! ### The image (R444, R445) -/

def nats (bs : List Byte) : List Nat := bs.map BitVec.toNat

/-- SVN and DIGEST of an image. -/
def imageSvn (bs : List Byte) : Nat := ofBytesLE ((bs.drop 4).take 4)
def imageDigest (bs : List Byte) : List Byte := (bs.drop 0x10).take 32

/-- The check of R444. -/
def imageOk (minSvn : Nat) (bs : List Byte) : Bool :=
  let n := ofBytesLE ((bs.drop 8).take 8)
  let sig := nats ((bs.drop 0x30).take 64)
  decide (256 ≤ bs.length ∧ ofBytesLE (bs.take 4) = 0x4B473946 ∧ n % 256 = 0 ∧ n ≤ 2 ^ 28 ∧ bs.length = 256 + n ∧ minSvn ≤ imageSvn bs)
    && ((bs.drop 0x70).take 0x90).all (fun b => b == 0)
    && nats (imageDigest bs) == sha256 (nats (bs.drop 256))
    && ecdsaOk Config.imageKey (ofBytesBE (sha256 (nats (bs.take 0x30)))) (ofBytesBE (sig.take 32)) (ofBytesBE (sig.drop 32))

def State.modMod (s : State) (f : Module → Module) : State := { s with mod := f s.mod }
def Module.setSlot (m : Module) (n : Nat) (x : ImgSlot) : Module := { m with slots := setAt m.slots n x }

/-- PLDM_REQUEST_UPDATE: refused while an update is under way. -/
def State.pldmRequest (s : State) : State :=
  match s.mod.upd with
  | .receiving | .verified | .staged | .activating => s
  | .none | .active | .rejected => s.modMod (fun m => { (m.setSlot (1 - m.activeSlot) {}) with upd := .receiving, updSlot := 1 - m.activeSlot })
/-- IMAGE_TRANSFER_COMPLETE. -/
def State.imageComplete (s : State) (bs : List Byte) : State :=
  if s.mod.upd ≠ .receiving then s
  else if imageOk s.mod.minSvn bs then
    s.modMod (fun m => { (m.setSlot m.updSlot { bytes := bs, valid := true, svn := imageSvn bs, digest := imageDigest bs }) with upd := .verified })
  else s.modMod (fun m => { (m.setSlot m.updSlot { bytes := bs }) with upd := .rejected })
/-- IMAGE_TRANSFER_ABORTED. -/
def State.imageAborted (s : State) : State :=
  if s.mod.upd ≠ .receiving then s else s.modMod (fun m => { (m.setSlot m.updSlot {}) with upd := .rejected })
/-- PLDM_APPLY_COMPLETE. -/
def State.pldmApply (s : State) : State :=
  if s.mod.upd ≠ .verified then s
  else s.modMod (fun m => { (m.setSlot m.updSlot { m.slot m.updSlot with pending := true }) with upd := .staged })
/-- PLDM_ACTIVATE_FIRMWARE: the hub switches first (R446). -/
def State.pldmActivate (s : State) : State :=
  if s.mod.upd ≠ .staged then s else (s.callLanterns (fun x => x.cur.isSome)).modMod (fun m => { m with upd := .activating, imageGen := m.imageGen + 1 })
/-- PLDM_CANCEL_UPDATE. -/
def State.pldmCancel (s : State) : State :=
  match s.mod.upd with
  | .receiving | .verified | .staged => s.modMod (fun m => { (m.setSlot m.updSlot {}) with upd := .none })
  | _ => s

/-- The image in a slot becomes the ACTIVE one. -/
def Module.activate (m : Module) (n : Nat) : Module :=
  { (m.setSlot n { m.slot n with pending := false }) with activeSlot := n, upd := .active, minSvn := max m.minSvn (m.slot n).svn }

/-- Whether a core's lantern context executes a handler: a trap that it has begun to handle and not yet put aside. -/
def State.inHandler (s : State) (c : Nat) : Bool :=
  s.held c && (s.core c).lan.trapSeen && !((s.task? c).map Task.posted).getD false && !(s.core c).debugHeld
    && decide ((s.trapRec c).cause ≠ cSYS_RING_FULL)

/-- Whether every lantern context that runs has switched; clusters in no partition are gated and load the image when
they wake. -/
def State.allSwitched (s : State) : Bool :=
  (upto 0 64).all (fun k => (s.cluster k).cur.isNone || (clusterCores k).all (fun c => (s.core c).lan.image == s.mod.imageGen))

/-- Whether a core's lantern context would switch in this cycle (R446). -/
def State.switchDue (s : State) (c : Nat) : Bool :=
  decide (s.mod.upd = .activating ∧ c < 2048 ∧ (s.core c).lan.image ≠ s.mod.imageGen) && (s.corePart c).isSome && s.shareCycle c
    && !s.inHandler c

/-- LANTERN_IMAGE_SWITCH. -/
def State.lanternSwitch (s : State) (c : Nat) : State :=
  if s.switchDue c then
    let s := s.modLan c (fun l => { l with image := s.mod.imageGen })
    if s.allSwitched then s.modMod (fun m => m.activate m.updSlot) else s
  else s

/-! ### Attestation and keys (R448, R451) -/

def bytesOf (l : List Nat) : List Byte := l.map (BitVec.ofNat 8)

/-- SPDM_GET_MEASUREMENTS: the four blocks are answered under their index. -/
def State.measurements (s : State) : State :=
  let x := s.mod.slot s.mod.activeSlot
  { s with answers := s.answers ++
      [(1, Config.romDigest), (2, if x.digest.isEmpty then Config.factoryDigest else x.digest),
       (3, bytesOf (sha256 (nats (Config.planBytes s.plan)))), (4, toBytesLE 4 x.svn)] }

/-- SPDM_KEY_INSTALL: the tenant receives the handle. -/
def State.keyInstall (s : State) (p cls : Nat) (bits : BitVec 256) : State :=
  let n := s.mod.serial
  if 16 ≤ p ∨ 2 ≤ cls ∨ 2 ^ 32 ≤ n then s
  else
    let h := BitVec.ofNat 64 (p * 2 ^ 60 + cls * 2 ^ 58 + n)
    { (s.modMod (fun m => { m with keys := m.keys ++ [{ handle := h, bits := bits }], serial := n + 1 })) with
      answers := s.answers ++ [(p, toBytesLE 8 h.toNat)] }

/-! ### Bring-up (R452, R453) -/

/-- The slot that the boot ROM takes: the pending one, or the active one, else the other; none if neither passes. -/
def Module.bootSlot (m : Module) : Option Nat :=
  let first := if (m.slot 0).pending then 0 else if (m.slot 1).pending then 1 else m.activeSlot
  let ok (n : Nat) : Bool := (m.slot n).valid && decide (m.minSvn ≤ (m.slot n).svn)
  if ok first then some first else if ok (1 - first) then some (1 - first) else none

/-- What a restart keeps: flash, the fused SVN, the dump, the serial counter, and Basecamp's cap. -/
def Module.restart (m : Module) : Module :=
  { slots := m.slots, activeSlot := m.activeSlot, minSvn := m.minSvn, serial := m.serial, ckpt := m.ckpt, gen := (m.ckpt.map Ckpt.gen).getD 0
    dump := m.dump, cap := m.cap, areaLost := m.areaLost, booted := true, onlyPldm := true }

/-- A continuation of the newest generation is restored as ORPHANED. -/
def State.restore (s : State) (x : CkptCont) : State :=
  let q := x.cont
  let q := { q with posts := q.posts.map (fun ((i, _) : Nat × Nat) => (i, 0)), st := .orphaned, pst := if q.st == .parked then q.pst else if q.st == .orphaned then q.pst else q.st, resident := false }
  let s : State := { s with
    mem := x.pages.foldl (fun (m : Mem) ((lo, hi, p) : Nat × Nat × Mem) => m.graft lo hi p) s.mem
    conts := s.conts.put q.block q
    launches := x.launches.foldl (fun (t : Tab Launch) ((k, l) : Nat × Launch) => t.put k l) s.launches
    ests := x.ests.foldl (fun (t : Tab Estimate) ((k, e) : Nat × Estimate) => t.put k e) s.ests }
  let s := x.launches.foldl (fun (s : State) ((_, l) : Nat × Launch) => s.holdJob l.job q.block) s
  let s := ((s.syncBlock q.block).putNum (q.block + 0x10) x.post).putNum (q.block + 0x38) x.owner
  s.putNum (q.block + 0x40) q.atp.toNat

/-- POWER_ON. -/
def State.powerOn (s : State) : State :=
  let (g, s) := s.takeGen
  let m := s.mod.restart
  let z : State := { fresh := s.fresh, nextOp := s.nextOp, nextLaunch := s.nextLaunch, mod := m
                     mem := { open' := [(0, 2 ^ 64, g)] }, answers := s.answers, plan := s.plan }
  match m.bootSlot with
  | none => z
  | some n =>
    let was := m.slot n
    let m := if was.pending then m.activate n else { m with activeSlot := n }
    let m := { m with onlyPldm := false }
    let z := { z with mod := m }
    let z := (upto 0 16).foldl (fun (s : State) (p : Nat) => s.newMemKey p) z
    let z := (upto 0 96).foldl State.portTrain z
    let z := z.partitionPlanApply s.plan
    match m.ckpt with
    | some g => g.conts.foldl State.restore z
    | none => z

/-! ### Power (R454, R455) -/

/-- THROTTLE_WINDOW. -/
def State.throttleWindow (s : State) (watts : Nat) : State :=
  s.modMod (fun m =>
    if m.cap < watts then { m with below := 0, throttle := some (match m.throttle with | none => 6 | some t => max 1 (t - 1)) }
    else if watts < m.cap then
      if 10 ≤ m.below + 1 then { m with below := 0, throttle := match m.throttle with | none => none | some t => if 6 ≤ t then none else some (t + 1) }
      else { m with below := m.below + 1 }
    else m)

/-- THERMAL_TRIP: Basecamp removes power without a dump. -/
def State.thermalTrip (s : State) (d : Nat) : State :=
  if d < 4 then { (s.modMod (fun m => { m with powered := false, booted := false })) with agenda := [] } else s

/-! ### Walks (R262, R263) -/

/-- Put an entry into a TLB of `n` entries, the oldest leaving a full one. -/
def tlbPut (n : Nat) (e : TlbEnt) (l : List TlbEnt) : List TlbEnt :=
  let l := l.filter (fun (x : TlbEnt) => decide (¬ (x.va = e.va ∧ x.size = e.size ∧ x.asid = e.asid)))
  (if n ≤ l.length then l.drop 1 else l) ++ [e]

/-- The set of the die's TLB that a translation falls into: one of 2,048, by its page number (log 10). -/
def tlbSet (e : TlbEnt) : Nat := e.va / e.size % 2048

/-- Put a translation into the die's TLB of 16,384 entries in sets of eight; a full set drops its oldest (R262). -/
def tlbPutSet (e : TlbEnt) (l : List TlbEnt) : List TlbEnt :=
  let mine := l.filter (fun (x : TlbEnt) => decide (tlbSet x = tlbSet e))
  l.filter (fun (x : TlbEnt) => decide (tlbSet x ≠ tlbSet e)) ++ tlbPut 8 e mine

/-- PAGE_WALK: the translation that a core waits for settles, from the die's TLB or by a walk; a line that cannot be
read becomes poisoned. -/
def State.pageWalk (s : State) (c : Nat) : State :=
  match (s.core c).walk with
  | none => s
  | some (a, store) =>
    let d := dieOf c
    let atp := s.atpOf c
    let s := s.modCore c (fun w => { w with walk := none })
    let fill (s : State) (e : TlbEnt) : State := s.modCore c (fun w => { w with tlb := tlbPut 64 e w.tlb, settled := e :: w.settled })
    match findTlb (s.die d).tlb (atpAsid atp) a.toNat store with
    | some e => fill s e
    | none =>
      let r := s.walk (some d) atp a.toNat false store
      let s := (s.cacheWalk d atp a.toNat).modDie d (fun x => { x with walks := x.walks + 1 })
      match r with
      | .ok e => fill (s.modDie d (fun x => { x with tlb := tlbPutSet e x.tlb })) e
      | .fault cause line =>
        let s := s.modCore c (fun w => { w with walkFault := some (cause, a) })
        if cause = cPTE_UNCORRECTABLE then s.modDie d (fun x => { x with
          poison := if x.poison.contains line then x.poison else x.poison ++ [line]
          wlines := x.wlines.filter (fun (y : Nat × Nat) => decide (y.1 ≠ line)) }) else s

/-! ### Ownership (R260, R261) -/

def State.modRegion (s : State) (r : Nat) (f : Region2M → Region2M) : State := { s with regions := s.regions.put r (f (s.regions.getD r {})) }
/-- Whether a region has been held for the 2,400 cycles of the hold time. -/
def State.heldLong (s : State) (x : Region2M) : Bool := match x.since with | some c => decide (c + 2400 ≤ s.cyc) | none => true
/-- The state that a transfer of a region would go to now. -/
def State.transferTo (s : State) (r : Nat) : Option Owner :=
  let x := s.regions.getD r {}
  if !s.heldLong x then none
  else match x.st with
    | .proc => if x.wantA then some .toAccel else none
    | .accel => if x.wantP then some .toProc else none
    | _ => none
/-- OWNERSHIP_TRANSFER_START. -/
def State.ownershipStart (s : State) (r : Nat) : State :=
  match s.transferTo r with
  | some o => (if o = .toAccel then s.loseResv (fun l => decide (l / 2 ^ 14 = r)) else s).modRegion r (fun x => { x with st := o, began := s.cyc })
  | none => s
/-- OWNERSHIP_WRITEBACK_COMPLETE: for TO_PROC the die caches write back and invalidate the region's lines (R260, R325, R333),
and the host stores that wait perform. -/
def State.ownershipDone (s : State) (r : Nat) : State :=
  match (s.regions.getD r {}).st with
  | .toAccel => s.modRegion r (fun x => { x with st := .accel, since := some s.cyc, wantA := false })
  | .toProc =>
    let s := [0, 1, 2, 3].foldl (fun (s : State) (d : Nat) =>
      (s.flushB d true (fun l => decide (l / 2 ^ 14 = r))).modDie d (fun x => { x with lines := x.lines.filter (fun l => decide (l / 2 ^ 14 ≠ r)) })) s
    let s := s.modRegion r (fun x => { x with st := .proc, since := some s.cyc, wantP := false })
    s.hostGo s.hostq []
  | _ => s
/-- Whether a core's bundle has waited for a region too long. -/
def State.ownershipLate (s : State) (c : Nat) : Bool :=
  match (s.core c).waitFrom with
  | some (t, a) => decide (t + ownLimit < s.cyc) && (s.core c).walkFault.isNone
      && (match s.coreTlb c a.toNat false with | some e => !s.owned (e.phys a.toNat) | none => false)
  | none => false
/-- OWNERSHIP_TIMEOUT: the bundle traps when it is considered next. -/
def State.ownershipTimeout (s : State) (c : Nat) : State :=
  if s.ownershipLate c then
    s.modCore c (fun w => { w with walkFault := w.waitFrom.map (fun (_, a) => (cOWNERSHIP_TIMEOUT, a)) })
  else s

/-- GATED_UNIT_WAKE: the unit is awake, and reads zero. -/
def State.gatedWake (s : State) (c : Nat) : State :=
  match (s.core c).wake with
  | some (unit, _) =>
    let allocs := (s.usr c).allocs
    let s := s.modCore c (fun w => { w with wake := none, gated := w.gated &&& ~~~(BitVec.ofNat 192 (2 ^ unit)) })
    s.modSpad c (fun (m : Mem) => (wordsOf (unit % 6 * 256 * 512) (256 * 512)).foldl (fun (m : Mem) (w : Nat) =>
      if bankOf allocs w = unit / 6 then m.zero w (w + 16) else m) m)
  | none => s

end Sys2Proof.Machine
end

