-- ==== Sys2Proof/Machine/Issue.lean ====
section
/-! DEFINITION. A bundle as a core considers it for issue: the checks of R50, the waits, and what it does when it issues
(R24, R25, R39 to R51, R145, R343, R429). -/
namespace Sys2Proof.Machine

/-! ### The moves of a bundle -/

/-- The moves that execute: not empty, their guard true (R44). -/
def Bundle.running (b : Bundle) (x : Ctx) : List Mv := b.moves.filter (fun (m : Mv) => !m.empty && x.pred m.guard)

/-- The slots that arrive on retire: their ARV bit is set and their move executes, or is the empty move (R46). -/
def Bundle.arriving (b : Bundle) (x : Ctx) : List Nat :=
  (b.moves.filter (fun (m : Mv) => b.arv m.k && x.pred m.guard)).map Mv.k

/-- The register whose full bit a move's source observes. -/
def Mv.watches (m : Mv) : Option Nat := m.src.watched

/-- Whether a move reads an empty register. -/
def Mv.starved (m : Mv) (x : Ctx) : Bool := match m.watches with | some n => !x.full n | none => false

/-- The port writes of a bundle (R24 step 1), and the operands that its triggers latch (step 2). -/
def State.portsOf (s : State) (c : Nat) (x : Ctx) (b : Bundle) : Ctx :=
  let ms := Bundle.running b x
  let y := ms.foldl (fun (y : Ctx) (m : Mv) =>
    match m.dst with
    | .port u p =>
      if m.shadow then (if u + 1 = m.k then y.writePort m.k p (s.srcVal c x b m) else y) else y.writePort u p (s.srcVal c x b m)
    | _ => y) x
  ms.foldl (fun (y : Ctx) (m : Mv) => match m.dst with | .trig _ => y.writePort m.k 0 (s.srcVal c x b m) | _ => y) y

/-- The triggers of a bundle, in slot order. -/
def State.trigsOf (s : State) (c : Nat) (lan : Bool) (x : Ctx) (b : Bundle) (late : Bool) : List Trig :=
  let y := s.portsOf c x b
  (Bundle.running b x).filterMap (fun (m : Mv) => match m.dst with
    | .trig o => some { c := c, lan := lan, slot := m.k, op := o, u := y.unit m.k, x0 := x, pc := x.pc, lim := s.nextOp, shadowed := m.shadow, late := late }
    | _ => none)

/-! ### Steps 1 and 2 of R50 -/

/-- ILLEGAL_BUNDLE (R27, R32, R45, R46, R50). -/
def bundleBad (b : Bundle) : Bool :=
  let n (d : Dst) : Nat := (b.moves.filter (fun (m : Mv) => !m.shadow && !m.empty && decide (m.dst = d))).length
  decide (hdrFld b 29 35 ≠ 0) || b.limm 0 || (upto 0 8).any (fun k => b.badLimm k)
    || (b.shs && (decide (b.word 1 ≠ b.word 0) || b.limm 1))
    || (b.shv && (decide (b.word 4 ≠ b.word 3) || b.limm 3 || b.limm 4))
    || (upto 0 8).any (fun k => b.arv k && (b.limm k || b.shadow k))
    || decide (1 < n .busdrive) || decide (1 < n .busland)

/-- The static checks of one move (R50 step 2): the cause, if one fails. -/
def Mv.static (m : Mv) (lan : Bool) : Option Nat :=
  let op : Option Op := if m.empty then none else match m.dst with | .trig o => some o | _ => none
  if (match op with | some o => !o.legalIn m.k | none => false) then some cILLEGAL_SLOT
  else if m.illegalPort then some cILLEGAL_PORT
  else match op with
    | some o => if o.privileged && !lan then some cPRIVILEGED else if o == .ill then some cILLEGAL_OPCODE else none
    | none => none

/-- The first failing check of the lowest slot: cause and slot. -/
def staticTrap (b : Bundle) (lan : Bool) : Option (Nat × Nat) :=
  b.moves.findSome? (fun (m : Mv) => (m.static lan).map (fun k => (k, m.k)))

/-! ### Step 3 and the stall of R40 -/

/-- The delivery registers that a trigger marks (R40). -/
def Trig.marks (t : Trig) : List Nat :=
  let one (b : Bool) : List Nat := if b then [t.d] else []
  match t.slot with
  | 2 => one (lsDelivers t.op)
  | 6 => one (cpDelivers t.op && !(t.op == .psig && t.b.getLsbD 1))
  | 7 => match t.op with
    | .lpost | .lrun | .lsplit | .tgrp | .sys | .twait | .rdv | .ropen | .rjoin | .rvote | .rabort | .rleave | .rstat
    | .epush | .estat | .estop | .launch | .sched => [t.d]
    | .cancel => one (decide (t.a ≠ 1))
    | .epop => [t.d, t.d + 1]
    | .snap | .snapr | .segrew | .inj | .fcsr | .tlbi | .faultq | .park | .unpark | .fwshare | .slotw | .keyop | .idle => [t.d]
    | _ => []
  | _ => []

/-- Whether port `p` of unit `u` receives its value from a move that still waits for its source. -/
def Bundle.stalledPort (b : Bundle) (x : Ctx) (u p : Nat) : Bool :=
  match ((Bundle.running b x).filter (fun (m : Mv) => match m.dst with
      | .port v q => decide (q = p) && (if m.shadow then decide (v + 1 = m.k ∧ u = m.k) else decide (v = u))
      | _ => false)).getLast? with
  | some m => m.starved x
  | none => false

/-- TOKEN_BUSY: the first trigger whose delivery register is pending. In a stalled cycle the values that the ports then hold say
whether CANCEL or PSIG names one; a designator that itself is still to come is not judged (log 101). -/
def busyTrap (b : Bundle) (x : Ctx) (ts : List Trig) : Option Nat :=
  (ts.find? (fun (t : Trig) => !Bundle.stalledPort b x t.slot 3 && t.marks.any (fun n => x.pending n))).map Trig.slot

/-- The registers that a trigger reads as E = 0 sources through what its ports name (R232, R277, R350, R353, R357, R406). -/
def Trig.sources (t : Trig) : List Nat :=
  match t.slot with
  | 2 => lsSources t
  | 5 => mxSources t
  | 6 => if t.op == .wquiet then [t.d] else []
  | _ => []

/-- The registers that the bundle reads as E = 0 sources beside its moves' sources: b[ARB] (R46), and those that triggers
name. -/
def otherSources (b : Bundle) (ts : List Trig) : List Nat :=
  (if b.arvAny then [0x60 + b.arb] else []) ++ ts.flatMap Trig.sources

/-- The lowest slot of a segment's bundle that reads the token of a transfer which the segment holds, as a source or
through what a trigger names (R291). -/
def State.heldToken (s : State) (c : Nat) (lan : Bool) (b : Bundle) (x : Ctx) (ts : List Trig) : Option Nat :=
  if lan || !(s.usr c).inSeg then none
  else
    let token (n : Nat) : Bool := (s.usr c).xfers.any (fun (q : Xfer) => q.held && decide (q.reg = n))
    (upto 0 8).find? (fun (k : Nat) =>
      (Bundle.running b x).any (fun (m : Mv) => decide (m.k = k) && m.starved x && (match m.watches with | some n => token n | none => false))
        || ts.any (fun (t : Trig) => decide (t.slot = k) && t.sources.any (fun n => !x.full n && token n)))

/-- Whether the bundle stalls on an empty source. -/
def stalls (b : Bundle) (x : Ctx) (ts : List Trig) : Bool :=
  (Bundle.running b x).any (fun (m : Mv) => m.starved x) || (otherSources b ts).any (fun n => !x.full n)

/-! ### Step 4: trigger-time checks -/

/-- The barrier of a bundle's arrivals as the operand of a BARV (R343). -/
def arvTrig (c : Nat) (lan : Bool) (x : Ctx) (lim slot : Nat) (h : Word) : Trig :=
  { c := c, lan := lan, slot := slot, op := .barv, x0 := x, pc := x.pc, lim := lim
    u := { a := .sc (BitVec.ofNat 64 (fld h.toNat 0 56)), b := .sc 1, c := BitVec.ofNat 64 (fld h.toNat 62 2) } }

/-- The check of b[ARB] (R343). -/
def State.arvCheck (s : State) (t : Trig) (h : Word) : Chk :=
  (trapIf (decide (fld h.toNat 62 2 = 3 ∨ fld h.toNat 56 6 ≠ 0)) cATOMIC_SPACE).or (s.lsCheck t)

/-- The trigger-time checks of one trigger. -/
def State.trigCheck (s : State) (t : Trig) : Chk :=
  match t.slot with
  | 0 | 1 => scalarCheck t
  | 2 => s.lsCheck t
  | 3 | 4 => vectorCheck t
  | 5 => s.mxCheck t
  | 6 => match t.op with
    | .bussel => busselCheck t
    | .msg | .rwr | .ramo | .rred | .wquiet | .jobr => s.linkCheck t
    | .pstart | .psig | .pstat => s.portCheck t
    | _ => s.copyCheck t
  | _ => match t.op with
    | .ropen | .rjoin | .rvote | .rabort | .rleave | .rstat => s.regCheck t
    | .epop | .epush | .estat | .estop => s.estCheck t
    | o => if o.privileged then lanternCheck t else s.ctlCheck t

/-- A gated unit of the core's own scratchpad that an access touches; an array operation, and a SYS, wait for every one
(R269, log 90). -/
def State.gatedUnit (s : State) (t : Trig) : Option Nat :=
  let w := s.core t.c
  if w.gated = 0 then none
  else if (t.slot == 5 && t.op.usesArray) || t.op == .sys then (upto 0 192).find? (fun k => w.gated.getLsbD k)
  else if t.slot ≠ 2 then none
  else
    let plan := s.planOf t
    let mine : List (Nat × Nat) :=
      if t.op = .bnd then [(t.a.toNat, 16)]
      else if t.op.isLoad || t.op.isStore || t.op.isSync then
        (plan.2.filter (fun (p : Piece) => decide (p.place.getD plan.1 = .spad t.c))).map (fun (p : Piece) => (p.pa, p.len))
      else []
    (mine.flatMap (fun ((o, n) : Nat × Nat) => (wordsOf o n).map (fun o => bankOf w.usr.allocs o * 6 + o / (256 * 512)))).find? (fun k => w.gated.getLsbD k)

/-- Whether an address of core `c`'s task lies in a K page. -/
def State.inKPage (s : State) (c va : Nat) (store : Bool) : Bool :=
  match s.coreTlb c va store with
  | some e => e.attr == .K
  | none => match s.walk none (s.atpOf c) va false store with
    | .ok e => e.attr == .K
    | .fault _ _ => false

/-- Whether the access of a MISALIGNED trap is one that firmware can complete (R270). -/
def State.canEmulate (s : State) (t : Trig) : Bool :=
  !t.lan && (t.op.isLoad || t.op.isStore) && !ctlReg t.u.c
    && !(t.global && t.spans.any (fun ((_, v, n) : Nat × Nat × Nat) => s.inKPage t.c v t.writes || s.inKPage t.c (v + n - 1) t.writes))

/-- Why a bundle waits: an empty source, the answer to what an access asked for, a gated unit, a rendezvous with the
cycles of its limit, or the condition of one of its triggers. -/
inductive Await where
  | stall
  | ask (t : Trig)
  | gate (unit : Nat)
  | rdv (limit : Nat)
  | cond
  deriving Repr

/-- What the consideration of a bundle comes to: a trap, a wait, or issue, then whether its rendezvous ran into its
limit. -/
inductive Verdict where
  | trap (r : TrapRec)
  | wait (w : Await)
  | go (late : Bool)
  deriving Repr

/-- The checks of step 4 over moves in slot order. `w` is the first wait so far, `d` the slot of a drive in a phase
that the core does not hold (R302: judged in the cycle of issue, after every wait). -/
def State.checkSlots (s : State) (c : Nat) (x : Ctx) (b : Bundle) (ts : List Trig) : List Mv → Option Await → Option Nat → Verdict ⊕ (Option Await × Option Nat)
  | [], w, d => .inr (w, d)
  | m :: l, w, d =>
    let trap (cause : Nat) (a : Word) (emul : Bool) : Verdict ⊕ (Option Await × Option Nat) :=
      .inl (.trap (match d with
        | some k => { cause := cBUS_SLOT_CONFLICT, slot := k, pc := x.pc }
        | none => { cause := cause, slot := m.k, pc := x.pc, addr := a, emul := emul }))
    match m.dst with
    | .trig _ =>
      match ts.find? (fun (t : Trig) => decide (t.slot = m.k)) with
      | none => s.checkSlots c x b ts l w d
      | some t =>
        match s.trigCheck t with
        | .trap cause a => trap cause a (cause == cMISALIGNED && t.slot == 2 && s.canEmulate t)
        | .wait => if t.slot = 2 then .inr (some (w.getD (.ask t)), d) else s.checkSlots c x b ts l (some (w.getD .cond)) d
        | .ok => match s.gatedUnit t with
          | some k => s.checkSlots c x b ts l (some (w.getD (.gate k))) d
          | none => s.checkSlots c x b ts l w d
    | .busdrive =>
      if m.shadow then s.checkSlots c x b ts l w d
      else match s.driveCheck c with
        | .ok => s.checkSlots c x b ts l w d
        | _ => s.checkSlots c x b ts l w (some m.k)
    | .busland =>
      if m.shadow then s.checkSlots c x b ts l w d
      else match landCheck (s.srcVal c x b m).word with
        | .trap cause a => trap cause a false
        | _ => s.checkSlots c x b ts l w d
    | _ => s.checkSlots c x b ts l w d

/-! ### Rendezvous (R47, R145) -/

/-- The limit of a bundle that is a rendezvous point: that of its RDV trigger, else 2^24. -/
def rdvLimit (b : Bundle) (ts : List Trig) : Option Nat :=
  match ts.find? (fun (t : Trig) => t.op == .rdv) with
  | some t => some (if t.a = 0 then 2 ^ 24 else t.a.toNat)
  | none => if b.rdv then some (2 ^ 24) else none

/-- The rendezvous of a bundle that is ready: none if it may issue, and then whether its limit has passed. -/
def State.meeting (s : State) (c : Nat) (lan : Bool) (b : Bundle) (x : Ctx) (ts : List Trig) : Verdict :=
  match rdvLimit b ts, s.task? c with
  | some n, some k =>
    if lan || k.st.over' then .go false
    else match k.rdvGo with
      | some (at', late) =>
        if at' ≠ s.cyc then .wait (.rdv n)
        else if late && !ts.any (fun (t : Trig) => t.op == .rdv) then .trap { cause := cRENDEZVOUS_TIMEOUT, pc := x.pc }
        else .go late
      | none => .wait (.rdv n)
  | _, _ => .go false

/-! ### The verdict on a bundle -/

/-- What the consideration of a bundle comes to in a cycle, in the order of R50. -/
def State.judge (s : State) (c : Nat) (lan : Bool) (b : Bundle) : Verdict :=
  let x := s.ctx c lan
  let ts := s.trigsOf c lan x b false
  let trap (cause slot : Nat) (a : Word) : Verdict := .trap { cause := cause, slot := slot, pc := x.pc, addr := a }
  if bundleBad b then trap cILLEGAL_BUNDLE 0 0
  else match staticTrap b lan with
    | some (cause, k) => trap cause k 0
    | none =>
      match (Bundle.running b x).find? (fun (m : Mv) => m.e && m.starved x) with
      | some m => trap cEMPTY_SOURCE m.k 0
      | none =>
        match busyTrap b x ts, s.heldToken c lan b x ts with
        | some k, _ => trap cTOKEN_BUSY k 0
        | none, some k => trap cCOPY_DESCRIPTOR k 0
        | none, none =>
          if stalls b x ts then .wait .stall
          else
            let h := (x.sreg (0x60 + b.arb)).v
            let slot := match Bundle.arriving b x with
              | k :: _ => k
              | [] => ((upto 0 8).find? (fun k => b.arv k)).getD 0
            let at' := arvTrig c lan x s.nextOp slot h
            match (if b.arvAny then s.arvCheck at' h else .ok) with
            | .trap cause a => trap cause slot a
            | .wait => .wait (.ask at')
            | .ok =>
              match s.checkSlots c x b ts (Bundle.running b x) none none with
              | .inl v => v
              | .inr (some w, _) => .wait w
              | .inr (none, d) =>
                match s.meeting c lan b x ts, d with
                | .go _, some k => trap cBUS_SLOT_CONFLICT k 0
                | v, _ => v

/-- The first cycle of a task's consideration of a rendezvous is kept (R145). -/
def State.rdvMark (s : State) (c : Nat) (lan : Bool) (b : Bundle) : State :=
  let x := s.ctx c lan
  match lan, rdvLimit b (s.trigsOf c lan x b false) with
  | false, some _ => s.modTask c (fun k => { k with rdvFrom := some (k.rdvFrom.getD s.cyc) })
  | _, _ => s

/-- What a waiting bundle leaves behind. -/
def State.await (s : State) (c : Nat) : Await → State
  | .stall | .cond => s
  | .ask t => s.lsAsk t
  | .gate k => s.modCore c (fun w => { w with wake := some (w.wake.getD (k, s.cyc)) })
  | .rdv n => s.modTask c (fun k => { k with rdvAt := some (s.cyc, k.rdvFrom.getD s.cyc + n), rdvGo := none })

/-! ### Issue -/

/-- A trigger takes effect: when its work retires, whether a check found a mismatch, where issue goes on. -/
def State.trigRun (s : State) (t : Trig) : ArvWhen × Bool × Flow × State :=
  let plain (r : ArvWhen × State) : ArvWhen × Bool × Flow × State := (r.1, false, .next, r.2)
  let checked (r : ArvWhen × Bool × State) : ArvWhen × Bool × Flow × State := (r.1, r.2.1, .next, r.2.2)
  match t.slot with
  | 0 | 1 => checked (s.scalarRun t)
  | 2 =>
    let (w, s) := s.lsRun t
    plain (w, s.modCtx t.c t.lan (fun x => x.setUnit 2 { x.unit 2 with c := 0 }))
  | 3 | 4 => checked (s.vectorRun t)
  | 5 => checked (s.mxRun t)
  | 6 => match t.op with
    | .bussel => plain (s.askAgent t t.a.toNat 0)
    | .msg | .rwr | .ramo | .rred | .wquiet | .jobr => plain (s.linkRun t)
    | .pstart | .psig | .pstat => plain (s.portRun t)
    | _ => plain (s.copyRun t)
  | _ => match t.op with
    | .ropen | .rjoin | .rvote | .rabort | .rleave | .rstat => plain (s.regRun t)
    | .epop | .epush | .estat | .estop => plain (s.estRun t)
    | o =>
      if o.privileged then plain (s.lanternRun t)
      else let (w, f, s) := s.ctlRun t; (w, false, f, s)

/-- Whether an operation is a check (R440). -/
def Op.isCheck (o : Op) : Bool := o == .chkeq || o == .chkp || o == .vchk || o == .mchk

/-- The injections that a trigger of the user context meets: at its slot's unit, the array, the scratchpad (R440). -/
def State.injections (s : State) (t : Trig) : Bool × State :=
  if t.lan then (false, s)
  else
    let (a, s) := s.inject t.c t.slot t.op.isCheck t.slot t.pc
    let (b, s) := if t.slot = 5 ∧ t.op.usesArray then s.inject t.c 8 t.op.isCheck t.slot t.pc else (false, s)
    let local' := decide (t.slot = 2 ∧ ctlSpace t.u.c = 1) && (t.op.isLoad || t.op.isStore || t.op.isSync) && t.op ≠ .ldr
    let (_, s) := if local' then s.inject t.c 9 false t.slot t.pc else (false, s)
    (a || b, s)

/-- A check reports a mismatch: at the end of the trigger cycle, or for MCHK with the array operation (R195, R224, R246). In
the lantern context the trap that it then raises is FATAL (R434). -/
def State.mismatch (s : State) (t : Trig) : State :=
  if t.op == .mchk then
    let p := s.pair (pairOf t.c)
    s.setPair (pairOf t.c) { p with run := p.run.map (fun r => { r with bad := some (t.slot, t.pc), lan := t.lan }) }
  else if t.lan then s.fatal t.c cSDC_MISMATCH
  else s.failure t.c t.slot t.pc cSDC_MISMATCH

/-- A load or store of the user context at an address that a debugger watches traps WATCHPOINT after its bundle, where the
partition's debug enable is set (R173). -/
def State.watched (s : State) (t : Trig) : State :=
  let w := (s.core t.c).watch
  if w.isEmpty || t.lan || t.slot ≠ 2 || !(t.op.isLoad || t.op.isStore) || !(s.part (s.partOf t.c)).dbg then s
  else
    let hit (n : Nat) : Bool := w.any (fun (sp, lo, hi) => decide (sp = ctlSpace t.u.c ∧ lo ≤ n ∧ n ≤ hi))
    match (t.spans.flatMap (fun (_, a, n) => upto a n)).find? hit with
    | some n => s.trapAfter t.c { cause := cWATCHPOINT, slot := t.slot, pc := t.pc, after := true, addr := BitVec.ofNat 64 n }
    | none => s

/-- The triggers of a bundle take effect in slot order: what each slot's retirement waits for, and the flow. -/
def State.runTrigs (s : State) : List Trig → List (Nat × ArvWhen) × Flow × State
  | [] => ([], .next, s)
  | t :: l =>
    let (w, bad, f, s) := s.trigRun t
    let (forced, s) := s.injections t
    let s := (if bad || forced then s.mismatch t else s).watched t
    let s := if !t.lan && t.op == .mchk && (s.usr t.c).inSeg then
        s.modUsr t.c (fun u => { u with seg := { u.seg with checks := u.seg.checks ++ [s.cyc + 1] } }) else s
    let (ws, g, s) := s.runTrigs l
    ((t.slot, w) :: ws, (match g with | .next => f | _ => g), s)

/-- A register write of a bundle: register and value, in slot order (R24 step 3, R183). -/
def State.regWrites (s : State) (c : Nat) (x : Ctx) (b : Bundle) (ts : List Trig) : List (Nat × Val) :=
  let marked := ts.flatMap Trig.marks
  (Bundle.running b x).filterMap (fun (m : Mv) => match m.dst with
    | .reg n => if m.shadow || marked.contains n then none else some (n, s.srcVal c x b m)
    | .trig .wrspec => (ts.find? (fun (t : Trig) => decide (t.slot = m.k))).map (fun (t : Trig) => (t.a.toNat % 256, .sc t.b))
    | _ => none)

/-- The drive and the landing of a bundle, whose values `s0` gives (R302). -/
def State.busMoves (s0 s : State) (c : Nat) (x : Ctx) (b : Bundle) : State :=
  (Bundle.running b x).foldl (fun (s : State) (m : Mv) =>
    if m.shadow then s
    else match m.dst with
      | .busdrive => s.drive c (s0.srcVal c x b m).vreg
      | .busland => s.landing c (s0.srcVal c x b m).word
      | _ => s) s

/-- The arrivals that a bundle owes (R343). -/
def State.owe (s0 s : State) (c : Nat) (lan : Bool) (x : Ctx) (b : Bundle) (ws : List (Nat × ArvWhen)) : State :=
  let slots := Bundle.arriving b x
  if slots.isEmpty then s
  else
    let h := (x.sreg (0x60 + b.arb)).v
    let t := arvTrig c lan x s0.nextOp 0 h
    let (place, ps) := s0.planOf t
    let pa := match ps with | p :: _ => p.pa | [] => 0
    let seg := !lan && (s.usr c).inSeg
    s.modCtx c lan (fun y => { y with arvs := y.arvs ++ slots.map (fun k =>
      { place := place, pa := pa, va := t.a, slot := k, pc := x.pc, seg := seg
        at' := ((ws.find? (fun ((j, _) : Nat × ArvWhen) => decide (j = k))).map Prod.snd).getD (.cycle s.cyc) }) })

/-- The next bundle after one that transfers no control: the loop stack first (R140). -/
def loopNext (pc : Word) : Nat → List LoopEnt → Option Word × List LoopEnt
  | 0, l => (none, l)
  | _ + 1, [] => (none, [])
  | n + 1, e :: l =>
    if e.stop ≠ pc then (none, e :: l)
    else if 1 < e.count.toNat then (some e.start, { e with count := e.count - 1 } :: l)
    else loopNext pc n l

/-- Where issue goes on after the bundle at `pc` without a control transfer (R130, R140). -/
def State.fallThrough (s : State) (c : Nat) (lan : Bool) (pc : Word) : Word × State :=
  let (to', loops) := loopNext pc 5 (s.ctx c lan).loops
  let s := s.modCtx c lan (fun x => { x with loops := loops })
  match to' with
  | some a => (a, s)
  | none =>
    if lan then (pc + 32, s)
    else match s.atBoundary c pc with
      | some f => let (to', s) := s.boundary c f; (to'.getD (pc + 32), s)
      | none => (pc + 32, s)

/-- Issue goes on as the control unit says. -/
def State.follow (s : State) (c : Nat) (lan : Bool) (pc : Word) (f : Flow) : State :=
  let go (a : Word) (s : State) : State := s.modCtx c lan (fun x => { x with pc := a })
  match f with
  | .jump a => go a s
  | .next => let (a, s) := s.fallThrough c lan pc; go a s
  | .twait own reg id limit =>
    let (a, s) := s.fallThrough c lan pc
    go a (s.modTask c (fun t => { t with drains := .twait own reg id limit a false :: t.drains }))
  | .tend =>
    let (a, s) := s.fallThrough c lan pc
    let over' := match s.task? c with | some t => t.st.over' | none => true
    go a (if over' then s else (s.tendMember c).modTask c (fun t => { t with drains := .tend :: t.drains }))

/-- A debugger's step is over after one user cycle: the task traps DEBUG_STEP, NP or not (R47, R173), once the checks of its
segment have reported (R429). -/
def State.stepEnd (s : State) (c : Nat) : State :=
  if (s.core c).debugStep then
    let r : TrapRec := { cause := cDEBUG_STEP, pc := (s.usr c).ctx.pc, after := true }
    let s := s.modCore c (fun w => { w with debugStep := false })
    if s.trapWaits c cDEBUG_STEP then s.trapAfter c r else s.takeTrap c r
  else s

/-- The end of a user cycle of a context (R39, R43), with the trap its landings raise, and a debugger's step. -/
def State.userCycle (s : State) (c : Nat) (lan : Bool) : State :=
  let (x, t) := (s.ctx c lan).userCycle
  let s := (s.modCtx c lan (fun _ => x)).modCore c (fun w => { w with spent := s.cyc + 1 })
  let s := match t with | some r => s.trapOn c lan r | none => s
  if lan then s else s.stepEnd c

/-- The marks of a header on the control of its context: IDLE cycles and the count of NP boundaries. -/
def Ctx.headed (x : Ctx) (b : Bundle) : Ctx := { x with idle := x.idle + b.idle, np := if b.np then x.np + 1 else 0 }

/-- Whether a trigger makes its bundle a committing one (R428). -/
def Trig.commits (t : Trig) : Bool :=
  match t.slot with
  | 2 => !(t.op.isLoad || t.op.isStore || t.op == .tlook || t.op == .ctrwait || t.op == .ctrrd || t.op == .barw)
  | 5 => t.op == .mstc || t.op == .mcvt || t.op == .tidw || t.op == .cbld
  | 6 => !(t.op == .cpset || t.op == .cpgo || t.op == .cpstat)
  | 7 => match t.op with
    | .lpost | .lrun | .lsplit | .twait | .tend | .sys | .cancel | .launch | .ropen | .rjoin | .rvote | .rabort | .rleave
    | .epop | .epush | .estop => true
    | _ => false
  | _ => false

/-- Whether a bundle is a committing bundle (R428). -/
def State.committing (s : State) (c : Nat) (b : Bundle) : Bool :=
  let x := s.ctx c false
  (s.trigsOf c false x b false).any Trig.commits
    || (Bundle.running b x).any (fun (m : Mv) => !m.shadow && (m.dst == .busdrive || m.dst == .busland))

/-- The segment that a bundle opens or is counted in (R427, R429, R431); a committing bundle opens none, since no segment holds
what it does (R375, R428, log 31). -/
def State.segIssue (s : State) (c : Nat) (lan : Bool) (b : Bundle) : State :=
  if lan then s
  else
    let s := if b.seg && !(s.usr c).inSeg && !s.committing c b then s.segOpen c (s.ctx c lan) s.nextOp else s
    if (s.usr c).inSeg then s.modUsr c (fun u => { u with seg := { u.seg with count := u.seg.count + 1 } }) else s

/-- A bundle issues (R24): ports, triggers, registers, buses; then the user cycle ends. -/
def State.commit (s : State) (c : Nat) (lan late : Bool) (b : Bundle) : State :=
  let x := s.ctx c lan
  let s0 := s
  let ts := s.trigsOf c lan x b late
  let writes := s.regWrites c x b ts
  let ports := s.portsOf c x b
  let s := ((s.unwait c lan).segIssue c lan b).modCtx c lan (fun y => { y with u := ports.u })
  let (ws, flow, s) := s.runTrigs ts
  let s := State.busMoves s0 s c x b
  let s := s.modCtx c lan (fun y => writes.foldl (fun (y : Ctx) ((n, v) : Nat × Val) => y.writeReg n v) y)
  let s := State.owe s0 s c lan x b ws
  let s := s.modCtx c lan (fun y => y.headed b)
  (s.follow c lan x.pc flow).userCycle c lan

end Sys2Proof.Machine
end

