-- ==== Sys2Proof/Machine/TurnOps.lean ====
section
/-! DEFINITION. What a core does in a package cycle: the boundary before a bundle (R51, R126, R132, R167, R372, R429),
fetching it, its consideration, IDLE cycles, the landing of deliveries (R40), arrivals on retire (R343), and the end of the
array's work. -/
namespace Sys2Proof.Machine

/-! ### The segment's gate (R428, R429) -/

/-- How a bundle stands to the open segment of its core (R429): it may pass, the segment commits before it, or the
commit still waits for a check. -/
inductive Gate where
  | pass
  | commit
  | wait
  deriving DecidableEq, Repr

def State.gate (s : State) (c : Nat) (b : Bundle) : Gate :=
  let g := (s.usr c).seg
  if !(s.usr c).inSeg || decide (g.count = 0) then .pass
  else
    let maxseg := ((s.launchOf? c).map Launch.maxseg).getD (g.count + 1)
    if b.seg || decide (maxseg ≤ g.count) || s.committing c b then (if s.checksDone c then .commit else .wait) else .pass

/-! ### Consideration -/

/-- A bundle is considered for issue (R50): it traps, waits, or issues. -/
def State.consider (s : State) (c : Nat) (lan : Bool) (b : Bundle) : State :=
  let s := s.rdvMark c lan b
  match s.judge c lan b with
  | .trap r =>
    if lan then s.fatal c r.cause
    else if s.trapWaits c r.cause then s
    else ((s.unwait c false).modUsr c (fun u => { u with waive := false })).takeTrap c r
  | .wait w => s.await c w
  | .go late =>
    let s := s.commit c lan late b
    if lan then s else s.modUsr c (fun u => { u with waive := false })

/-- A bundle on one side of a core, after the commit that R429 puts before it. -/
def State.issueOn (s : State) (c : Nat) (lan : Bool) (b : Bundle) : State :=
  if lan then s.consider c true b
  else match s.gate c b with
    | .wait => s
    | .commit => (s.segCommit c).consider c false b
    | .pass => s.consider c false b

/-- BUNDLE_ISSUE: the agent considers a bundle. -/
def State.issueBundle (s : State) (b : Bundle) : Out :=
  match s.actor with
  | .core c => .next (s.issueOn c false b)
  | .lantern c => .next (s.issueOn c true b)
  | _ => .next s

/-- A move that stands alone: the bundle that holds it in its own slot (R48, R53) and nothing else. -/
def State.issueMove (s : State) (w : Nat) : Out :=
  let m := BitVec.ofNat 24 w
  s.issueBundle (Bundle.one (homeSlot m) m)

/-! ### Fetching -/

/-- What a fetch comes to. -/
inductive Fetched where
  | bundle (b : Bundle)
  | trap (cause : Nat) (addr : Word)
  | wait
  deriving DecidableEq, Repr

/-- The bundle at a context's pc: the user context fetches through its task's translation, as a load reads (R262), the
lantern context from physical memory. The bytes are those of memory as it stands: the instruction cache shows in no value
(R147; log 101). -/
def State.fetch (s : State) (c : Nat) (lan : Bool) : Fetched :=
  let pc := (s.ctx c lan).pc
  if lan then .bundle (Bundle.ofNat (s.mem.num pc.toNat 32))
  else if pc.toNat / 2 ^ 56 ≠ 0 then .trap cADDRESS_RANGE pc
  else match s.settle c pc.toNat false with
    | .trap cause a => .trap cause a
    | .wait => .wait
    | .ok =>
      match s.coreTlb c pc.toNat false with
      | some e => .bundle (Bundle.ofNat (ofBytesLE ((upto 0 32).map (fun i => s.rdPlace c (.glob e.attr) (e.phys pc.toNat + i)))))
      | none => .wait

/-- Where the bundle at an address of a context lies, if its translation stands in the core. -/
def State.codeAt (s : State) (c : Nat) (lan : Bool) (pc : Word) : Option Nat :=
  if lan then some pc.toNat else (s.coreTlb c pc.toNat false).map (fun (e : TlbEnt) => e.phys pc.toNat)

/-- SEGMENT_COMMIT: the commit that R429 puts before the bundle which is next. -/
def State.commitNext (s : State) (c : Nat) : State :=
  match s.fetch c false with
  | .bundle b => if s.gate c b = .commit then s.segCommit c else s
  | _ => s

/-! ### The boundary -/

/-- Whether the user context of a core passes a boundary in the present cycle: its task runs or drains, and the cycle is not
frozen (R42), nor spent by its lantern context (R16). -/
def State.mayPass (s : State) (c : Nat) : Bool :=
  match s.task? c, s.launchOf? c with
  | some t, some l =>
    let u := s.usr c
    (t.st == .running || (t.st.over' && (l.team l.cur == .running || l.team l.cur == .stopping)))
      && !s.shareCycle c && !s.throttleCycle && decide ((s.core c).spent ≠ s.cyc + 1) && (s.core c).wake.isNone && u.seg.st != .rewinding && u.resume.isNone
      && (match (s.core c).stop with | some p => !p.reached | none => true)
  | _, _ => false

/-- Whether it issues there if its bundle lets it: no transfer of the core is at fault (R292). -/
def State.mayRun (s : State) (c : Nat) : Bool := s.mayPass c && (s.usr c).xfers.all (fun (x : Xfer) => x.st != .faulted)

/-- Whether a stop reaches its boundary now (R47, R167). -/
def State.stopsHere (s : State) (c : Nat) : Bool :=
  match (s.core c).stop, s.task? c with
  | some p, some t =>
    let u := s.usr c
    !p.reached && (if t.st == .running || t.st.over' then
      decide (u.ctx.idle = 0 ∧ ¬ (1 ≤ u.ctx.np ∧ u.ctx.np ≤ 64)) && u.seg.st != .rewinding && s.checksDone c else true)
  | some p, none => !p.reached
  | none, _ => false

/-- Of several traps, the first of the lowest slot, and the others. -/
def lowestTrap : List TrapRec → Option (TrapRec × List TrapRec)
  | [] => none
  | x :: l => match lowestTrap l with
    | some (y, t) => if y.slot < x.slot then some (y, x :: t) else some (x, l)
    | none => some (x, l)

/-- The trap that the user context takes at the boundary where it stands, if one is due: of what landed, the lowest slot's;
then the abort of a region. It is taken once the segment can commit (R429). -/
def State.takeDue (s : State) (c : Nat) : Option State :=
  let u := s.usr c
  if !(match u.task with | some t => t.st == .running || t.st.over' | none => false) then none
  else match lowestTrap u.after with
    | some (r, rest) => some (if s.trapWaits c r.cause then s else (s.modUsr c (fun u => { u with after := rest })).takeTrap c r)
    | none => (u.member.bind Member.noted).map (fun cause => if s.trapWaits c cause then s else s.takeTrap c { cause := cause, pc := u.ctx.pc })

/-- Past the boundary: a drain goes on, or the bundle that is next is fetched. -/
def State.boundaryNow (s : State) (c : Nat) : Option Bundle × State :=
  let u := s.usr c
  let pc := u.ctx.pc
  let go (a : Word) (s : State) : State := s.modCtx c false (fun x => { x with pc := a })
  if s.draining c then match s.drain c with
    | (.run a, s) => (none, go a s)
    | (.over' a, s) => (none, go a s)
    | (.wait, s) => (none, s)
  else match s.fetch c false with
    | .bundle b => (some b, s.cacheCode c (s.codeAt c false pc))
    | .wait => (none, s.ask c pc.toNat false)
    | .trap cause a => (none, if s.trapWaits c cause then s else ((s.unwait c false).modUsr c (fun u => { u with waive := false })).takeTrap c { cause := cause, pc := pc, addr := a })

/-- A core's turn in a cycle: what it is to issue, if anything, and the state before that. At a boundary a trap that is due
comes first, then a kill, then a stop (R126); a transfer at fault holds back neither. -/
def State.coreTurn (s : State) (c : Nat) : Option Bundle × State :=
  let s : State := { s with actor := .core c }
  let s := s.modCtx c false (fun x => { x with cons := s.cyc + 1 })
  let stop := s.stopsHere c
  let kill := ((s.task? c).map Task.killAt).getD false
  if !s.mayPass c && !stop then (none, s)
  else if s.mayPass c && decide (0 < (s.usr c).ctx.idle) && !(s.usr c).after.any (fun r => r.cause == cDEBUG_STEP) then (none, if s.mayRun c then s.soon [.event (.resultLanding c)] else s)
  else match s.takeDue c, kill || stop with
    | none, false => if s.mayRun c then s.boundaryNow c else (none, s)
    | t, _ =>
      let s := t.getD s
      let s := if kill then s.endTask c .killed else s
      (none, if stop then s.stopReach c else s)

/-- The lantern context's turn: it issues in share cycles, and in every cycle in which the user context is stopped or
has no task (R172); on a core whose task is over, in one that no record of another has taken (R16, R132). The cores of a cluster
in no partition are gated (R12). -/
def State.lanternMay (s : State) (c : Nat) : Bool :=
  !(s.cluster (clusterOf c)).gated && (s.shareCycle c || (match s.task? c with
    | some t => t.st != .running && (!t.st.over' || decide ((s.core c).spent ≠ s.cyc + 1))
    | none => true))

/-- RESULT_LANDING: an IDLE cycle of the user context ends (R39, R43). -/
def State.idleCycle (s : State) (c : Nat) (lan : Bool) : State :=
  if (s.ctx c lan).idle = 0 then s
  else (s.modCtx c lan (fun x => { x with idle := x.idle - 1 })).userCycle c lan

/-! ### Deliveries (R40) -/

/-- The deliveries of core `c` that land in the present cycle, in the order in which they were sent. -/
def State.dueDelivs (s : State) (c : Nat) : List Deliv :=
  ((s.usr c).delivs ++ (s.core c).lan.delivs).filter (fun (d : Deliv) => decide (d.due ≤ s.cyc))

/-- DELIVERY_LANDING: the value of operation `id` lands. One that was read from an uncorrectable word leaves its register
pending (R432); one under way at a segment's entry lands in the journal too (R431). -/
def State.landDelivery (s : State) (c id : Nat) : State :=
  match (s.dueDelivs c).find? (fun (d : Deliv) => decide (d.id = id)) with
  | none => s
  | some d =>
    let drop (l : List Deliv) : List Deliv := l.filter (fun (x : Deliv) => decide (x.id ≠ id))
    let s := if d.lan then s.modLan c (fun l => { l with delivs := drop l.delivs }) else s.modUsr c (fun u => { u with delivs := drop u.delivs })
    if d.bad then
      if d.lan then s.fatal c cUNCORRECTABLE_CONSUMED
      else (s.modCore c (fun w => { w with uncorrectable := bump w.uncorrectable })).failure c d.slot d.pc cUNCORRECTABLE_CONSUMED
    else
      let s := s.modCtx c d.lan (fun x =>
        let x := x.deliver d.reg d.val d.tag
        { x with arvs := x.arvs.map (fun (a : Arv) => if a.at' = .op id then { a with at' := .cycle s.cyc } else a) })
      if d.lan then (match d.trap with | some k => s.fatal c k | none => s)
      else
        let s := s.modUsr c (fun u =>
          if id < u.seg.firstId then { u with seg := { u.seg with jr := u.seg.jr.map (fun j => { j with ctx := j.ctx.deliver d.reg d.val d.tag }) } } else u)
        let s := if d.slot = 2 then (s.inject c 10 false 2 d.pc).2 else s
        match d.trap with
        | some k => s.trapAfter c { cause := k, slot := d.slot, pc := d.pc, after := true }
        | none => s

/-! ### Arrivals on retire (R46, R343) -/

/-- Whether an arrival is due: its slot's work retires in this cycle, and no open segment holds it (R348). -/
def Arv.due (cyc : Nat) (a : Arv) : Bool :=
  !a.seg && (match a.at' with | .user n => decide (n = 0) | .cycle k => decide (k ≤ cyc) | .op _ => false)

/-- Whether a core owes an arrival in the present cycle. -/
def State.arrivalDue (s : State) (c : Nat) : Bool := (s.usr c).ctx.arvs.any (Arv.due s.cyc) || (s.core c).lan.ctx.arvs.any (Arv.due s.cyc)

/-- One arrival is sent as a BARV of count 1. -/
def State.sendArrival (s : State) (c : Nat) (lan : Bool) (a : Arv) : State :=
  let (id, s) := s.newId
  s.modMops c lan (fun l => l ++
    [{ id := id, op := .barv, place := a.place, pieces := [{ off := 0, pa := a.pa, len := 16 }], ctl := 0, b := .sc 1, issue := s.cyc
       reqs := match a.place with | .glob at' => [servingDie c at' a.pa] | .spad _ => []
       lan := lan, arv := true, slot := a.slot, pc := a.pc, va := a.va }])

/-- ARRIVAL_ON_RETIRE: the arrivals due in this cycle, in ascending slot order. -/
def State.arrive' (s : State) (c : Nat) : State :=
  [false, true].foldl (fun (s : State) (lan : Bool) =>
    let due := ((s.ctx c lan).arvs.filter (Arv.due s.cyc)).foldl (fun (l : List Arv) (a : Arv) => byCore Arv.slot a l) []
    let s := s.modCtx c lan (fun x => { x with arvs := x.arvs.filter (fun (a : Arv) => !a.due s.cyc) })
    due.foldl (fun (s : State) (a : Arv) => s.sendArrival c lan a) s) s

/-! ### Accesses: acceptance (R164), performance (R271, R358) -/

/-- A request that waits for a cell: the core, its number, the cycle in which it became ready, the die, whether it is the
lantern context's, and the launch it is made for. -/
structure Asker where
  core : Nat
  id : Nat
  ready : Nat
  die : Nat
  lan : Bool
  key : Option Nat
  deriving DecidableEq, Repr

/-- The requests of a core that wait for cells (R164): of its accesses that are not held (R332), of the blocks of its
transfers and of those in images that left it (R167), of its porters. -/
def State.askers (s : State) (c : Nat) : List Asker :=
  let u := s.usr c
  let key := u.task.map Task.launch
  let own (key : Option Nat) (r : Option CellReq) : List Asker := match r with
    | some r => (r.reqs.take 1).map (fun d => { core := c, id := r.id, ready := r.ready, die := d, lan := false, key := key })
    | none => []
  let copies (key : Option Nat) (l : List Xfer) : List Asker :=
    l.flatMap (fun (x : Xfer) => if x.st == .inFlight then own key x.cells else [])
  (s.allMops c).flatMap (fun (m : MemOp) =>
      if m.hold then [] else (m.reqs.take 1).map (fun d => { core := c, id := m.id, ready := m.issue + m.late, die := d, lan := m.lan, key := if m.lan then none else key }))
    ++ copies key u.xfers ++ s.images.flatMap (fun (i : Image) => if i.core = c then copies (some i.launch) i.usr.xfers else [])
    ++ u.porters.flatMap (fun (p : Porter) => own key p.one ++ (p.blocks.take 1).flatMap (fun (b : PBlock) => own key b.cells))

/-- The partition of a request, and whether it may take FREE cells; the lantern context's may (log 44). -/
def State.requester (s : State) (a : Asker) : Nat × Bool :=
  match a.key.bind s.launches.find? with
  | some l => (l.part, l.free)
  | none => (s.partOf a.core, true)

/-- Whether request `a` goes before `b` for a cell of owner `o` (R164). -/
def State.goesBefore (s : State) (o : Nat) (a b : Asker) : Bool :=
  let part (a : Asker) : Nat := if o = 0x1F then (s.requester a).1 else 0
  let n (a : Asker) : Nat := a.core * 2 ^ 40 + a.id
  decide (part a < part b ∨ (part a = part b ∧ (a.ready < b.ready ∨ (a.ready = b.ready ∧ n a < n b))))

/-- Whether a request may take the cell of its lane in the present cycle: it is the cell's owner's, or the cell is FREE, and no
other request that may goes before it. -/
def State.winsCell (s : State) (a : Asker) : Bool :=
  let lane := laneOfCore a.core
  let o := s.cellOwner a.die (s.cyc % 256) lane
  let may (b : Asker) : Bool := decide (b.die = a.die) && (let (p, f) := s.requester b; decide (o = p ∧ o < 16) || (decide (o = 0x1F) && f))
  may a && !(s.die a.die).lanes.contains lane
    && !s.cores.any (fun ((c, _) : Nat × WCore) => decide (laneOfCore c = lane) && (s.askers c).any (fun (b : Asker) => may b && s.goesBefore o b a))

/-- The request numbered `id` of core `c` has one acceptance less to wait for. -/
def State.accepted (s : State) (c id : Nat) : State :=
  let cell (r : Option CellReq) : Option CellReq := r.map (fun (r : CellReq) => if r.id = id then { r with reqs := r.reqs.drop 1 } else r)
  let mop (m : MemOp) : MemOp := if m.id = id then { m with reqs := m.reqs.drop 1, acc := some s.cyc } else m
  let copies (l : List Xfer) : List Xfer := l.map (fun (x : Xfer) => { x with cells := cell x.cells })
  let s := if s.images.isEmpty then s else s.modImages (fun (i : Image) => { i with usr := { i.usr with xfers := copies i.usr.xfers } })
  (s.modLan c (fun l => { l with mops := l.mops.map mop })).modUsr c (fun u => { u with
    mops := u.mops.map mop
    xfers := copies u.xfers
    porters := u.porters.map (fun (p : Porter) =>
      { p with one := cell p.one, blocks := p.blocks.map (fun (b : PBlock) => { b with cells := cell b.cells }) }) })

/-- GLOBAL_REQUEST_ACCEPT: a request is accepted (R164). -/
def State.acceptRequest (s : State) (c id : Nat) : State :=
  match (s.askers c).find? (fun (a : Asker) => decide (a.id = id)) with
  | none => s
  | some a =>
    if !s.winsCell a then s
    else (s.accepted c id).modDie a.die (fun x => { x with lanes := laneOfCore c :: x.lanes })

/-- Whether an access is a barrier operation at a core's bank (R342). -/
def MemOp.atBank (m : MemOp) : Option Nat := match m.place with | .spad k => if m.op.isBarrier then some k else none | .glob _ => none

/-- The barrier operations that stand at core `k`'s bank, in the order in which they arrived; those of one cycle by
ascending core number (R358, R336). -/
def State.bankQueue (s : State) (k : Nat) : List (Nat × MemOp) :=
  let all := s.cores.flatMap (fun ((c, _) : Nat × WCore) => (s.allMops c).filterMap (fun (m : MemOp) =>
    if m.atBank = some k ∧ m.there c s.cyc then some (c, m) else none))
  all.foldl (fun (l : List (Nat × MemOp)) (x : Nat × MemOp) =>
    byCore (fun ((c, m) : Nat × MemOp) => ((m.due c).getD 0 * 2 ^ 11 + c) * 2 ^ 40 + m.id) x l) []

/-- What core `k`'s bank serves in the present cycle: the oldest arrival, once it can be performed; one that waits keeps its
place (R341, R358). -/
def State.bankNext (s : State) (k : Nat) : Option (Nat × MemOp) :=
  if (s.core k).served = s.cyc + 1 then none
  else (s.bankQueue k).head?.filter (fun ((c, m) : Nat × MemOp) => s.mayPerform c m)

/-- BARRIER_BANK_SERVICE. -/
def State.bankServe (s : State) (k : Nat) : State :=
  match s.bankNext k with
  | some (c, m) => (s.modCore k (fun w => { w with served := s.cyc + 1 })).perform c m
  | none => s

/-- Whether an access is performed by STORE_PERFORM, LOAD_PERFORM, REGION_DIRECTORY_ACCESS, or at a bank. -/
inductive PerformBy where
  | store | load | region | bank
  deriving DecidableEq, Repr

def MemOp.by (m : MemOp) : PerformBy :=
  if m.handle.isSome then .region
  else if m.atBank.isSome then .bank
  else if m.op.isStore then .store
  else .load

/-- STORE_PERFORM, LOAD_PERFORM, REGION_DIRECTORY_ACCESS: an access of its kind is performed when it is ready; one of a
region may come from another package (R366). -/
def State.performOp (s : State) (c id : Nat) (b : PerformBy) : State :=
  match s.findOp c id with
  | some m => if m.by = b ∧ s.ready c m then s.perform c m else s
  | none => if b = .region then s.regionRemote id else s

/-- WAIT_LIMIT_EXPIRY (R353, R359): a wait that is still parked when its limit has passed ends with TIMEOUT. -/
def State.waitLimit (s : State) (c id : Nat) : State :=
  match s.parked.find? (fun (p : Park) => decide (p.core = c ∧ p.id = id)) with
  | some p =>
    if (match p.limit with | some t => decide (t ≤ s.cyc) | none => false) then
      s.endPark p (s.wordAt p.place p.pa) stTIMEOUT (s.cyc + wakeDelay p.core p.place p.pa - 1)
    else s
  | none => s

/-! ### The array (R233, R246) -/

/-- ARRAY_OP_COMPLETE: the operation's effects are complete; a mismatch that MCHK found is reported then. -/
def State.arrayEnd (s : State) (p : Nat) : State :=
  match (s.pair p).run with
  | none => s
  | some r =>
    let s' := s.arrayComplete p
    if !s.arrayReady p then s'
    else match r.bad with
      | some (slot, pc) => if r.lan then s'.fatal r.core cSDC_MISMATCH else s'.failure r.core slot pc cSDC_MISMATCH
      | none => s'

/-! ### Rendezvous (R145) -/

/-- Whether core `c` stands ready at a rendezvous in the present cycle, not yet released. -/
def State.standsReady (s : State) (c : Nat) : Bool :=
  match s.task? c with
  | some t => decide (t.rdvAt.map Prod.fst = some s.cyc) && t.rdvGo.isNone && t.st == .running
  | none => false

/-- Whether a rendezvous waits for a core's task. -/
def Task.awaited (t : Task) : Bool :=
  (t.st == .running || t.st == .preempted || t.st == .trapped) && t.drains.all (fun (d : Drain) => d != .tend)

/-- The cores of a cluster whose team stands complete at a rendezvous. -/
def State.meetingDone (s : State) (k : Nat) : List Nat :=
  let cs := clusterCores k
  let ready := cs.filter s.standsReady
  ready.filter (fun (c : Nat) => match s.task? c with
    | none => false
    | some t => cs.all (fun (m : Nat) => match s.task? m with
      | some y => !(decide (y.launch = t.launch ∧ y.team = t.team) && y.awaited && !y.was.over') || s.standsReady m
      | none => true))

/-- Let a core's rendezvous go in the present cycle, and consider its bundle again. -/
def State.letMeet (s : State) (c : Nat) (late : Bool) : State :=
  (s.modTask c (fun t => { t with rdvGo := some (s.cyc, late) })).modCtx c false (fun x => { x with cons := 0 })

/-- RENDEZVOUS_RELEASE. -/
def State.rendezvous (s : State) (k : Nat) : State := (s.meetingDone k).foldl (fun (s : State) (c : Nat) => s.letMeet c false) s

/-- Whether the limit of a core's rendezvous has passed. -/
def State.meetingLate (s : State) (c : Nat) : Bool :=
  s.standsReady c && (match s.task? c with | some t => (match t.rdvAt with | some (_, n) => decide (n ≤ s.cyc) | none => false) | none => false)

/-- RENDEZVOUS_TIMEOUT: the bundle goes on alone, as late. -/
def State.rendezvousLate (s : State) (c : Nat) : State := if s.meetingLate c then s.letMeet c true else s

end Sys2Proof.Machine
end

