-- ==== Sys2Proof/Machine/ExecControl.lean ====
section
/-! DEFINITION. The operations of the control unit, each as a bundle that holds its one trigger: what the trigger does is written with its unit; a bundle of several moves is ExecMove's BUNDLE_ISSUE. -/
namespace Sys2Proof.Machine
open Sys2Proof

/-- BR (R138), as the one move of a bundle. -/
def execBr (g : BitVec 3) (e : Bool) (src : BitVec 10) (s : State) : Out := s.issueMove (moveNat g e src 0x2D0)

/-- BRI (R138), as the one move of a bundle. -/
def execBri (g : BitVec 3) (e : Bool) (src : BitVec 10) (s : State) : Out := s.issueMove (moveNat g e src 0x2D1)

/-- CALL (R139), as the one move of a bundle. -/
def execCall (g : BitVec 3) (e : Bool) (src : BitVec 10) (s : State) : Out := s.issueMove (moveNat g e src 0x2D2)

/-- RET (R139), as the one move of a bundle. -/
def execRet (g : BitVec 3) (e : Bool) (src : BitVec 10) (s : State) : Out := s.issueMove (moveNat g e src 0x2D3)

/-- LOOP (R140), as the one move of a bundle. -/
def execLoop (g : BitVec 3) (e : Bool) (src : BitVec 10) (s : State) : Out := s.issueMove (moveNat g e src 0x2D4)

/-- LPOST (R141), as the one move of a bundle. -/
def execLpost (g : BitVec 3) (e : Bool) (src : BitVec 10) (s : State) : Out := s.issueMove (moveNat g e src 0x2D5)

/-- LRUN (R141), as the one move of a bundle. -/
def execLrun (g : BitVec 3) (e : Bool) (src : BitVec 10) (s : State) : Out := s.issueMove (moveNat g e src 0x2D6)

/-- LSPLIT (R142), as the one move of a bundle. -/
def execLsplit (g : BitVec 3) (e : Bool) (src : BitVec 10) (s : State) : Out := s.issueMove (moveNat g e src 0x2D7)

/-- TEND (R143), as the one move of a bundle. -/
def execTend (g : BitVec 3) (e : Bool) (src : BitVec 10) (s : State) : Out := s.issueMove (moveNat g e src 0x2D8)

/-- TGRP (R144), as the one move of a bundle. -/
def execTgrp (g : BitVec 3) (e : Bool) (src : BitVec 10) (s : State) : Out := s.issueMove (moveNat g e src 0x2D9)

/-- SYS (R122), as the one move of a bundle. -/
def execSys (g : BitVec 3) (e : Bool) (src : BitVec 10) (s : State) : Out := s.issueMove (moveNat g e src 0x2DA)

/-- TRAP (R146), as the one move of a bundle. -/
def execTrap (g : BitVec 3) (e : Bool) (src : BitVec 10) (s : State) : Out := s.issueMove (moveNat g e src 0x2DB)

/-- TWAIT (R143), as the one move of a bundle. -/
def execTwait (g : BitVec 3) (e : Bool) (src : BitVec 10) (s : State) : Out := s.issueMove (moveNat g e src 0x2DC)

/-- RDV (R145), as the one move of a bundle. -/
def execRdv (g : BitVec 3) (e : Bool) (src : BitVec 10) (s : State) : Out := s.issueMove (moveNat g e src 0x2DD)

/-- ROPEN (R377), as the one move of a bundle. -/
def execRopen (g : BitVec 3) (e : Bool) (src : BitVec 10) (s : State) : Out := s.issueMove (moveNat g e src 0x2DE)

/-- RJOIN (R378), as the one move of a bundle. -/
def execRjoin (g : BitVec 3) (e : Bool) (src : BitVec 10) (s : State) : Out := s.issueMove (moveNat g e src 0x2DF)

/-- RVOTE (R379), as the one move of a bundle. -/
def execRvote (g : BitVec 3) (e : Bool) (src : BitVec 10) (s : State) : Out := s.issueMove (moveNat g e src 0x2E0)

/-- RABORT (R380), as the one move of a bundle. -/
def execRabort (g : BitVec 3) (e : Bool) (src : BitVec 10) (s : State) : Out := s.issueMove (moveNat g e src 0x2E1)

/-- RLEAVE (R381), as the one move of a bundle. -/
def execRleave (g : BitVec 3) (e : Bool) (src : BitVec 10) (s : State) : Out := s.issueMove (moveNat g e src 0x2E2)

/-- RSTAT (R382), as the one move of a bundle. -/
def execRstat (g : BitVec 3) (e : Bool) (src : BitVec 10) (s : State) : Out := s.issueMove (moveNat g e src 0x2E3)

/-- EPOP (R421), as the one move of a bundle. -/
def execEpop (g : BitVec 3) (e : Bool) (src : BitVec 10) (s : State) : Out := s.issueMove (moveNat g e src 0x2E4)

/-- EPUSH (R422), as the one move of a bundle. -/
def execEpush (g : BitVec 3) (e : Bool) (src : BitVec 10) (s : State) : Out := s.issueMove (moveNat g e src 0x2E5)

/-- ESTAT (R423), as the one move of a bundle. -/
def execEstat (g : BitVec 3) (e : Bool) (src : BitVec 10) (s : State) : Out := s.issueMove (moveNat g e src 0x2E6)

/-- ESTOP (R424), as the one move of a bundle. -/
def execEstop (g : BitVec 3) (e : Bool) (src : BitVec 10) (s : State) : Out := s.issueMove (moveNat g e src 0x2E7)

/-- CANCEL (R148), as the one move of a bundle. -/
def execCancel (g : BitVec 3) (e : Bool) (src : BitVec 10) (s : State) : Out := s.issueMove (moveNat g e src 0x2E8)

/-- LAUNCH (R149), as the one move of a bundle. -/
def execLaunch (g : BitVec 3) (e : Bool) (src : BitVec 10) (s : State) : Out := s.issueMove (moveNat g e src 0x2E9)

/-- SLEEP (R147), as the one move of a bundle. -/
def execSleep (g : BitVec 3) (e : Bool) (src : BitVec 10) (s : State) : Out := s.issueMove (moveNat g e src 0x2EA)

/-- PRIO (R147), as the one move of a bundle. -/
def execPrio (g : BitVec 3) (e : Bool) (src : BitVec 10) (s : State) : Out := s.issueMove (moveNat g e src 0x2EB)

/-- SCHED (R175), as the one move of a bundle. -/
def execSched (g : BitVec 3) (e : Bool) (src : BitVec 10) (s : State) : Out := s.issueMove (moveNat g e src 0x2EC)

/-- DBG (R146), as the one move of a bundle. -/
def execDbg (g : BitVec 3) (e : Bool) (src : BitVec 10) (s : State) : Out := s.issueMove (moveNat g e src 0x2ED)

/-- WDOG (R146), as the one move of a bundle. -/
def execWdog (g : BitVec 3) (e : Bool) (src : BitVec 10) (s : State) : Out := s.issueMove (moveNat g e src 0x2EE)

/-- HINT (R147), as the one move of a bundle. -/
def execHint (g : BitVec 3) (e : Bool) (src : BitVec 10) (s : State) : Out := s.issueMove (moveNat g e src 0x2EF)

end Sys2Proof.Machine
end

