-- ==== Sys2Proof/Machine/ExecCopy.lean ====
section
/-! DEFINITION. The operations of the copy unit, each as a bundle that holds its one trigger: what the trigger does is written with its unit; a bundle of several moves is ExecMove's BUNDLE_ISSUE. -/
namespace Sys2Proof.Machine
open Sys2Proof

/-- CPSET (R296), as the one move of a bundle. -/
def execCpset (g : BitVec 3) (e : Bool) (src : BitVec 10) (s : State) : Out := s.issueMove (moveNat g e src 0x2C0)

/-- CPGO (R297), as the one move of a bundle. -/
def execCpgo (g : BitVec 3) (e : Bool) (src : BitVec 10) (s : State) : Out := s.issueMove (moveNat g e src 0x2C1)

/-- CPSTAT (R298), as the one move of a bundle. -/
def execCpstat (g : BitVec 3) (e : Bool) (src : BitVec 10) (s : State) : Out := s.issueMove (moveNat g e src 0x2C2)

/-- CPABRT (R299), as the one move of a bundle. -/
def execCpabrt (g : BitVec 3) (e : Bool) (src : BitVec 10) (s : State) : Out := s.issueMove (moveNat g e src 0x2C3)

/-- CPKEY (R301), as the one move of a bundle. -/
def execCpkey (g : BitVec 3) (e : Bool) (src : BitVec 10) (s : State) : Out := s.issueMove (moveNat g e src 0x2C4)

/-- BUSSEL (R304), as the one move of a bundle. -/
def execBussel (g : BitVec 3) (e : Bool) (src : BitVec 10) (s : State) : Out := s.issueMove (moveNat g e src 0x2C5)

/-- MSG (R404), as the one move of a bundle. -/
def execMsg (g : BitVec 3) (e : Bool) (src : BitVec 10) (s : State) : Out := s.issueMove (moveNat g e src 0x2C6)

/-- RWR (R405), as the one move of a bundle. -/
def execRwr (g : BitVec 3) (e : Bool) (src : BitVec 10) (s : State) : Out := s.issueMove (moveNat g e src 0x2C7)

/-- RAMO (R405), as the one move of a bundle. -/
def execRamo (g : BitVec 3) (e : Bool) (src : BitVec 10) (s : State) : Out := s.issueMove (moveNat g e src 0x2C8)

/-- RRED (R405), as the one move of a bundle. -/
def execRred (g : BitVec 3) (e : Bool) (src : BitVec 10) (s : State) : Out := s.issueMove (moveNat g e src 0x2C9)

/-- WQUIET (R406), as the one move of a bundle. -/
def execWquiet (g : BitVec 3) (e : Bool) (src : BitVec 10) (s : State) : Out := s.issueMove (moveNat g e src 0x2CA)

/-- JOBR (R407), as the one move of a bundle. -/
def execJobr (g : BitVec 3) (e : Bool) (src : BitVec 10) (s : State) : Out := s.issueMove (moveNat g e src 0x2CB)

/-- PSTART (R308), as the one move of a bundle. -/
def execPstart (g : BitVec 3) (e : Bool) (src : BitVec 10) (s : State) : Out := s.issueMove (moveNat g e src 0x2CC)

/-- PSIG (R308), as the one move of a bundle. -/
def execPsig (g : BitVec 3) (e : Bool) (src : BitVec 10) (s : State) : Out := s.issueMove (moveNat g e src 0x2CD)

/-- PSTAT (R308), as the one move of a bundle. -/
def execPstat (g : BitVec 3) (e : Bool) (src : BitVec 10) (s : State) : Out := s.issueMove (moveNat g e src 0x2CE)

/-- CPFENCE (R300), as the one move of a bundle. -/
def execCpfence (g : BitVec 3) (e : Bool) (src : BitVec 10) (s : State) : Out := s.issueMove (moveNat g e src 0x2CF)

end Sys2Proof.Machine
end

