-- ==== Sys2Proof/Machine/RestOps.lean ====
section
/-! DEFINITION. The copy transfers of a task whose image is at rest: they go on as on the core that it left, and what they
deliver or write to the task's scratchpad lands in the image (R167). -/
namespace Sys2Proof.Machine

/-- The images that left core `c` with transfers unfinished: launch and tile. -/
def State.copying (s : State) (c : Nat) : List (Nat × Nat) :=
  (s.images.filter (fun (i : Image) => decide (i.core = c) && !i.usr.xfers.isEmpty)).map (fun (i : Image) => (i.launch, i.tile))

/-- An image stands for its core's user side, so that its transfers act as on the core. -/
def State.mount (s : State) (c k tile : Nat) : State :=
  match s.images.find? (fun (i : Image) => decide (i.launch = k ∧ i.tile = tile)) with
  | some i => s.modCore c (fun w => { w with usr := i.usr, gated := 0 })
  | none => s

/-- The image is at rest again; what it was delivered has landed in it. `s0` holds the core's own user side. -/
def State.unmount (s0 s : State) (c k tile : Nat) : State :=
  let s := (s.usr c).delivs.foldl (fun (s : State) (d : Deliv) => s.landDelivery c d.id) s
  let u := s.usr c
  let w0 := s0.core c
  (s.modImages (fun (i : Image) => if i.launch = k ∧ i.tile = tile then { i with usr := u } else i)).modCore c
    (fun w => { w with usr := w0.usr, gated := w0.gated })

/-- Act on an image as on its core. -/
def State.onImage (s : State) (c k tile : Nat) (f : State → State) : State := State.unmount s (f (s.mount c k tile)) c k tile

/-- Act on the user side, on core `c` or in an image that left it, whose transfer meets a condition. -/
def State.onXfer (s : State) (c ch id : Nat) (ok : State → Xfer → Bool) (f : State → State) : State :=
  let can (s : State) : Bool := (((s.usr c).xfer? ch id).map (ok s)).getD false
  if can s then f s
  else match (s.copying c).find? (fun (k, tile) => can (s.mount c k tile)) with
    | some (k, tile) => s.onImage c k tile f
    | none => s

/-- Whether a transfer in flight has moved its last block. -/
def Xfer.ran (x : Xfer) : Bool := x.st == .inFlight && decide (cpTotal x.prog ≤ x.pos)

/-- TRANSFER_START. -/
def State.transferStart (s : State) (c ch id : Nat) : State :=
  s.onXfer c ch id (fun s x => s.xferReady c x) (fun s => s.xferStart c ch id)

/-- TRANSFER_COMPLETE. -/
def State.transferComplete (s : State) (c ch id : Nat) : State :=
  s.onXfer c ch id (fun _ x => x.ran) (fun s => s.xferComplete c ch id)

/-- TRANSFER_ELEMENT_FAULT, and, where `data` says so, TRANSFER_DATA_FAULT. -/
def State.transferFault (s : State) (c ch id : Nat) (data : Bool) : State :=
  s.onXfer c ch id (fun _ x => x.st == .inFlight && decide (x.cause ≠ 0)) (fun s => s.xferFaultIf c ch id data)

/-- A transfer of core `c`, or of an image that left it, that starts or is complete. -/
def State.xferNext (s : State) (c : Nat) : Option Instr :=
  let next (s : State) : Option Instr :=
    let l := (s.usr c).xfers
    (l.find? (s.xferReady c)).map (fun (x : Xfer) => Instr.transferStart c x.ch x.id)
      <|> (l.find? Xfer.ran).map (fun (x : Xfer) => .transferComplete c x.ch x.id)
  next s <|> (s.copying c).findSome? (fun (k, tile) => next (s.mount c k tile))

/-- The next block of a transfer in an image. -/
def State.imageBlock (s : State) (k tile ch id : Nat) : State :=
  match s.images.find? (fun (i : Image) => decide (i.launch = k ∧ i.tile = tile)) with
  | some i => s.onImage i.core k tile (fun s => s.copyBlock i.core ch id)
  | none => s

end Sys2Proof.Machine
end

