-- ==== Sys2Proof/Machine/ExecCore.lean ====
section
/-! DEFINITION. The events of cores: results, deliveries, arrivals, accesses, copies, porters, regions, debuggers. -/
namespace Sys2Proof.Machine
open Sys2Proof

/-- RESULT_LANDING (R39). -/
def execResultLanding (c : Nat) (s : State) : Out := .next (s.idleCycle c false)

/-- DELIVERY_LANDING (R40). -/
def execDeliveryLanding (c : Nat) (id : Nat) (s : State) : Out := .next (s.landDelivery c id)

/-- ARRIVAL_ON_RETIRE (R343). -/
def execArrivalOnRetire (c : Nat) (s : State) : Out := .next (s.arrive' c)

/-- SEGMENT_COMMIT (R429). -/
def execSegmentCommit (c : Nat) (s : State) : Out := .next (s.commitNext c)

/-- REWIND_DONE (R431). -/
def execRewindDone (c : Nat) (s : State) : Out := .next (s.rewindDone c)

/-- ARRAY_OP_COMPLETE (R233). -/
def execArrayOpComplete (p : Nat) (s : State) : Out := .next (s.arrayEnd p)

/-- MSEQ_STEP_START (R241). -/
def execMseqStepStart (c : Nat) (s : State) : Out := .next (s.mseqStep c)

/-- IDLE_WAKE (R180). -/
def execIdleWake (c : Nat) (s : State) : Out := .next (s.idleWake c)

/-- CORE_RESUME (R168). -/
def execCoreResume (c : Nat) (s : State) : Out := .next (s.resumeCore c)

/-- SCOUT_PROBE (R133). -/
def execScoutProbe (c : Nat) (s : State) : Out := .next (s.scoutProbe c)

/-- STEAL_ARRIVAL (R133). -/
def execStealArrival (c : Nat) (s : State) : Out := .next (s.stealArrive c)

/-- TWAIT_TIMEOUT (R143). -/
def execTwaitTimeout (c : Nat) (s : State) : Out := .next (s.twaitLimits c)

/-- WATCHDOG_EXPIRY (R146). -/
def execWatchdogExpiry (c : Nat) (s : State) : Out := .next (s.watchdogExpiry c)

/-- RENDEZVOUS_RELEASE (R145). -/
def execRendezvousRelease (cl : Nat) (s : State) : Out := .next (s.rendezvous cl)

/-- RENDEZVOUS_TIMEOUT (R145). -/
def execRendezvousTimeout (c : Nat) (s : State) : Out := .next (s.rendezvousLate c)

/-- SHARE_VIOLATION (R436). -/
def execShareViolation (c : Nat) (s : State) : Out := .next (s.shareViolation c)

/-- DEBUG_HOLD (R173). -/
def execDebugHold (c : Nat) (s : State) : Out := .next (s.debugHold c)

/-- DEBUG_STEP (R173). -/
def execDebugStep (c : Nat) (s : State) : Out := .next (s.debugStep c)

/-- DEBUG_RELEASE (R173). -/
def execDebugRelease (c : Nat) (s : State) : Out := .next (s.debugRelease c)

/-- GLOBAL_REQUEST_ACCEPT (R164). -/
def execGlobalRequestAccept (c : Nat) (id : Nat) (s : State) : Out := .next (s.acceptRequest c id)

/-- STORE_PERFORM (R271). -/
def execStorePerform (c : Nat) (id : Nat) (s : State) : Out := .next (s.performOp c id .store)

/-- PAGE_WALK (R262). -/
def execPageWalk (c : Nat) (s : State) : Out := .next (s.pageWalk c)

/-- OWNERSHIP_TRANSFER_START (R261). -/
def execOwnershipTransferStart (r : Nat) (s : State) : Out := .next (s.ownershipStart r)

/-- OWNERSHIP_WRITEBACK_COMPLETE (R261). -/
def execOwnershipWritebackComplete (r : Nat) (s : State) : Out := .next (s.ownershipDone r)

/-- OWNERSHIP_TIMEOUT (R261). -/
def execOwnershipTimeout (c : Nat) (s : State) : Out := .next (s.ownershipTimeout c)

/-- DIE_CACHE_WRITEBACK (R325). -/
def execDieCacheWriteback (d : Nat) (line : Nat) (s : State) : Out := .next (s.writeBack d line)

/-- GATED_UNIT_WAKE (R269). -/
def execGatedUnitWake (c : Nat) (s : State) : Out := .next (s.gatedWake c)

/-- SHOOTDOWN_GO (R264). -/
def execShootdownGo (v : Word) (s : State) : Out := .next (s.shootdownGo v)

/-- SHOOTDOWN_COMPLETE (R264). -/
def execShootdownComplete (s : State) : Out := .next (s.shootdownDone)

/-- TRANSFER_START (R291). -/
def execTransferStart (c : Nat) (ch : Nat) (id : Nat) (s : State) : Out := .next (s.transferStart c ch id)

/-- TRANSFER_COMPLETE (R291). -/
def execTransferComplete (c : Nat) (ch : Nat) (id : Nat) (s : State) : Out := .next (s.transferComplete c ch id)

/-- TRANSFER_ELEMENT_FAULT (R292). -/
def execTransferElementFault (c : Nat) (ch : Nat) (id : Nat) (s : State) : Out := .next (s.transferFault c ch id false)

/-- TRANSFER_DATA_FAULT (R291). -/
def execTransferDataFault (c : Nat) (ch : Nat) (id : Nat) (s : State) : Out := .next (s.transferFault c ch id true)

/-- PORTER_ECALL (R305). -/
def execPorterEcall (c : Nat) (side : Nat) (s : State) : Out := .next (s.porterEcall c side)

/-- PORTER_EXCEPTION (R305). -/
def execPorterException (c : Nat) (side : Nat) (s : State) : Out := .next (s.porterException c side)

/-- PORTER_FAULT (R306). -/
def execPorterFault (c : Nat) (side : Nat) (s : State) : Out := .next (s.porterFault c side)

/-- PORTER_BLOCK_COMPLETE (R307). -/
def execPorterBlockComplete (c : Nat) (side : Nat) (s : State) : Out := .next (s.porterBlock c side)

/-- PORTER_WAKE (R307). -/
def execPorterWake (c : Nat) (side : Nat) (s : State) : Out := .next (s.porterWake c side)

/-- WAIT_LIMIT_EXPIRY (R359). -/
def execWaitLimitExpiry (c : Nat) (id : Nat) (s : State) : Out := .next (s.waitLimit c id)

/-- BARRIER_BANK_SERVICE (R358). -/
def execBarrierBankService (c : Nat) (s : State) : Out := .next (s.bankServe c)

/-- REGION_DIRECTORY_ACCESS (R370). -/
def execRegionDirectoryAccess (c : Nat) (id : Nat) (s : State) : Out := .next (s.performOp c id .region)

/-- REGION_JOIN (R369). -/
def execRegionJoin (slot : Nat) (m : Nat) (s : State) : Out := .next (s.regionJoin slot m)

/-- REGION_LEAVE (R369). -/
def execRegionLeave (slot : Nat) (m : Nat) (s : State) : Out := .next (s.regionLeave slot m)

/-- REGION_VOTE (R369). -/
def execRegionVote (slot : Nat) (m : Nat) (s : State) : Out := .next (s.regionVote slot m)

/-- REGION_ABORT (R369). -/
def execRegionAbort (slot : Nat) (m : Nat) (s : State) : Out := .next (s.regionAbort slot m)

/-- REGION_LOCKS_HELD (R371). -/
def execRegionLocksHeld (slot : Nat) (s : State) : Out := .next (s.regionLocksHeld slot)

/-- REGION_LINES_WRITTEN (R369). -/
def execRegionLinesWritten (slot : Nat) (s : State) : Out := .next (s.regionWritten slot)

/-- REGION_ENTRIES_DISCARDED (R369). -/
def execRegionEntriesDiscarded (slot : Nat) (s : State) : Out := .next (s.regionDiscarded slot)

/-- REGION_FREED (R369). -/
def execRegionFreed (slot : Nat) (s : State) : Out := .next (s.regionFreed slot)

/-- REGION_OUTCOME_DELIVERY (R372). -/
def execRegionOutcomeDelivery (slot : Nat) (m : Nat) (s : State) : Out := .next (s.regionOutcome slot m)

/-- LOAD_PERFORM (R271). -/
def execLoadPerform (c : Nat) (id : Nat) (s : State) : Out := .next (s.performOp c id .load)

end Sys2Proof.Machine
end

