-- ==== Sys2Proof/Machine/ExecFabric.lean ====
section
/-! DEFINITION. The events of the fabric, of PCI Express, and of the module. -/
namespace Sys2Proof.Machine
open Sys2Proof

/-- PORT_TRAIN (R385). -/
def execPortTrain (n : Nat) (s : State) : Out := .next (s.portTrain n)

/-- PORT_TRAINED (R385). -/
def execPortTrained (n : Nat) (lanes : Nat) (s : State) : Out := .next (s.portTrained n lanes)

/-- PORT_TRAINING_TIMEOUT (R385). -/
def execPortTrainingTimeout (n : Nat) (s : State) : Out := .next (s.portTimeout n)

/-- LANE_LOST (R385). -/
def execLaneLost (n : Nat) (s : State) : Out := .next (s.laneLost n)

/-- FLIT_RECEIVE (R384). -/
def execFlitReceive (n : Nat) (good : Bool) (words : List Word) (s : State) : Out := .next (s.flitReceive n good words)

/-- RETRY_EXHAUSTED (R384). -/
def execRetryExhausted (n : Nat) (s : State) : Out := .next (s.retryExhausted n)

/-- MSG_ARRIVAL (R404). -/
def execMsgArrival (seq : Nat) (s : State) : Out := .next (s.msgArrival seq)

/-- HELD_MESSAGE_RETRY (R404). -/
def execHeldMessageRetry (seq : Nat) (s : State) : Out := .next (s.heldRetry seq)

/-- RWR_ARRIVAL (R405). -/
def execRwrArrival (seq : Nat) (s : State) : Out := .next (s.rwrArrival seq)

/-- RAMO_ARRIVAL (R405). -/
def execRamoArrival (seq : Nat) (s : State) : Out := .next (s.ramoArrival seq)

/-- RAMO_REPLY (R405). -/
def execRamoReply (_ : Nat) (id : Nat) (v : Word) (lost : Bool) (s : State) : Out := .next (s.ramoReply id v lost)

/-- REDUCTION_CONTRIBUTION (R396). -/
def execReductionContribution (seq : Nat) (s : State) : Out := .next (s.reductionContribution seq)

/-- WAVE_START (R391). -/
def execWaveStart (s : State) : Out := .next (s.waveStart)

/-- WAVE_PASS_END (R391). -/
def execWavePassEnd (others : List (Nat × Nat × Nat × Nat)) (s : State) : Out := .next (s.wavePassEnd others)

/-- WQUIET_TIMEOUT (R406). -/
def execWquietTimeout (c : Nat) (s : State) : Out := .next (s.wquietTimeout c)

/-- REDUCTION_WINDOW_WRITE (R395). -/
def execReductionWindowWrite (w : Nat) (off : Nat) (v : Word) (s : State) : Out := .next (s.windowWrite w off v)

/-- WINDOW_INSTALLED (R395). -/
def execWindowInstalled (w : Nat) (s : State) : Out := .next (s.windowInstalled w)

/-- LANDING_WINDOW_WRITE (R399). -/
def execLandingWindowWrite (p : Nat) (w : Nat) (off : Nat) (v : Word) (s : State) : Out := .next (s.landingWrite p w off v)

/-- PCIE_PEER_WRITE (R400). -/
def execPciePeerWrite (port : Nat) (fn : Nat) (w : Nat) (off : Nat) (bytes : List Byte) (s : State) : Out := .next (s.peerWrite port fn w off bytes)

/-- PCIE_WINDOW_READ (R400). -/
def execPcieWindowRead (port : Nat) (fn : Nat) (w : Nat) (off : Nat) (n : Nat) (s : State) : Out := .next (s.windowRead port fn w off n)

/-- PCIE_DOORBELL_WRITE (R401). -/
def execPcieDoorbellWrite (port : Nat) (fn : Nat) (off : Nat) (bytes : List Byte) (s : State) : Out := .next (s.doorbell port fn off bytes)

/-- PCIE_DOORBELL_READ (R401). -/
def execPcieDoorbellRead (port : Nat) (fn : Nat) (w : Nat) (s : State) : Out := .next (s.doorbellRead port fn w)

/-- PCIE_FLR (R398). -/
def execPcieFlr (port : Nat) (fn : Nat) (s : State) : Out := .next (s.pcieFlr port fn)

/-- PCIE_DPC_CONTAINMENT (R398). -/
def execPcieDpcContainment (port : Nat) (s : State) : Out := .next (s.pcieDpc port true)

/-- PCIE_LINK_TRAINING (R398). -/
def execPcieLinkTraining (port : Nat) (s : State) : Out := .next (s.pcieTrain port)

/-- PLDM_REQUEST_UPDATE (R445). -/
def execPldmRequestUpdate (s : State) : Out := .next (s.pldmRequest)

/-- IMAGE_TRANSFER_COMPLETE (R445). -/
def execImageTransferComplete (bytes : List Byte) (s : State) : Out := .next (s.imageComplete bytes)

/-- PLDM_APPLY_COMPLETE (R445). -/
def execPldmApplyComplete (s : State) : Out := .next (s.pldmApply)

/-- PLDM_ACTIVATE_FIRMWARE (R445). -/
def execPldmActivateFirmware (s : State) : Out := .next (s.pldmActivate)

/-- PLDM_CANCEL_UPDATE (R445). -/
def execPldmCancelUpdate (s : State) : Out := .next (s.pldmCancel)

/-- LANTERN_IMAGE_SWITCH (R446). -/
def execLanternImageSwitch (c : Nat) (s : State) : Out := .next (s.lanternSwitch c)

/-- POWER_ON (R452). -/
def execPowerOn (s : State) : Out := .next (s.powerOn)

/-- SPDM_GET_MEASUREMENTS (R451). -/
def execSpdmGetMeasurements (s : State) : Out := .next (s.measurements)

/-- SPDM_KEY_INSTALL (R448). -/
def execSpdmKeyInstall (p : Nat) (cls : Nat) (bits : BitVec 256) (s : State) : Out := .next (s.keyInstall p cls bits)

/-- THROTTLE_WINDOW (R454). -/
def execThrottleWindow (watts : Nat) (s : State) : Out := .next (s.throttleWindow watts)

/-- THERMAL_TRIP (R455). -/
def execThermalTrip (d : Nat) (s : State) : Out := .next (s.thermalTrip d)

/-- PCIE_DPC_RELEASE (R398). -/
def execPcieDpcRelease (port : Nat) (s : State) : Out := .next (s.pcieDpc port false)

/-- IMAGE_TRANSFER_ABORTED (R445). -/
def execImageTransferAborted (s : State) : Out := .next (s.imageAborted)

end Sys2Proof.Machine
end

