-- ==== Sys2Proof/Machine/ExecHost.lean ====
section
/-! DEFINITION. The instructions of the host harts. -/
namespace Sys2Proof.Machine
open Sys2Proof

/-- CPOST (R93). -/
def execCpost (rd : BitVec 5) (rs1 : BitVec 5) (s : State) : Out := s.onHart (fun (s : State) (h : Nat) => s.cpost h rs1 rd)

/-- CJOIN (R94). -/
def execCjoin (rs2 : BitVec 5) (rs1 : BitVec 5) (rd : BitVec 5) (s : State) : Out := s.onHart (fun (s : State) (h : Nat) => s.cjoin h rs2 rs1 rd)

/-- CQUERY (R95). -/
def execCquery (rd : BitVec 5) (rs1 : BitVec 5) (s : State) : Out := s.onHart (fun (s : State) (h : Nat) => s.cquery h rs1 rd)

/-- CKILL (R96). -/
def execCkill (rd : BitVec 5) (s : State) : Out := s.onHart (fun (s : State) (h : Nat) => s.ckill h rd)

/-- CCREATE (R97). -/
def execCcreate (rs2 : BitVec 5) (rs1 : BitVec 5) (rd : BitVec 5) (s : State) : Out := s.onHart (fun (s : State) (h : Nat) => s.ccreate h rs2 rs1 rd)

/-- CFREE (R97). -/
def execCfree (rd : BitVec 5) (rs1 : BitVec 5) (s : State) : Out := s.onHart (fun (s : State) (h : Nat) => s.cfree h rs1 rd)

/-- CBIND (R80). -/
def execCbind (rd : BitVec 5) (rs1 : BitVec 5) (s : State) : Out := s.onHart (fun (s : State) (h : Nat) => s.cbind h rs1 rd)

/-- CSAVE (R97). -/
def execCsave (rd : BitVec 5) (rs1 : BitVec 5) (s : State) : Out := s.onHart (fun (s : State) (h : Nat) => s.csave h rs1 rd)

/-- CLOAD (R97). -/
def execCload (rd : BitVec 5) (rs1 : BitVec 5) (s : State) : Out := s.onHart (fun (s : State) (h : Nat) => s.cload h rs1 rd)

/-- CRESUME (R97). -/
def execCresume (rs2 : BitVec 5) (rs1 : BitVec 5) (rd : BitVec 5) (s : State) : Out := s.onHart (fun (s : State) (h : Nat) => s.cresume h rs2 rs1 rd)

/-- CADOPT (R97). -/
def execCadopt (rd : BitVec 5) (rs1 : BitVec 5) (s : State) : Out := s.onHart (fun (s : State) (h : Nat) => s.cadopt h rs1 rd)

/-- CCKPT (R97). -/
def execCckpt (rd : BitVec 5) (rs1 : BitVec 5) (s : State) : Out := s.onHart (fun (s : State) (h : Nat) => s.cckpt h rs1 rd)

end Sys2Proof.Machine
end

