-- ==== Sys2Proof/Machine/ExecHub.lean ====
section
/-! DEFINITION. The events of the hub: continuations, streams, launches, partitions, registers, host stores. -/
namespace Sys2Proof.Machine
open Sys2Proof

/-- SHARE_CHANGE_EFFECT (R178). -/
def execShareChangeEffect (p : Nat) (s : State) : Out := .next (s.shareEffect p)

/-- SLOT_CELL_EFFECT (R179). -/
def execSlotCellEffect (d : Nat) (cell : Nat) (s : State) : Out := .next (s.slotEffect d cell)

/-- CJOIN_TIMEOUT (R94). -/
def execCjoinTimeout (h : Nat) (s : State) : Out := .next (s.cjoinTimeout h)

/-- CONT_PARK (R84). -/
def execContPark (k : Nat) (s : State) : Out := .next (s.contPark k)

/-- CONT_UNPARK (R85). -/
def execContUnpark (k : Nat) (s : State) : Out := .next (s.contUnpark k)

/-- KILL_DONE (R89). -/
def execKillDone (k : Nat) (s : State) : Out := .next (s.killDone k)

/-- ATTENTION_RETRY (R86). -/
def execAttentionRetry (p : Nat) (s : State) : Out := .next (s.attentionRetry p)

/-- FAULT_STEERING_WRITE (R161). -/
def execFaultSteeringWrite (p : Nat) (v : Word) (s : State) : Out := .next (s.faultSteeringWrite p v)

/-- CHECKPOINT_INTERVAL (R453). -/
def execCheckpointInterval (s : State) : Out := .next (s.checkpointInterval)

/-- CHECKPOINT_COMPLETE (R90). -/
def execCheckpointComplete (s : State) : Out := .next (s.checkpointComplete)

/-- PKT_NOP (R104). -/
def execPktNop (k : Nat) (s : State) : Out := .next (s.packetStep k (fun (ty : Nat) => decide (ty = 1)))

/-- PKT_LAUNCH (R109). -/
def execPktLaunch (k : Nat) (s : State) : Out := .next (s.packetStep k (fun (ty : Nat) => decide (ty = 2)))

/-- PKT_WAIT (R110). -/
def execPktWait (k : Nat) (s : State) : Out := .next (s.packetStep k (fun (ty : Nat) => decide (ty = 3)))

/-- PKT_SIGNAL (R111). -/
def execPktSignal (k : Nat) (s : State) : Out := .next (s.packetStep k (fun (ty : Nat) => decide (ty = 4)))

/-- PKT_PRED (R110). -/
def execPktPred (k : Nat) (s : State) : Out := .next (s.packetStep k (fun (ty : Nat) => decide (ty = 5)))

/-- PKT_LOOP (R112). -/
def execPktLoop (k : Nat) (s : State) : Out := .next (s.packetStep k (fun (ty : Nat) => decide (ty = 6)))

/-- PKT_CALL (R114). -/
def execPktCall (k : Nat) (s : State) : Out := .next (s.packetStep k (fun (ty : Nat) => decide (ty = 7)))

/-- PKT_RETURN (R114). -/
def execPktReturn (k : Nat) (s : State) : Out := .next (s.packetStep k (fun (ty : Nat) => decide (ty = 8)))

/-- PKT_FFENCE (R107). -/
def execPktFfence (k : Nat) (s : State) : Out := .next (s.packetStep k (fun (ty : Nat) => decide (ty = 9)))

/-- PKT_MARK (R117). -/
def execPktMark (k : Nat) (s : State) : Out := .next (s.packetStep k (fun (ty : Nat) => decide (ty = 10)))

/-- PKT_COPY (R116). -/
def execPktCopy (k : Nat) (s : State) : Out := .next (s.packetStep k (fun (ty : Nat) => decide (ty = 11)))

/-- PKT_BIND (R116). -/
def execPktBind (k : Nat) (s : State) : Out := .next (s.packetStep k (fun (ty : Nat) => decide (ty = 12)))

/-- PKT_UNKNOWN (R103). -/
def execPktUnknown (k : Nat) (s : State) : Out := .next (s.packetStep k (fun (ty : Nat) => decide (ty = 0 ∨ 12 < ty)))

/-- IMPLICIT_RETURN (R114). -/
def execImplicitReturn (k : Nat) (s : State) : Out := .next (s.implicitReturn k)

/-- STREAM_WINDOW_REFILL (R107). -/
def execStreamWindowRefill (k : Nat) (s : State) : Out := .next (s.windowRefill k)

/-- FFENCE_REFILL (R309). -/
def execFfenceRefill (k : Nat) (s : State) : Out := .next (s.ffenceRefill k)

/-- WAIT_SATISFIED (R110). -/
def execWaitSatisfied (k : Nat) (s : State) : Out := .next (s.waitSatisfied k)

/-- WAIT_PACKET_TIMEOUT (R110). -/
def execWaitPacketTimeout (k : Nat) (s : State) : Out := .next (s.waitTimeout k)

/-- COPY_PACKET_COMPLETE (R116). -/
def execCopyPacketComplete (k : Nat) (s : State) : Out := .next (s.copyPktDone k)

/-- COPY_PACKET_FAULT (R457). -/
def execCopyPacketFault (k : Nat) (s : State) : Out := .next (s.copyPktFault k)

/-- SYS_COMPLETION (R122). -/
def execSysCompletion (k : Nat) (s : State) : Out := .next (s.sysCompletion k)

/-- SYS_REISSUE (R122). -/
def execSysReissue (c : Nat) (s : State) : Out := .next (s.sysReissue c)

/-- LAUNCH_PLACE (R155). -/
def execLaunchPlace (p : Nat) (s : State) : Out := .next (s.launchPlace p)

/-- PRIORITY_AGING (R154). -/
def execPriorityAging (l : Nat) (s : State) : Out := .next (s.age l)

/-- TEAM_START (R160). -/
def execTeamStart (l : Nat) (s : State) : Out := .next (s.teamStart l)

/-- QUANTUM_EXPIRY (R158). -/
def execQuantumExpiry (l : Nat) (s : State) : Out := .next (s.quantumExpiry l)

/-- IMAGE_SAVED (R170). -/
def execImageSaved (c : Nat) (s : State) : Out := .next (s.imageSaved c)

/-- CLUSTER_RECLAIM (R162). -/
def execClusterReclaim (cl : Nat) (s : State) : Out := .next (s.reclaim cl)

/-- RECLAIM_RETRY (R171). -/
def execReclaimRetry (cl : Nat) (s : State) : Out := .next (s.reclaimRetry cl)

/-- CLUSTER_RETURN (R163). -/
def execClusterReturn (cl : Nat) (s : State) : Out := .next (s.clusterReturn cl)

/-- LAUNCH_DRAINED (R153). -/
def execLaunchDrained (l : Nat) (s : State) : Out := .next (s.launchDrained l)

/-- PARTITION_PLAN_APPLY (R161). -/
def execPartitionPlanApply (plan : Plan) (s : State) : Out := .next (s.partitionPlanApply plan)

/-- PARTITION_RESET (R162). -/
def execPartitionReset (p : Nat) (s : State) : Out := .next (s.partitionReset p)

/-- REGISTER_WRITE (R5). -/
def execRegisterWrite (off : Nat) (v : Word) (s : State) : Out := .next (s.registerWrite off v)

/-- HOST_STORE (R263). -/
def execHostStore (pa : Nat) (bytes : List Byte) (s : State) : Out := s.hostStore pa bytes

end Sys2Proof.Machine
end

