-- ==== Sys2Proof/Machine/ExecLantern.lean ====
section
/-! DEFINITION. The operations of the lantern context, and ILL, each as a bundle that holds its one trigger: what the trigger does is written with its unit; a bundle of several moves is ExecMove's BUNDLE_ISSUE. -/
namespace Sys2Proof.Machine
open Sys2Proof

/-- ERET (R438), as the one move of a bundle. -/
def execEret (g : BitVec 3) (e : Bool) (src : BitVec 10) (s : State) : Out := s.issueMove (moveNat g e src 0x2F0)

/-- SNAP (R176), as the one move of a bundle. -/
def execSnap (g : BitVec 3) (e : Bool) (src : BitVec 10) (s : State) : Out := s.issueMove (moveNat g e src 0x2F1)

/-- SNAPR (R176), as the one move of a bundle. -/
def execSnapr (g : BitVec 3) (e : Bool) (src : BitVec 10) (s : State) : Out := s.issueMove (moveNat g e src 0x2F2)

/-- SEGREW (R439), as the one move of a bundle. -/
def execSegrew (g : BitVec 3) (e : Bool) (src : BitVec 10) (s : State) : Out := s.issueMove (moveNat g e src 0x2F3)

/-- INJ (R440), as the one move of a bundle. -/
def execInj (g : BitVec 3) (e : Bool) (src : BitVec 10) (s : State) : Out := s.issueMove (moveNat g e src 0x2F4)

/-- FCSR (R441), as the one move of a bundle. -/
def execFcsr (g : BitVec 3) (e : Bool) (src : BitVec 10) (s : State) : Out := s.issueMove (moveNat g e src 0x2F5)

/-- TLBI (R283), as the one move of a bundle. -/
def execTlbi (g : BitVec 3) (e : Bool) (src : BitVec 10) (s : State) : Out := s.issueMove (moveNat g e src 0x2F6)

/-- FAULTQ (R442), as the one move of a bundle. -/
def execFaultq (g : BitVec 3) (e : Bool) (src : BitVec 10) (s : State) : Out := s.issueMove (moveNat g e src 0x2F7)

/-- PARK (R177), as the one move of a bundle. -/
def execPark (g : BitVec 3) (e : Bool) (src : BitVec 10) (s : State) : Out := s.issueMove (moveNat g e src 0x2F8)

/-- UNPARK (R177), as the one move of a bundle. -/
def execUnpark (g : BitVec 3) (e : Bool) (src : BitVec 10) (s : State) : Out := s.issueMove (moveNat g e src 0x2F9)

/-- DUMP (R443), as the one move of a bundle. -/
def execDump (g : BitVec 3) (e : Bool) (src : BitVec 10) (s : State) : Out := s.issueMove (moveNat g e src 0x2FA)

/-- FWSHARE (R178), as the one move of a bundle. -/
def execFwshare (g : BitVec 3) (e : Bool) (src : BitVec 10) (s : State) : Out := s.issueMove (moveNat g e src 0x2FB)

/-- SLOTW (R179), as the one move of a bundle. -/
def execSlotw (g : BitVec 3) (e : Bool) (src : BitVec 10) (s : State) : Out := s.issueMove (moveNat g e src 0x2FC)

/-- KEYOP (R450), as the one move of a bundle. -/
def execKeyop (g : BitVec 3) (e : Bool) (src : BitVec 10) (s : State) : Out := s.issueMove (moveNat g e src 0x2FD)

/-- IDLE (R180), as the one move of a bundle. -/
def execIdle (g : BitVec 3) (e : Bool) (src : BitVec 10) (s : State) : Out := s.issueMove (moveNat g e src 0x2FE)

/-- ILL (R49), as the one move of a bundle. -/
def execIll (g : BitVec 3) (e : Bool) (src : BitVec 10) (s : State) : Out := s.issueMove (moveNat g e src 0x2FF)

end Sys2Proof.Machine
end

