-- ==== Sys2Proof/Machine/ExecMatrix.lean ====
section
/-! DEFINITION. The operations of the matrix unit, each as a bundle that holds its one trigger: what the trigger does is written with its unit; a bundle of several moves is ExecMove's BUNDLE_ISSUE. -/
namespace Sys2Proof.Machine
open Sys2Proof

/-- MMA (R240), as the one move of a bundle. -/
def execMma (g : BitVec 3) (e : Bool) (src : BitVec 10) (s : State) : Out := s.issueMove (moveNat g e src 0x2B0)

/-- MMAG (R240), as the one move of a bundle. -/
def execMmag (g : BitVec 3) (e : Bool) (src : BitVec 10) (s : State) : Out := s.issueMove (moveNat g e src 0x2B1)

/-- MZERO (R242), as the one move of a bundle. -/
def execMzero (g : BitVec 3) (e : Bool) (src : BitVec 10) (s : State) : Out := s.issueMove (moveNat g e src 0x2B2)

/-- MLDC (R243), as the one move of a bundle. -/
def execMldc (g : BitVec 3) (e : Bool) (src : BitVec 10) (s : State) : Out := s.issueMove (moveNat g e src 0x2B3)

/-- MSTC (R243), as the one move of a bundle. -/
def execMstc (g : BitVec 3) (e : Bool) (src : BitVec 10) (s : State) : Out := s.issueMove (moveNat g e src 0x2B4)

/-- MCVT (R244), as the one move of a bundle. -/
def execMcvt (g : BitVec 3) (e : Bool) (src : BitVec 10) (s : State) : Out := s.issueMove (moveNat g e src 0x2B5)

/-- TIDW (R248), as the one move of a bundle. -/
def execTidw (g : BitVec 3) (e : Bool) (src : BitVec 10) (s : State) : Out := s.issueMove (moveNat g e src 0x2B6)

/-- TIDR (R248), as the one move of a bundle. -/
def execTidr (g : BitVec 3) (e : Bool) (src : BitVec 10) (s : State) : Out := s.issueMove (moveNat g e src 0x2B7)

/-- CBLD (R249), as the one move of a bundle. -/
def execCbld (g : BitVec 3) (e : Bool) (src : BitVec 10) (s : State) : Out := s.issueMove (moveNat g e src 0x2B8)

/-- MSEQ (R241), as the one move of a bundle. -/
def execMseq (g : BitVec 3) (e : Bool) (src : BitVec 10) (s : State) : Out := s.issueMove (moveNat g e src 0x2B9)

/-- MSTAT (R247), as the one move of a bundle. -/
def execMstat (g : BitVec 3) (e : Bool) (src : BitVec 10) (s : State) : Out := s.issueMove (moveNat g e src 0x2BA)

/-- MWIN (R250), as the one move of a bundle. -/
def execMwin (g : BitVec 3) (e : Bool) (src : BitVec 10) (s : State) : Out := s.issueMove (moveNat g e src 0x2BB)

/-- MACC (R245), as the one move of a bundle. -/
def execMacc (g : BitVec 3) (e : Bool) (src : BitVec 10) (s : State) : Out := s.issueMove (moveNat g e src 0x2BC)

/-- MTRN (R245), as the one move of a bundle. -/
def execMtrn (g : BitVec 3) (e : Bool) (src : BitVec 10) (s : State) : Out := s.issueMove (moveNat g e src 0x2BD)

/-- MCHK (R246), as the one move of a bundle. -/
def execMchk (g : BitVec 3) (e : Bool) (src : BitVec 10) (s : State) : Out := s.issueMove (moveNat g e src 0x2BE)

/-- MSCALE (R245), as the one move of a bundle. -/
def execMscale (g : BitVec 3) (e : Bool) (src : BitVec 10) (s : State) : Out := s.issueMove (moveNat g e src 0x2BF)

end Sys2Proof.Machine
end

