-- ==== Sys2Proof/Machine/ExecMemory.lean ====
section
/-! DEFINITION. The load/store unit's operations, each as a bundle that holds its one trigger: what the trigger does is written with its unit; a bundle of several moves is ExecMove's BUNDLE_ISSUE. -/
namespace Sys2Proof.Machine
open Sys2Proof

/-- LD_B (R274), as the one move of a bundle. -/
def execLdB (g : BitVec 3) (e : Bool) (src : BitVec 10) (s : State) : Out := s.issueMove (moveNat g e src 0x260)

/-- LD_H (R274), as the one move of a bundle. -/
def execLdH (g : BitVec 3) (e : Bool) (src : BitVec 10) (s : State) : Out := s.issueMove (moveNat g e src 0x261)

/-- LD_W (R274), as the one move of a bundle. -/
def execLdW (g : BitVec 3) (e : Bool) (src : BitVec 10) (s : State) : Out := s.issueMove (moveNat g e src 0x262)

/-- LD_D (R274), as the one move of a bundle. -/
def execLdD (g : BitVec 3) (e : Bool) (src : BitVec 10) (s : State) : Out := s.issueMove (moveNat g e src 0x263)

/-- LDS_B (R274), as the one move of a bundle. -/
def execLdsB (g : BitVec 3) (e : Bool) (src : BitVec 10) (s : State) : Out := s.issueMove (moveNat g e src 0x264)

/-- LDS_H (R274), as the one move of a bundle. -/
def execLdsH (g : BitVec 3) (e : Bool) (src : BitVec 10) (s : State) : Out := s.issueMove (moveNat g e src 0x265)

/-- LDS_W (R274), as the one move of a bundle. -/
def execLdsW (g : BitVec 3) (e : Bool) (src : BitVec 10) (s : State) : Out := s.issueMove (moveNat g e src 0x266)

/-- ST_B (R275), as the one move of a bundle. -/
def execStB (g : BitVec 3) (e : Bool) (src : BitVec 10) (s : State) : Out := s.issueMove (moveNat g e src 0x267)

/-- ST_H (R275), as the one move of a bundle. -/
def execStH (g : BitVec 3) (e : Bool) (src : BitVec 10) (s : State) : Out := s.issueMove (moveNat g e src 0x268)

/-- ST_W (R275), as the one move of a bundle. -/
def execStW (g : BitVec 3) (e : Bool) (src : BitVec 10) (s : State) : Out := s.issueMove (moveNat g e src 0x269)

/-- ST_D (R275), as the one move of a bundle. -/
def execStD (g : BitVec 3) (e : Bool) (src : BitVec 10) (s : State) : Out := s.issueMove (moveNat g e src 0x26A)

/-- VLD (R276), as the one move of a bundle. -/
def execVld (g : BitVec 3) (e : Bool) (src : BitVec 10) (s : State) : Out := s.issueMove (moveNat g e src 0x26B)

/-- VST (R276), as the one move of a bundle. -/
def execVst (g : BitVec 3) (e : Bool) (src : BitVec 10) (s : State) : Out := s.issueMove (moveNat g e src 0x26C)

/-- VGATH (R277), as the one move of a bundle. -/
def execVgath (g : BitVec 3) (e : Bool) (src : BitVec 10) (s : State) : Out := s.issueMove (moveNat g e src 0x26D)

/-- VSCAT (R277), as the one move of a bundle. -/
def execVscat (g : BitVec 3) (e : Bool) (src : BitVec 10) (s : State) : Out := s.issueMove (moveNat g e src 0x26E)

/-- LDR (R278), as the one move of a bundle. -/
def execLdr (g : BitVec 3) (e : Bool) (src : BitVec 10) (s : State) : Out := s.issueMove (moveNat g e src 0x26F)

/-- AMO (R349), as the one move of a bundle. -/
def execAmo (g : BitVec 3) (e : Bool) (src : BitVec 10) (s : State) : Out := s.issueMove (moveNat g e src 0x270)

/-- CAS (R350), as the one move of a bundle. -/
def execCas (g : BitVec 3) (e : Bool) (src : BitVec 10) (s : State) : Out := s.issueMove (moveNat g e src 0x271)

/-- QINCB (R351), as the one move of a bundle. -/
def execQincb (g : BitVec 3) (e : Bool) (src : BitVec 10) (s : State) : Out := s.issueMove (moveNat g e src 0x272)

/-- QINCW (R351), as the one move of a bundle. -/
def execQincw (g : BitVec 3) (e : Bool) (src : BitVec 10) (s : State) : Out := s.issueMove (moveNat g e src 0x273)

/-- QDECP (R351), as the one move of a bundle. -/
def execQdecp (g : BitVec 3) (e : Bool) (src : BitVec 10) (s : State) : Out := s.issueMove (moveNat g e src 0x274)

/-- QADDL (R351), as the one move of a bundle. -/
def execQaddl (g : BitVec 3) (e : Bool) (src : BitVec 10) (s : State) : Out := s.issueMove (moveNat g e src 0x275)

/-- CTRADD (R352), as the one move of a bundle. -/
def execCtradd (g : BitVec 3) (e : Bool) (src : BitVec 10) (s : State) : Out := s.issueMove (moveNat g e src 0x276)

/-- CTRWAIT (R353), as the one move of a bundle. -/
def execCtrwait (g : BitVec 3) (e : Bool) (src : BitVec 10) (s : State) : Out := s.issueMove (moveNat g e src 0x277)

/-- CTRRD (R354), as the one move of a bundle. -/
def execCtrrd (g : BitVec 3) (e : Bool) (src : BitVec 10) (s : State) : Out := s.issueMove (moveNat g e src 0x278)

/-- BARINIT (R355), as the one move of a bundle. -/
def execBarinit (g : BitVec 3) (e : Bool) (src : BitVec 10) (s : State) : Out := s.issueMove (moveNat g e src 0x279)

/-- BARV (R356), as the one move of a bundle. -/
def execBarv (g : BitVec 3) (e : Bool) (src : BitVec 10) (s : State) : Out := s.issueMove (moveNat g e src 0x27A)

/-- BARW (R357), as the one move of a bundle. -/
def execBarw (g : BitVec 3) (e : Bool) (src : BitVec 10) (s : State) : Out := s.issueMove (moveNat g e src 0x27B)

/-- FENCE (R279), as the one move of a bundle. -/
def execFence (g : BitVec 3) (e : Bool) (src : BitVec 10) (s : State) : Out := s.issueMove (moveNat g e src 0x27C)

/-- TLOOK (R280), as the one move of a bundle. -/
def execTlook (g : BitVec 3) (e : Bool) (src : BitVec 10) (s : State) : Out := s.issueMove (moveNat g e src 0x27D)

/-- TSET (R280), as the one move of a bundle. -/
def execTset (g : BitVec 3) (e : Bool) (src : BitVec 10) (s : State) : Out := s.issueMove (moveNat g e src 0x27E)

/-- BND (R282), as the one move of a bundle. -/
def execBnd (g : BitVec 3) (e : Bool) (src : BitVec 10) (s : State) : Out := s.issueMove (moveNat g e src 0x27F)

end Sys2Proof.Machine
end

