-- ==== Sys2Proof/Machine/ExecMove.lean ====
section
/-! DEFINITION. Bundles, and the moves that start no operation. -/
namespace Sys2Proof.Machine
open Sys2Proof

/-- BUNDLE_ISSUE (R24). -/
def execBundleIssue (b : Bundle) (s : State) : Out := s.issueBundle b

/-- MOVE_REGISTER (R31). -/
def execMoveRegister (g : BitVec 3) (e : Bool) (src : BitVec 10) (r : BitVec 8) (s : State) : Out := s.issueMove (moveNat g e src r.toNat)

/-- MOVE_PORT (R31). -/
def execMovePort (g : BitVec 3) (e : Bool) (src : BitVec 10) (u : BitVec 3) (p : BitVec 5) (s : State) : Out := s.issueMove (moveNat g e src (0x100 + u.toNat * 32 + p.toNat))

/-- DISCARD (R31). -/
def execDiscard (g : BitVec 3) (e : Bool) (src : BitVec 10) (s : State) : Out := s.issueMove (moveNat g e src 0x300)

/-- BUSDRIVE (R302). -/
def execBusdrive (g : BitVec 3) (e : Bool) (src : BitVec 10) (s : State) : Out := s.issueMove (moveNat g e src 0x301)

/-- BUSLAND (R302). -/
def execBusland (g : BitVec 3) (e : Bool) (src : BitVec 10) (s : State) : Out := s.issueMove (moveNat g e src 0x302)

/-- EMPTY_MOVE (R29). -/
def execEmptyMove (s : State) : Out := s.issueMove 0

end Sys2Proof.Machine
end

