-- ==== Sys2Proof/Machine/ExecPorter.lean ====
section
/-! DEFINITION. The instructions of the porters. -/
namespace Sys2Proof.Machine
open Sys2Proof

/-- PLD (R307). -/
def execPld (rs2 : BitVec 5) (rs1 : BitVec 5) (rd : BitVec 5) (s : State) : Out := s.onPorter (fun (s : State) (c side : Nat) => s.porterCopy c side false rs2 rs1 rd)

/-- PST (R307). -/
def execPst (rs2 : BitVec 5) (rs1 : BitVec 5) (rd : BitVec 5) (s : State) : Out := s.onPorter (fun (s : State) (c side : Nat) => s.porterCopy c side true rs2 rs1 rd)

/-- PLDS (R307). -/
def execPlds (rs1 : BitVec 5) (rd : BitVec 5) (s : State) : Out := s.onPorter (fun (s : State) (c side : Nat) => s.porterLoad c side rs1 rd)

/-- PGATH (R307). -/
def execPgath (rs2 : BitVec 5) (rs1 : BitVec 5) (rd : BitVec 5) (s : State) : Out := s.onPorter (fun (s : State) (c side : Nat) => s.porterGather c side rs2 rs1 rd)

/-- PCTR (R307). -/
def execPctr (rs2 : BitVec 5) (rs1 : BitVec 5) (rd : BitVec 5) (s : State) : Out := s.onPorter (fun (s : State) (c side : Nat) => s.porterAdd c side rs2 rs1 rd)

/-- PWAIT (R307). -/
def execPwait (rs2 : BitVec 5) (rs1 : BitVec 5) (rd : BitVec 5) (s : State) : Out := s.onPorter (fun (s : State) (c side : Nat) => s.porterWait c side rs2 rs1 rd)

/-- PTOK (R307). -/
def execPtok (rs2 : BitVec 5) (rs1 : BitVec 5) (rd : BitVec 5) (s : State) : Out := s.onPorter (fun (s : State) (c side : Nat) => s.porterToken c side rs2 rs1 rd)

/-- PSIGW (R307). -/
def execPsigw (rd : BitVec 5) (s : State) : Out := s.onPorter (fun (s : State) (c side : Nat) => s.porterSigw c side rd)

/-- PFENCE (R307). -/
def execPfence (rd : BitVec 5) (s : State) : Out := s.onPorter (fun (s : State) (c side : Nat) => s.porterFence c side rd)

/-- PORTER_RV32IM_INSTRUCTION (R305): a word that is none of RV32IM's raises the illegal-instruction exception. -/
def execPorterRv32imInstruction (w : BitVec 32) (s : State) : Out :=
  s.onPorter (fun (s : State) (c side : Nat) => match Rv32.decode w with
    | some i => s.porterRv c side i
    | none => s.porterTrap c side 2)

end Sys2Proof.Machine
end

