-- ==== Sys2Proof/Machine/ExecScalar.lean ====
section
/-! DEFINITION. The scalar operations, each as a bundle that holds its one trigger: what the trigger does is written with its unit; a bundle of several moves is ExecMove's BUNDLE_ISSUE. -/
namespace Sys2Proof.Machine
open Sys2Proof

/-- ADD (R184), as the one move of a bundle. -/
def execAdd (g : BitVec 3) (e : Bool) (src : BitVec 10) (s : State) : Out := s.issueMove (moveNat g e src 0x200)

/-- SUB (R184), as the one move of a bundle. -/
def execSub (g : BitVec 3) (e : Bool) (src : BitVec 10) (s : State) : Out := s.issueMove (moveNat g e src 0x201)

/-- ADDW (R184), as the one move of a bundle. -/
def execAddw (g : BitVec 3) (e : Bool) (src : BitVec 10) (s : State) : Out := s.issueMove (moveNat g e src 0x202)

/-- SUBW (R184), as the one move of a bundle. -/
def execSubw (g : BitVec 3) (e : Bool) (src : BitVec 10) (s : State) : Out := s.issueMove (moveNat g e src 0x203)

/-- MUL (R185), as the one move of a bundle. -/
def execMul (g : BitVec 3) (e : Bool) (src : BitVec 10) (s : State) : Out := s.issueMove (moveNat g e src 0x204)

/-- MULH (R185), as the one move of a bundle. -/
def execMulh (g : BitVec 3) (e : Bool) (src : BitVec 10) (s : State) : Out := s.issueMove (moveNat g e src 0x205)

/-- MULHU (R185), as the one move of a bundle. -/
def execMulhu (g : BitVec 3) (e : Bool) (src : BitVec 10) (s : State) : Out := s.issueMove (moveNat g e src 0x206)

/-- MULW (R185), as the one move of a bundle. -/
def execMulw (g : BitVec 3) (e : Bool) (src : BitVec 10) (s : State) : Out := s.issueMove (moveNat g e src 0x207)

/-- DIV (R186), as the one move of a bundle. -/
def execDiv (g : BitVec 3) (e : Bool) (src : BitVec 10) (s : State) : Out := s.issueMove (moveNat g e src 0x208)

/-- DIVU (R186), as the one move of a bundle. -/
def execDivu (g : BitVec 3) (e : Bool) (src : BitVec 10) (s : State) : Out := s.issueMove (moveNat g e src 0x209)

/-- REM (R186), as the one move of a bundle. -/
def execRem (g : BitVec 3) (e : Bool) (src : BitVec 10) (s : State) : Out := s.issueMove (moveNat g e src 0x20A)

/-- REMU (R186), as the one move of a bundle. -/
def execRemu (g : BitVec 3) (e : Bool) (src : BitVec 10) (s : State) : Out := s.issueMove (moveNat g e src 0x20B)

/-- AND (R187), as the one move of a bundle. -/
def execAnd (g : BitVec 3) (e : Bool) (src : BitVec 10) (s : State) : Out := s.issueMove (moveNat g e src 0x20C)

/-- OR (R187), as the one move of a bundle. -/
def execOr (g : BitVec 3) (e : Bool) (src : BitVec 10) (s : State) : Out := s.issueMove (moveNat g e src 0x20D)

/-- XOR (R187), as the one move of a bundle. -/
def execXor (g : BitVec 3) (e : Bool) (src : BitVec 10) (s : State) : Out := s.issueMove (moveNat g e src 0x20E)

/-- ANDN (R187), as the one move of a bundle. -/
def execAndn (g : BitVec 3) (e : Bool) (src : BitVec 10) (s : State) : Out := s.issueMove (moveNat g e src 0x20F)

/-- SLL (R187), as the one move of a bundle. -/
def execSll (g : BitVec 3) (e : Bool) (src : BitVec 10) (s : State) : Out := s.issueMove (moveNat g e src 0x210)

/-- SRL (R187), as the one move of a bundle. -/
def execSrl (g : BitVec 3) (e : Bool) (src : BitVec 10) (s : State) : Out := s.issueMove (moveNat g e src 0x211)

/-- SRA (R187), as the one move of a bundle. -/
def execSra (g : BitVec 3) (e : Bool) (src : BitVec 10) (s : State) : Out := s.issueMove (moveNat g e src 0x212)

/-- ROL (R187), as the one move of a bundle. -/
def execRol (g : BitVec 3) (e : Bool) (src : BitVec 10) (s : State) : Out := s.issueMove (moveNat g e src 0x213)

/-- CLZ (R188), as the one move of a bundle. -/
def execClz (g : BitVec 3) (e : Bool) (src : BitVec 10) (s : State) : Out := s.issueMove (moveNat g e src 0x214)

/-- CTZ (R188), as the one move of a bundle. -/
def execCtz (g : BitVec 3) (e : Bool) (src : BitVec 10) (s : State) : Out := s.issueMove (moveNat g e src 0x215)

/-- POPC (R188), as the one move of a bundle. -/
def execPopc (g : BitVec 3) (e : Bool) (src : BitVec 10) (s : State) : Out := s.issueMove (moveNat g e src 0x216)

/-- BREV (R188), as the one move of a bundle. -/
def execBrev (g : BitVec 3) (e : Bool) (src : BitVec 10) (s : State) : Out := s.issueMove (moveNat g e src 0x217)

/-- MIN (R189), as the one move of a bundle. -/
def execMin (g : BitVec 3) (e : Bool) (src : BitVec 10) (s : State) : Out := s.issueMove (moveNat g e src 0x218)

/-- MAX (R189), as the one move of a bundle. -/
def execMax (g : BitVec 3) (e : Bool) (src : BitVec 10) (s : State) : Out := s.issueMove (moveNat g e src 0x219)

/-- MINU (R189), as the one move of a bundle. -/
def execMinu (g : BitVec 3) (e : Bool) (src : BitVec 10) (s : State) : Out := s.issueMove (moveNat g e src 0x21A)

/-- MAXU (R189), as the one move of a bundle. -/
def execMaxu (g : BitVec 3) (e : Bool) (src : BitVec 10) (s : State) : Out := s.issueMove (moveNat g e src 0x21B)

/-- ABS (R189), as the one move of a bundle. -/
def execAbs (g : BitVec 3) (e : Bool) (src : BitVec 10) (s : State) : Out := s.issueMove (moveNat g e src 0x21C)

/-- NEG (R189), as the one move of a bundle. -/
def execNeg (g : BitVec 3) (e : Bool) (src : BitVec 10) (s : State) : Out := s.issueMove (moveNat g e src 0x21D)

/-- ADDS (R184), as the one move of a bundle. -/
def execAdds (g : BitVec 3) (e : Bool) (src : BitVec 10) (s : State) : Out := s.issueMove (moveNat g e src 0x21E)

/-- SUBS (R184), as the one move of a bundle. -/
def execSubs (g : BitVec 3) (e : Bool) (src : BitVec 10) (s : State) : Out := s.issueMove (moveNat g e src 0x21F)

/-- CEQ (R190), as the one move of a bundle. -/
def execCeq (g : BitVec 3) (e : Bool) (src : BitVec 10) (s : State) : Out := s.issueMove (moveNat g e src 0x220)

/-- CNE (R190), as the one move of a bundle. -/
def execCne (g : BitVec 3) (e : Bool) (src : BitVec 10) (s : State) : Out := s.issueMove (moveNat g e src 0x221)

/-- CLT (R190), as the one move of a bundle. -/
def execClt (g : BitVec 3) (e : Bool) (src : BitVec 10) (s : State) : Out := s.issueMove (moveNat g e src 0x222)

/-- CLTU (R190), as the one move of a bundle. -/
def execCltu (g : BitVec 3) (e : Bool) (src : BitVec 10) (s : State) : Out := s.issueMove (moveNat g e src 0x223)

/-- CLE (R190), as the one move of a bundle. -/
def execCle (g : BitVec 3) (e : Bool) (src : BitVec 10) (s : State) : Out := s.issueMove (moveNat g e src 0x224)

/-- CLEU (R190), as the one move of a bundle. -/
def execCleu (g : BitVec 3) (e : Bool) (src : BitVec 10) (s : State) : Out := s.issueMove (moveNat g e src 0x225)

/-- CTST (R190), as the one move of a bundle. -/
def execCtst (g : BitVec 3) (e : Bool) (src : BitVec 10) (s : State) : Out := s.issueMove (moveNat g e src 0x226)

/-- CBIT (R190), as the one move of a bundle. -/
def execCbit (g : BitVec 3) (e : Bool) (src : BitVec 10) (s : State) : Out := s.issueMove (moveNat g e src 0x227)

/-- SEL (R191), as the one move of a bundle. -/
def execSel (g : BitVec 3) (e : Bool) (src : BitVec 10) (s : State) : Out := s.issueMove (moveNat g e src 0x228)

/-- EXT (R192), as the one move of a bundle. -/
def execExt (g : BitVec 3) (e : Bool) (src : BitVec 10) (s : State) : Out := s.issueMove (moveNat g e src 0x229)

/-- EXTU (R192), as the one move of a bundle. -/
def execExtu (g : BitVec 3) (e : Bool) (src : BitVec 10) (s : State) : Out := s.issueMove (moveNat g e src 0x22A)

/-- INS (R192), as the one move of a bundle. -/
def execIns (g : BitVec 3) (e : Bool) (src : BitVec 10) (s : State) : Out := s.issueMove (moveNat g e src 0x22B)

/-- LEA (R193), as the one move of a bundle. -/
def execLea (g : BitVec 3) (e : Bool) (src : BitVec 10) (s : State) : Out := s.issueMove (moveNat g e src 0x22C)

/-- LEA2 (R193), as the one move of a bundle. -/
def execLea2 (g : BitVec 3) (e : Bool) (src : BitVec 10) (s : State) : Out := s.issueMove (moveNat g e src 0x22D)

/-- MOVK (R193), as the one move of a bundle. -/
def execMovk (g : BitVec 3) (e : Bool) (src : BitVec 10) (s : State) : Out := s.issueMove (moveNat g e src 0x22E)

/-- CRC (R198), as the one move of a bundle. -/
def execCrc (g : BitVec 3) (e : Bool) (src : BitVec 10) (s : State) : Out := s.issueMove (moveNat g e src 0x22F)

/-- PAND (R194), as the one move of a bundle. -/
def execPand (g : BitVec 3) (e : Bool) (src : BitVec 10) (s : State) : Out := s.issueMove (moveNat g e src 0x230)

/-- POR (R194), as the one move of a bundle. -/
def execPor (g : BitVec 3) (e : Bool) (src : BitVec 10) (s : State) : Out := s.issueMove (moveNat g e src 0x231)

/-- PXOR (R194), as the one move of a bundle. -/
def execPxor (g : BitVec 3) (e : Bool) (src : BitVec 10) (s : State) : Out := s.issueMove (moveNat g e src 0x232)

/-- PNOT (R194), as the one move of a bundle. -/
def execPnot (g : BitVec 3) (e : Bool) (src : BitVec 10) (s : State) : Out := s.issueMove (moveNat g e src 0x233)

/-- PANDN (R194), as the one move of a bundle. -/
def execPandn (g : BitVec 3) (e : Bool) (src : BitVec 10) (s : State) : Out := s.issueMove (moveNat g e src 0x234)

/-- PMOV (R194), as the one move of a bundle. -/
def execPmov (g : BitVec 3) (e : Bool) (src : BitVec 10) (s : State) : Out := s.issueMove (moveNat g e src 0x235)

/-- PGET (R194), as the one move of a bundle. -/
def execPget (g : BitVec 3) (e : Bool) (src : BitVec 10) (s : State) : Out := s.issueMove (moveNat g e src 0x236)

/-- PALL (R194), as the one move of a bundle. -/
def execPall (g : BitVec 3) (e : Bool) (src : BitVec 10) (s : State) : Out := s.issueMove (moveNat g e src 0x237)

/-- CHKEQ (R195), as the one move of a bundle. -/
def execChkeq (g : BitVec 3) (e : Bool) (src : BitVec 10) (s : State) : Out := s.issueMove (moveNat g e src 0x238)

/-- CHKP (R195), as the one move of a bundle. -/
def execChkp (g : BitVec 3) (e : Bool) (src : BitVec 10) (s : State) : Out := s.issueMove (moveNat g e src 0x239)

/-- RDSPEC (R196), as the one move of a bundle. -/
def execRdspec (g : BitVec 3) (e : Bool) (src : BitVec 10) (s : State) : Out := s.issueMove (moveNat g e src 0x23A)

/-- WRSPEC (R196), as the one move of a bundle. -/
def execWrspec (g : BitVec 3) (e : Bool) (src : BitVec 10) (s : State) : Out := s.issueMove (moveNat g e src 0x23B)

/-- RAND (R197), as the one move of a bundle. -/
def execRand (g : BitVec 3) (e : Bool) (src : BitVec 10) (s : State) : Out := s.issueMove (moveNat g e src 0x23C)

/-- MIX (R198), as the one move of a bundle. -/
def execMix (g : BitVec 3) (e : Bool) (src : BitVec 10) (s : State) : Out := s.issueMove (moveNat g e src 0x23D)

/-- BSWAP (R198), as the one move of a bundle. -/
def execBswap (g : BitVec 3) (e : Bool) (src : BitVec 10) (s : State) : Out := s.issueMove (moveNat g e src 0x23E)

/-- NOP (R199), as the one move of a bundle. -/
def execNop (g : BitVec 3) (e : Bool) (src : BitVec 10) (s : State) : Out := s.issueMove (moveNat g e src 0x23F)

/-- FADD_D (R201), as the one move of a bundle. -/
def execFaddD (g : BitVec 3) (e : Bool) (src : BitVec 10) (s : State) : Out := s.issueMove (moveNat g e src 0x240)

/-- FSUB_D (R201), as the one move of a bundle. -/
def execFsubD (g : BitVec 3) (e : Bool) (src : BitVec 10) (s : State) : Out := s.issueMove (moveNat g e src 0x241)

/-- FMUL_D (R201), as the one move of a bundle. -/
def execFmulD (g : BitVec 3) (e : Bool) (src : BitVec 10) (s : State) : Out := s.issueMove (moveNat g e src 0x242)

/-- FFMA_D (R201), as the one move of a bundle. -/
def execFfmaD (g : BitVec 3) (e : Bool) (src : BitVec 10) (s : State) : Out := s.issueMove (moveNat g e src 0x243)

/-- FDIV_D (R201), as the one move of a bundle. -/
def execFdivD (g : BitVec 3) (e : Bool) (src : BitVec 10) (s : State) : Out := s.issueMove (moveNat g e src 0x244)

/-- FSQRT_D (R201), as the one move of a bundle. -/
def execFsqrtD (g : BitVec 3) (e : Bool) (src : BitVec 10) (s : State) : Out := s.issueMove (moveNat g e src 0x245)

/-- FMIN_D (R202), as the one move of a bundle. -/
def execFminD (g : BitVec 3) (e : Bool) (src : BitVec 10) (s : State) : Out := s.issueMove (moveNat g e src 0x246)

/-- FMAX_D (R202), as the one move of a bundle. -/
def execFmaxD (g : BitVec 3) (e : Bool) (src : BitVec 10) (s : State) : Out := s.issueMove (moveNat g e src 0x247)

/-- FADD_S (R201), as the one move of a bundle. -/
def execFaddS (g : BitVec 3) (e : Bool) (src : BitVec 10) (s : State) : Out := s.issueMove (moveNat g e src 0x248)

/-- FSUB_S (R201), as the one move of a bundle. -/
def execFsubS (g : BitVec 3) (e : Bool) (src : BitVec 10) (s : State) : Out := s.issueMove (moveNat g e src 0x249)

/-- FMUL_S (R201), as the one move of a bundle. -/
def execFmulS (g : BitVec 3) (e : Bool) (src : BitVec 10) (s : State) : Out := s.issueMove (moveNat g e src 0x24A)

/-- FFMA_S (R201), as the one move of a bundle. -/
def execFfmaS (g : BitVec 3) (e : Bool) (src : BitVec 10) (s : State) : Out := s.issueMove (moveNat g e src 0x24B)

/-- FDIV_S (R201), as the one move of a bundle. -/
def execFdivS (g : BitVec 3) (e : Bool) (src : BitVec 10) (s : State) : Out := s.issueMove (moveNat g e src 0x24C)

/-- FSQRT_S (R201), as the one move of a bundle. -/
def execFsqrtS (g : BitVec 3) (e : Bool) (src : BitVec 10) (s : State) : Out := s.issueMove (moveNat g e src 0x24D)

/-- FMIN_S (R202), as the one move of a bundle. -/
def execFminS (g : BitVec 3) (e : Bool) (src : BitVec 10) (s : State) : Out := s.issueMove (moveNat g e src 0x24E)

/-- FMAX_S (R202), as the one move of a bundle. -/
def execFmaxS (g : BitVec 3) (e : Bool) (src : BitVec 10) (s : State) : Out := s.issueMove (moveNat g e src 0x24F)

/-- FCEQ_D (R203), as the one move of a bundle. -/
def execFceqD (g : BitVec 3) (e : Bool) (src : BitVec 10) (s : State) : Out := s.issueMove (moveNat g e src 0x250)

/-- FCLT_D (R203), as the one move of a bundle. -/
def execFcltD (g : BitVec 3) (e : Bool) (src : BitVec 10) (s : State) : Out := s.issueMove (moveNat g e src 0x251)

/-- FCLE_D (R203), as the one move of a bundle. -/
def execFcleD (g : BitVec 3) (e : Bool) (src : BitVec 10) (s : State) : Out := s.issueMove (moveNat g e src 0x252)

/-- FCEQ_S (R203), as the one move of a bundle. -/
def execFceqS (g : BitVec 3) (e : Bool) (src : BitVec 10) (s : State) : Out := s.issueMove (moveNat g e src 0x253)

/-- FCLT_S (R203), as the one move of a bundle. -/
def execFcltS (g : BitVec 3) (e : Bool) (src : BitVec 10) (s : State) : Out := s.issueMove (moveNat g e src 0x254)

/-- FCLE_S (R203), as the one move of a bundle. -/
def execFcleS (g : BitVec 3) (e : Bool) (src : BitVec 10) (s : State) : Out := s.issueMove (moveNat g e src 0x255)

/-- FCLASS (R204), as the one move of a bundle. -/
def execFclass (g : BitVec 3) (e : Bool) (src : BitVec 10) (s : State) : Out := s.issueMove (moveNat g e src 0x256)

/-- FCVT_S_D (R205), as the one move of a bundle. -/
def execFcvtSD (g : BitVec 3) (e : Bool) (src : BitVec 10) (s : State) : Out := s.issueMove (moveNat g e src 0x257)

/-- FCVT_D_S (R205), as the one move of a bundle. -/
def execFcvtDS (g : BitVec 3) (e : Bool) (src : BitVec 10) (s : State) : Out := s.issueMove (moveNat g e src 0x258)

/-- FCVT_D_L (R205), as the one move of a bundle. -/
def execFcvtDL (g : BitVec 3) (e : Bool) (src : BitVec 10) (s : State) : Out := s.issueMove (moveNat g e src 0x259)

/-- FCVT_L_D (R205), as the one move of a bundle. -/
def execFcvtLD (g : BitVec 3) (e : Bool) (src : BitVec 10) (s : State) : Out := s.issueMove (moveNat g e src 0x25A)

/-- FCVT_S_W (R205), as the one move of a bundle. -/
def execFcvtSW (g : BitVec 3) (e : Bool) (src : BitVec 10) (s : State) : Out := s.issueMove (moveNat g e src 0x25B)

/-- FCVT_W_S (R205), as the one move of a bundle. -/
def execFcvtWS (g : BitVec 3) (e : Bool) (src : BitVec 10) (s : State) : Out := s.issueMove (moveNat g e src 0x25C)

/-- FCVT_BF_S (R205), as the one move of a bundle. -/
def execFcvtBfS (g : BitVec 3) (e : Bool) (src : BitVec 10) (s : State) : Out := s.issueMove (moveNat g e src 0x25D)

/-- FCVT_S_BF (R205), as the one move of a bundle. -/
def execFcvtSBf (g : BitVec 3) (e : Bool) (src : BitVec 10) (s : State) : Out := s.issueMove (moveNat g e src 0x25E)

/-- FRND (R206), as the one move of a bundle. -/
def execFrnd (g : BitVec 3) (e : Bool) (src : BitVec 10) (s : State) : Out := s.issueMove (moveNat g e src 0x25F)

end Sys2Proof.Machine
end

