-- ==== Sys2Proof/Machine/ExecVector.lean ====
section
/-! DEFINITION. The vector operations, each as a bundle that holds its one trigger: what the trigger does is written with its unit; a bundle of several moves is ExecMove's BUNDLE_ISSUE. -/
namespace Sys2Proof.Machine
open Sys2Proof

/-- VADD (R214), as the one move of a bundle. -/
def execVadd (g : BitVec 3) (e : Bool) (src : BitVec 10) (s : State) : Out := s.issueMove (moveNat g e src 0x280)

/-- VSUB (R214), as the one move of a bundle. -/
def execVsub (g : BitVec 3) (e : Bool) (src : BitVec 10) (s : State) : Out := s.issueMove (moveNat g e src 0x281)

/-- VMUL (R214), as the one move of a bundle. -/
def execVmul (g : BitVec 3) (e : Bool) (src : BitVec 10) (s : State) : Out := s.issueMove (moveNat g e src 0x282)

/-- VFMA (R214), as the one move of a bundle. -/
def execVfma (g : BitVec 3) (e : Bool) (src : BitVec 10) (s : State) : Out := s.issueMove (moveNat g e src 0x283)

/-- VFMS (R214), as the one move of a bundle. -/
def execVfms (g : BitVec 3) (e : Bool) (src : BitVec 10) (s : State) : Out := s.issueMove (moveNat g e src 0x284)

/-- VMIN (R214), as the one move of a bundle. -/
def execVmin (g : BitVec 3) (e : Bool) (src : BitVec 10) (s : State) : Out := s.issueMove (moveNat g e src 0x285)

/-- VMAX (R214), as the one move of a bundle. -/
def execVmax (g : BitVec 3) (e : Bool) (src : BitVec 10) (s : State) : Out := s.issueMove (moveNat g e src 0x286)

/-- VABS (R214), as the one move of a bundle. -/
def execVabs (g : BitVec 3) (e : Bool) (src : BitVec 10) (s : State) : Out := s.issueMove (moveNat g e src 0x287)

/-- VNEG (R214), as the one move of a bundle. -/
def execVneg (g : BitVec 3) (e : Bool) (src : BitVec 10) (s : State) : Out := s.issueMove (moveNat g e src 0x288)

/-- VDIV (R214), as the one move of a bundle. -/
def execVdiv (g : BitVec 3) (e : Bool) (src : BitVec 10) (s : State) : Out := s.issueMove (moveNat g e src 0x289)

/-- VSQRT (R214), as the one move of a bundle. -/
def execVsqrt (g : BitVec 3) (e : Bool) (src : BitVec 10) (s : State) : Out := s.issueMove (moveNat g e src 0x28A)

/-- VRCP (R214), as the one move of a bundle. -/
def execVrcp (g : BitVec 3) (e : Bool) (src : BitVec 10) (s : State) : Out := s.issueMove (moveNat g e src 0x28B)

/-- VRSQ (R214), as the one move of a bundle. -/
def execVrsq (g : BitVec 3) (e : Bool) (src : BitVec 10) (s : State) : Out := s.issueMove (moveNat g e src 0x28C)

/-- VEXP2 (R215), as the one move of a bundle. -/
def execVexp2 (g : BitVec 3) (e : Bool) (src : BitVec 10) (s : State) : Out := s.issueMove (moveNat g e src 0x28D)

/-- VLOG2 (R215), as the one move of a bundle. -/
def execVlog2 (g : BitVec 3) (e : Bool) (src : BitVec 10) (s : State) : Out := s.issueMove (moveNat g e src 0x28E)

/-- VSINCOS (R215), as the one move of a bundle. -/
def execVsincos (g : BitVec 3) (e : Bool) (src : BitVec 10) (s : State) : Out := s.issueMove (moveNat g e src 0x28F)

/-- VCMUL (R216), as the one move of a bundle. -/
def execVcmul (g : BitVec 3) (e : Bool) (src : BitVec 10) (s : State) : Out := s.issueMove (moveNat g e src 0x290)

/-- VCONJ (R216), as the one move of a bundle. -/
def execVconj (g : BitVec 3) (e : Bool) (src : BitVec 10) (s : State) : Out := s.issueMove (moveNat g e src 0x291)

/-- VBFLY (R216), as the one move of a bundle. -/
def execVbfly (g : BitVec 3) (e : Bool) (src : BitVec 10) (s : State) : Out := s.issueMove (moveNat g e src 0x292)

/-- VAND (R217), as the one move of a bundle. -/
def execVand (g : BitVec 3) (e : Bool) (src : BitVec 10) (s : State) : Out := s.issueMove (moveNat g e src 0x293)

/-- VOR (R217), as the one move of a bundle. -/
def execVor (g : BitVec 3) (e : Bool) (src : BitVec 10) (s : State) : Out := s.issueMove (moveNat g e src 0x294)

/-- VXOR (R217), as the one move of a bundle. -/
def execVxor (g : BitVec 3) (e : Bool) (src : BitVec 10) (s : State) : Out := s.issueMove (moveNat g e src 0x295)

/-- VSHL (R217), as the one move of a bundle. -/
def execVshl (g : BitVec 3) (e : Bool) (src : BitVec 10) (s : State) : Out := s.issueMove (moveNat g e src 0x296)

/-- VSHR (R217), as the one move of a bundle. -/
def execVshr (g : BitVec 3) (e : Bool) (src : BitVec 10) (s : State) : Out := s.issueMove (moveNat g e src 0x297)

/-- VCEQ (R218), as the one move of a bundle. -/
def execVceq (g : BitVec 3) (e : Bool) (src : BitVec 10) (s : State) : Out := s.issueMove (moveNat g e src 0x298)

/-- VCLT (R218), as the one move of a bundle. -/
def execVclt (g : BitVec 3) (e : Bool) (src : BitVec 10) (s : State) : Out := s.issueMove (moveNat g e src 0x299)

/-- VCLE (R218), as the one move of a bundle. -/
def execVcle (g : BitVec 3) (e : Bool) (src : BitVec 10) (s : State) : Out := s.issueMove (moveNat g e src 0x29A)

/-- VSEL (R218), as the one move of a bundle. -/
def execVsel (g : BitVec 3) (e : Bool) (src : BitVec 10) (s : State) : Out := s.issueMove (moveNat g e src 0x29B)

/-- VCVT (R219), as the one move of a bundle. -/
def execVcvt (g : BitVec 3) (e : Bool) (src : BitVec 10) (s : State) : Out := s.issueMove (moveNat g e src 0x29C)

/-- VPERM (R220), as the one move of a bundle. -/
def execVperm (g : BitVec 3) (e : Bool) (src : BitVec 10) (s : State) : Out := s.issueMove (moveNat g e src 0x29D)

/-- VSHUF (R220), as the one move of a bundle. -/
def execVshuf (g : BitVec 3) (e : Bool) (src : BitVec 10) (s : State) : Out := s.issueMove (moveNat g e src 0x29E)

/-- VBCAST (R220), as the one move of a bundle. -/
def execVbcast (g : BitVec 3) (e : Bool) (src : BitVec 10) (s : State) : Out := s.issueMove (moveNat g e src 0x29F)

/-- VREDADD (R221), as the one move of a bundle. -/
def execVredadd (g : BitVec 3) (e : Bool) (src : BitVec 10) (s : State) : Out := s.issueMove (moveNat g e src 0x2A0)

/-- VREDMAX (R221), as the one move of a bundle. -/
def execVredmax (g : BitVec 3) (e : Bool) (src : BitVec 10) (s : State) : Out := s.issueMove (moveNat g e src 0x2A1)

/-- VREDMIN (R221), as the one move of a bundle. -/
def execVredmin (g : BitVec 3) (e : Bool) (src : BitVec 10) (s : State) : Out := s.issueMove (moveNat g e src 0x2A2)

/-- VSCAN (R221), as the one move of a bundle. -/
def execVscan (g : BitVec 3) (e : Bool) (src : BitVec 10) (s : State) : Out := s.issueMove (moveNat g e src 0x2A3)

/-- VIDX (R222), as the one move of a bundle. -/
def execVidx (g : BitVec 3) (e : Bool) (src : BitVec 10) (s : State) : Out := s.issueMove (moveNat g e src 0x2A4)

/-- VEXTR (R222), as the one move of a bundle. -/
def execVextr (g : BitVec 3) (e : Bool) (src : BitVec 10) (s : State) : Out := s.issueMove (moveNat g e src 0x2A5)

/-- VINSR (R222), as the one move of a bundle. -/
def execVinsr (g : BitVec 3) (e : Bool) (src : BitVec 10) (s : State) : Out := s.issueMove (moveNat g e src 0x2A6)

/-- VQOP (R223), as the one move of a bundle. -/
def execVqop (g : BitVec 3) (e : Bool) (src : BitVec 10) (s : State) : Out := s.issueMove (moveNat g e src 0x2A7)

/-- VQPOP (R223), as the one move of a bundle. -/
def execVqpop (g : BitVec 3) (e : Bool) (src : BitVec 10) (s : State) : Out := s.issueMove (moveNat g e src 0x2A8)

/-- VCHK (R224), as the one move of a bundle. -/
def execVchk (g : BitVec 3) (e : Bool) (src : BitVec 10) (s : State) : Out := s.issueMove (moveNat g e src 0x2A9)

/-- VDOT (R225), as the one move of a bundle. -/
def execVdot (g : BitVec 3) (e : Bool) (src : BitVec 10) (s : State) : Out := s.issueMove (moveNat g e src 0x2AA)

/-- VCLAMP (R225), as the one move of a bundle. -/
def execVclamp (g : BitVec 3) (e : Bool) (src : BitVec 10) (s : State) : Out := s.issueMove (moveNat g e src 0x2AB)

/-- VRND (R219), as the one move of a bundle. -/
def execVrnd (g : BitVec 3) (e : Bool) (src : BitVec 10) (s : State) : Out := s.issueMove (moveNat g e src 0x2AC)

/-- VMOVQ (R223), as the one move of a bundle. -/
def execVmovq (g : BitVec 3) (e : Bool) (src : BitVec 10) (s : State) : Out := s.issueMove (moveNat g e src 0x2AD)

/-- VPACK (R219), as the one move of a bundle. -/
def execVpack (g : BitVec 3) (e : Bool) (src : BitVec 10) (s : State) : Out := s.issueMove (moveNat g e src 0x2AE)

/-- VUNPK (R219), as the one move of a bundle. -/
def execVunpk (g : BitVec 3) (e : Bool) (src : BitVec 10) (s : State) : Out := s.issueMove (moveNat g e src 0x2AF)

end Sys2Proof.Machine
end

