-- ==== Sys2Proof/Machine/Dispatch.lean ====
section
/-! DEFINITION. The dispatch: each instruction to its meaning. -/
namespace Sys2Proof.Machine
open Sys2Proof

/-- The meaning of every instruction. -/
def exec (i : Instr) (s : State) : Host.Outcome State Fault Refusal :=
  match i with
  | .bundleIssue b => Sys2Proof.Machine.execBundleIssue b s
  | .resultLanding c => Sys2Proof.Machine.execResultLanding c s
  | .deliveryLanding c id => Sys2Proof.Machine.execDeliveryLanding c id s
  | .arrivalOnRetire c => Sys2Proof.Machine.execArrivalOnRetire c s
  | .segmentCommit c => Sys2Proof.Machine.execSegmentCommit c s
  | .rewindDone c => Sys2Proof.Machine.execRewindDone c s
  | .arrayOpComplete p => Sys2Proof.Machine.execArrayOpComplete p s
  | .mseqStepStart c => Sys2Proof.Machine.execMseqStepStart c s
  | .idleWake c => Sys2Proof.Machine.execIdleWake c s
  | .shareChangeEffect p => Sys2Proof.Machine.execShareChangeEffect p s
  | .slotCellEffect d cell => Sys2Proof.Machine.execSlotCellEffect d cell s
  | .cjoinTimeout h => Sys2Proof.Machine.execCjoinTimeout h s
  | .contPark k => Sys2Proof.Machine.execContPark k s
  | .contUnpark k => Sys2Proof.Machine.execContUnpark k s
  | .killDone k => Sys2Proof.Machine.execKillDone k s
  | .attentionRetry p => Sys2Proof.Machine.execAttentionRetry p s
  | .faultSteeringWrite p v => Sys2Proof.Machine.execFaultSteeringWrite p v s
  | .checkpointInterval => Sys2Proof.Machine.execCheckpointInterval s
  | .checkpointComplete => Sys2Proof.Machine.execCheckpointComplete s
  | .pktNop k => Sys2Proof.Machine.execPktNop k s
  | .pktLaunch k => Sys2Proof.Machine.execPktLaunch k s
  | .pktWait k => Sys2Proof.Machine.execPktWait k s
  | .pktSignal k => Sys2Proof.Machine.execPktSignal k s
  | .pktPred k => Sys2Proof.Machine.execPktPred k s
  | .pktLoop k => Sys2Proof.Machine.execPktLoop k s
  | .pktCall k => Sys2Proof.Machine.execPktCall k s
  | .pktReturn k => Sys2Proof.Machine.execPktReturn k s
  | .pktFfence k => Sys2Proof.Machine.execPktFfence k s
  | .pktMark k => Sys2Proof.Machine.execPktMark k s
  | .pktCopy k => Sys2Proof.Machine.execPktCopy k s
  | .pktBind k => Sys2Proof.Machine.execPktBind k s
  | .pktUnknown k => Sys2Proof.Machine.execPktUnknown k s
  | .implicitReturn k => Sys2Proof.Machine.execImplicitReturn k s
  | .streamWindowRefill k => Sys2Proof.Machine.execStreamWindowRefill k s
  | .ffenceRefill k => Sys2Proof.Machine.execFfenceRefill k s
  | .waitSatisfied k => Sys2Proof.Machine.execWaitSatisfied k s
  | .waitPacketTimeout k => Sys2Proof.Machine.execWaitPacketTimeout k s
  | .copyPacketComplete k => Sys2Proof.Machine.execCopyPacketComplete k s
  | .copyPacketFault k => Sys2Proof.Machine.execCopyPacketFault k s
  | .sysCompletion k => Sys2Proof.Machine.execSysCompletion k s
  | .sysReissue c => Sys2Proof.Machine.execSysReissue c s
  | .launchPlace p => Sys2Proof.Machine.execLaunchPlace p s
  | .priorityAging l => Sys2Proof.Machine.execPriorityAging l s
  | .teamStart l => Sys2Proof.Machine.execTeamStart l s
  | .coreResume c => Sys2Proof.Machine.execCoreResume c s
  | .quantumExpiry l => Sys2Proof.Machine.execQuantumExpiry l s
  | .imageSaved c => Sys2Proof.Machine.execImageSaved c s
  | .clusterReclaim cl => Sys2Proof.Machine.execClusterReclaim cl s
  | .reclaimRetry cl => Sys2Proof.Machine.execReclaimRetry cl s
  | .clusterReturn cl => Sys2Proof.Machine.execClusterReturn cl s
  | .launchDrained l => Sys2Proof.Machine.execLaunchDrained l s
  | .scoutProbe c => Sys2Proof.Machine.execScoutProbe c s
  | .stealArrival c => Sys2Proof.Machine.execStealArrival c s
  | .twaitTimeout c => Sys2Proof.Machine.execTwaitTimeout c s
  | .watchdogExpiry c => Sys2Proof.Machine.execWatchdogExpiry c s
  | .rendezvousRelease cl => Sys2Proof.Machine.execRendezvousRelease cl s
  | .rendezvousTimeout c => Sys2Proof.Machine.execRendezvousTimeout c s
  | .shareViolation c => Sys2Proof.Machine.execShareViolation c s
  | .partitionPlanApply plan => Sys2Proof.Machine.execPartitionPlanApply plan s
  | .partitionReset p => Sys2Proof.Machine.execPartitionReset p s
  | .debugHold c => Sys2Proof.Machine.execDebugHold c s
  | .debugStep c => Sys2Proof.Machine.execDebugStep c s
  | .debugRelease c => Sys2Proof.Machine.execDebugRelease c s
  | .globalRequestAccept c id => Sys2Proof.Machine.execGlobalRequestAccept c id s
  | .storePerform c id => Sys2Proof.Machine.execStorePerform c id s
  | .pageWalk c => Sys2Proof.Machine.execPageWalk c s
  | .ownershipTransferStart r => Sys2Proof.Machine.execOwnershipTransferStart r s
  | .ownershipWritebackComplete r => Sys2Proof.Machine.execOwnershipWritebackComplete r s
  | .ownershipTimeout c => Sys2Proof.Machine.execOwnershipTimeout c s
  | .dieCacheWriteback d line => Sys2Proof.Machine.execDieCacheWriteback d line s
  | .gatedUnitWake c => Sys2Proof.Machine.execGatedUnitWake c s
  | .shootdownGo v => Sys2Proof.Machine.execShootdownGo v s
  | .shootdownComplete => Sys2Proof.Machine.execShootdownComplete s
  | .transferStart c ch id => Sys2Proof.Machine.execTransferStart c ch id s
  | .transferComplete c ch id => Sys2Proof.Machine.execTransferComplete c ch id s
  | .transferElementFault c ch id => Sys2Proof.Machine.execTransferElementFault c ch id s
  | .transferDataFault c ch id => Sys2Proof.Machine.execTransferDataFault c ch id s
  | .porterEcall c side => Sys2Proof.Machine.execPorterEcall c side s
  | .porterException c side => Sys2Proof.Machine.execPorterException c side s
  | .porterFault c side => Sys2Proof.Machine.execPorterFault c side s
  | .porterBlockComplete c side => Sys2Proof.Machine.execPorterBlockComplete c side s
  | .porterWake c side => Sys2Proof.Machine.execPorterWake c side s
  | .waitLimitExpiry c id => Sys2Proof.Machine.execWaitLimitExpiry c id s
  | .barrierBankService c => Sys2Proof.Machine.execBarrierBankService c s
  | .regionDirectoryAccess c id => Sys2Proof.Machine.execRegionDirectoryAccess c id s
  | .regionJoin slot m => Sys2Proof.Machine.execRegionJoin slot m s
  | .regionLeave slot m => Sys2Proof.Machine.execRegionLeave slot m s
  | .regionVote slot m => Sys2Proof.Machine.execRegionVote slot m s
  | .regionAbort slot m => Sys2Proof.Machine.execRegionAbort slot m s
  | .regionLocksHeld slot => Sys2Proof.Machine.execRegionLocksHeld slot s
  | .regionLinesWritten slot => Sys2Proof.Machine.execRegionLinesWritten slot s
  | .regionEntriesDiscarded slot => Sys2Proof.Machine.execRegionEntriesDiscarded slot s
  | .regionFreed slot => Sys2Proof.Machine.execRegionFreed slot s
  | .regionOutcomeDelivery slot m => Sys2Proof.Machine.execRegionOutcomeDelivery slot m s
  | .portTrain n => Sys2Proof.Machine.execPortTrain n s
  | .portTrained n lanes => Sys2Proof.Machine.execPortTrained n lanes s
  | .portTrainingTimeout n => Sys2Proof.Machine.execPortTrainingTimeout n s
  | .laneLost n => Sys2Proof.Machine.execLaneLost n s
  | .flitReceive n good words => Sys2Proof.Machine.execFlitReceive n good words s
  | .retryExhausted n => Sys2Proof.Machine.execRetryExhausted n s
  | .msgArrival seq => Sys2Proof.Machine.execMsgArrival seq s
  | .heldMessageRetry seq => Sys2Proof.Machine.execHeldMessageRetry seq s
  | .rwrArrival seq => Sys2Proof.Machine.execRwrArrival seq s
  | .ramoArrival seq => Sys2Proof.Machine.execRamoArrival seq s
  | .ramoReply c id v lost => Sys2Proof.Machine.execRamoReply c id v lost s
  | .reductionContribution seq => Sys2Proof.Machine.execReductionContribution seq s
  | .waveStart => Sys2Proof.Machine.execWaveStart s
  | .wavePassEnd others => Sys2Proof.Machine.execWavePassEnd others s
  | .wquietTimeout c => Sys2Proof.Machine.execWquietTimeout c s
  | .reductionWindowWrite w off v => Sys2Proof.Machine.execReductionWindowWrite w off v s
  | .windowInstalled w => Sys2Proof.Machine.execWindowInstalled w s
  | .landingWindowWrite p w off v => Sys2Proof.Machine.execLandingWindowWrite p w off v s
  | .pciePeerWrite port fn w off bytes => Sys2Proof.Machine.execPciePeerWrite port fn w off bytes s
  | .pcieWindowRead port fn w off n => Sys2Proof.Machine.execPcieWindowRead port fn w off n s
  | .pcieDoorbellWrite port fn off bytes => Sys2Proof.Machine.execPcieDoorbellWrite port fn off bytes s
  | .pcieDoorbellRead port fn w => Sys2Proof.Machine.execPcieDoorbellRead port fn w s
  | .pcieFlr port fn => Sys2Proof.Machine.execPcieFlr port fn s
  | .pcieDpcContainment port => Sys2Proof.Machine.execPcieDpcContainment port s
  | .pcieLinkTraining port => Sys2Proof.Machine.execPcieLinkTraining port s
  | .pldmRequestUpdate => Sys2Proof.Machine.execPldmRequestUpdate s
  | .imageTransferComplete bytes => Sys2Proof.Machine.execImageTransferComplete bytes s
  | .pldmApplyComplete => Sys2Proof.Machine.execPldmApplyComplete s
  | .pldmActivateFirmware => Sys2Proof.Machine.execPldmActivateFirmware s
  | .pldmCancelUpdate => Sys2Proof.Machine.execPldmCancelUpdate s
  | .lanternImageSwitch c => Sys2Proof.Machine.execLanternImageSwitch c s
  | .powerOn => Sys2Proof.Machine.execPowerOn s
  | .spdmGetMeasurements => Sys2Proof.Machine.execSpdmGetMeasurements s
  | .spdmKeyInstall p cls bits => Sys2Proof.Machine.execSpdmKeyInstall p cls bits s
  | .throttleWindow watts => Sys2Proof.Machine.execThrottleWindow watts s
  | .thermalTrip d => Sys2Proof.Machine.execThermalTrip d s
  | .registerWrite off v => Sys2Proof.Machine.execRegisterWrite off v s
  | .porterRv32imInstruction w => Sys2Proof.Machine.execPorterRv32imInstruction w s
  | .pcieDpcRelease port => Sys2Proof.Machine.execPcieDpcRelease port s
  | .hostStore pa bytes => Sys2Proof.Machine.execHostStore pa bytes s
  | .loadPerform c id => Sys2Proof.Machine.execLoadPerform c id s
  | .imageTransferAborted => Sys2Proof.Machine.execImageTransferAborted s
  | .cpost rd rs1 => Sys2Proof.Machine.execCpost rd rs1 s
  | .cjoin rs2 rs1 rd => Sys2Proof.Machine.execCjoin rs2 rs1 rd s
  | .cquery rd rs1 => Sys2Proof.Machine.execCquery rd rs1 s
  | .ckill rd => Sys2Proof.Machine.execCkill rd s
  | .ccreate rs2 rs1 rd => Sys2Proof.Machine.execCcreate rs2 rs1 rd s
  | .cfree rd rs1 => Sys2Proof.Machine.execCfree rd rs1 s
  | .cbind rd rs1 => Sys2Proof.Machine.execCbind rd rs1 s
  | .csave rd rs1 => Sys2Proof.Machine.execCsave rd rs1 s
  | .cload rd rs1 => Sys2Proof.Machine.execCload rd rs1 s
  | .cresume rs2 rs1 rd => Sys2Proof.Machine.execCresume rs2 rs1 rd s
  | .cadopt rd rs1 => Sys2Proof.Machine.execCadopt rd rs1 s
  | .cckpt rd rs1 => Sys2Proof.Machine.execCckpt rd rs1 s
  | .pld rs2 rs1 rd => Sys2Proof.Machine.execPld rs2 rs1 rd s
  | .pst rs2 rs1 rd => Sys2Proof.Machine.execPst rs2 rs1 rd s
  | .plds rs1 rd => Sys2Proof.Machine.execPlds rs1 rd s
  | .pgath rs2 rs1 rd => Sys2Proof.Machine.execPgath rs2 rs1 rd s
  | .pctr rs2 rs1 rd => Sys2Proof.Machine.execPctr rs2 rs1 rd s
  | .pwait rs2 rs1 rd => Sys2Proof.Machine.execPwait rs2 rs1 rd s
  | .ptok rs2 rs1 rd => Sys2Proof.Machine.execPtok rs2 rs1 rd s
  | .psigw rd => Sys2Proof.Machine.execPsigw rd s
  | .pfence rd => Sys2Proof.Machine.execPfence rd s
  | .moveRegister g e src r => Sys2Proof.Machine.execMoveRegister g e src r s
  | .movePort g e src u p => Sys2Proof.Machine.execMovePort g e src u p s
  | .discard g e src => Sys2Proof.Machine.execDiscard g e src s
  | .busdrive g e src => Sys2Proof.Machine.execBusdrive g e src s
  | .busland g e src => Sys2Proof.Machine.execBusland g e src s
  | .emptyMove => Sys2Proof.Machine.execEmptyMove s
  | .add g e src => Sys2Proof.Machine.execAdd g e src s
  | .sub g e src => Sys2Proof.Machine.execSub g e src s
  | .addw g e src => Sys2Proof.Machine.execAddw g e src s
  | .subw g e src => Sys2Proof.Machine.execSubw g e src s
  | .mul g e src => Sys2Proof.Machine.execMul g e src s
  | .mulh g e src => Sys2Proof.Machine.execMulh g e src s
  | .mulhu g e src => Sys2Proof.Machine.execMulhu g e src s
  | .mulw g e src => Sys2Proof.Machine.execMulw g e src s
  | .div g e src => Sys2Proof.Machine.execDiv g e src s
  | .divu g e src => Sys2Proof.Machine.execDivu g e src s
  | .rem g e src => Sys2Proof.Machine.execRem g e src s
  | .remu g e src => Sys2Proof.Machine.execRemu g e src s
  | .and g e src => Sys2Proof.Machine.execAnd g e src s
  | .or g e src => Sys2Proof.Machine.execOr g e src s
  | .xor g e src => Sys2Proof.Machine.execXor g e src s
  | .andn g e src => Sys2Proof.Machine.execAndn g e src s
  | .sll g e src => Sys2Proof.Machine.execSll g e src s
  | .srl g e src => Sys2Proof.Machine.execSrl g e src s
  | .sra g e src => Sys2Proof.Machine.execSra g e src s
  | .rol g e src => Sys2Proof.Machine.execRol g e src s
  | .clz g e src => Sys2Proof.Machine.execClz g e src s
  | .ctz g e src => Sys2Proof.Machine.execCtz g e src s
  | .popc g e src => Sys2Proof.Machine.execPopc g e src s
  | .brev g e src => Sys2Proof.Machine.execBrev g e src s
  | .min g e src => Sys2Proof.Machine.execMin g e src s
  | .max g e src => Sys2Proof.Machine.execMax g e src s
  | .minu g e src => Sys2Proof.Machine.execMinu g e src s
  | .maxu g e src => Sys2Proof.Machine.execMaxu g e src s
  | .abs g e src => Sys2Proof.Machine.execAbs g e src s
  | .neg g e src => Sys2Proof.Machine.execNeg g e src s
  | .adds g e src => Sys2Proof.Machine.execAdds g e src s
  | .subs g e src => Sys2Proof.Machine.execSubs g e src s
  | .ceq g e src => Sys2Proof.Machine.execCeq g e src s
  | .cne g e src => Sys2Proof.Machine.execCne g e src s
  | .clt g e src => Sys2Proof.Machine.execClt g e src s
  | .cltu g e src => Sys2Proof.Machine.execCltu g e src s
  | .cle g e src => Sys2Proof.Machine.execCle g e src s
  | .cleu g e src => Sys2Proof.Machine.execCleu g e src s
  | .ctst g e src => Sys2Proof.Machine.execCtst g e src s
  | .cbit g e src => Sys2Proof.Machine.execCbit g e src s
  | .sel g e src => Sys2Proof.Machine.execSel g e src s
  | .ext g e src => Sys2Proof.Machine.execExt g e src s
  | .extu g e src => Sys2Proof.Machine.execExtu g e src s
  | .ins g e src => Sys2Proof.Machine.execIns g e src s
  | .lea g e src => Sys2Proof.Machine.execLea g e src s
  | .lea2 g e src => Sys2Proof.Machine.execLea2 g e src s
  | .movk g e src => Sys2Proof.Machine.execMovk g e src s
  | .crc g e src => Sys2Proof.Machine.execCrc g e src s
  | .pand g e src => Sys2Proof.Machine.execPand g e src s
  | .por g e src => Sys2Proof.Machine.execPor g e src s
  | .pxor g e src => Sys2Proof.Machine.execPxor g e src s
  | .pnot g e src => Sys2Proof.Machine.execPnot g e src s
  | .pandn g e src => Sys2Proof.Machine.execPandn g e src s
  | .pmov g e src => Sys2Proof.Machine.execPmov g e src s
  | .pget g e src => Sys2Proof.Machine.execPget g e src s
  | .pall g e src => Sys2Proof.Machine.execPall g e src s
  | .chkeq g e src => Sys2Proof.Machine.execChkeq g e src s
  | .chkp g e src => Sys2Proof.Machine.execChkp g e src s
  | .rdspec g e src => Sys2Proof.Machine.execRdspec g e src s
  | .wrspec g e src => Sys2Proof.Machine.execWrspec g e src s
  | .rand g e src => Sys2Proof.Machine.execRand g e src s
  | .mix g e src => Sys2Proof.Machine.execMix g e src s
  | .bswap g e src => Sys2Proof.Machine.execBswap g e src s
  | .nop g e src => Sys2Proof.Machine.execNop g e src s
  | .faddD g e src => Sys2Proof.Machine.execFaddD g e src s
  | .fsubD g e src => Sys2Proof.Machine.execFsubD g e src s
  | .fmulD g e src => Sys2Proof.Machine.execFmulD g e src s
  | .ffmaD g e src => Sys2Proof.Machine.execFfmaD g e src s
  | .fdivD g e src => Sys2Proof.Machine.execFdivD g e src s
  | .fsqrtD g e src => Sys2Proof.Machine.execFsqrtD g e src s
  | .fminD g e src => Sys2Proof.Machine.execFminD g e src s
  | .fmaxD g e src => Sys2Proof.Machine.execFmaxD g e src s
  | .faddS g e src => Sys2Proof.Machine.execFaddS g e src s
  | .fsubS g e src => Sys2Proof.Machine.execFsubS g e src s
  | .fmulS g e src => Sys2Proof.Machine.execFmulS g e src s
  | .ffmaS g e src => Sys2Proof.Machine.execFfmaS g e src s
  | .fdivS g e src => Sys2Proof.Machine.execFdivS g e src s
  | .fsqrtS g e src => Sys2Proof.Machine.execFsqrtS g e src s
  | .fminS g e src => Sys2Proof.Machine.execFminS g e src s
  | .fmaxS g e src => Sys2Proof.Machine.execFmaxS g e src s
  | .fceqD g e src => Sys2Proof.Machine.execFceqD g e src s
  | .fcltD g e src => Sys2Proof.Machine.execFcltD g e src s
  | .fcleD g e src => Sys2Proof.Machine.execFcleD g e src s
  | .fceqS g e src => Sys2Proof.Machine.execFceqS g e src s
  | .fcltS g e src => Sys2Proof.Machine.execFcltS g e src s
  | .fcleS g e src => Sys2Proof.Machine.execFcleS g e src s
  | .fclass g e src => Sys2Proof.Machine.execFclass g e src s
  | .fcvtSD g e src => Sys2Proof.Machine.execFcvtSD g e src s
  | .fcvtDS g e src => Sys2Proof.Machine.execFcvtDS g e src s
  | .fcvtDL g e src => Sys2Proof.Machine.execFcvtDL g e src s
  | .fcvtLD g e src => Sys2Proof.Machine.execFcvtLD g e src s
  | .fcvtSW g e src => Sys2Proof.Machine.execFcvtSW g e src s
  | .fcvtWS g e src => Sys2Proof.Machine.execFcvtWS g e src s
  | .fcvtBfS g e src => Sys2Proof.Machine.execFcvtBfS g e src s
  | .fcvtSBf g e src => Sys2Proof.Machine.execFcvtSBf g e src s
  | .frnd g e src => Sys2Proof.Machine.execFrnd g e src s
  | .ldB g e src => Sys2Proof.Machine.execLdB g e src s
  | .ldH g e src => Sys2Proof.Machine.execLdH g e src s
  | .ldW g e src => Sys2Proof.Machine.execLdW g e src s
  | .ldD g e src => Sys2Proof.Machine.execLdD g e src s
  | .ldsB g e src => Sys2Proof.Machine.execLdsB g e src s
  | .ldsH g e src => Sys2Proof.Machine.execLdsH g e src s
  | .ldsW g e src => Sys2Proof.Machine.execLdsW g e src s
  | .stB g e src => Sys2Proof.Machine.execStB g e src s
  | .stH g e src => Sys2Proof.Machine.execStH g e src s
  | .stW g e src => Sys2Proof.Machine.execStW g e src s
  | .stD g e src => Sys2Proof.Machine.execStD g e src s
  | .vld g e src => Sys2Proof.Machine.execVld g e src s
  | .vst g e src => Sys2Proof.Machine.execVst g e src s
  | .vgath g e src => Sys2Proof.Machine.execVgath g e src s
  | .vscat g e src => Sys2Proof.Machine.execVscat g e src s
  | .ldr g e src => Sys2Proof.Machine.execLdr g e src s
  | .amo g e src => Sys2Proof.Machine.execAmo g e src s
  | .cas g e src => Sys2Proof.Machine.execCas g e src s
  | .qincb g e src => Sys2Proof.Machine.execQincb g e src s
  | .qincw g e src => Sys2Proof.Machine.execQincw g e src s
  | .qdecp g e src => Sys2Proof.Machine.execQdecp g e src s
  | .qaddl g e src => Sys2Proof.Machine.execQaddl g e src s
  | .ctradd g e src => Sys2Proof.Machine.execCtradd g e src s
  | .ctrwait g e src => Sys2Proof.Machine.execCtrwait g e src s
  | .ctrrd g e src => Sys2Proof.Machine.execCtrrd g e src s
  | .barinit g e src => Sys2Proof.Machine.execBarinit g e src s
  | .barv g e src => Sys2Proof.Machine.execBarv g e src s
  | .barw g e src => Sys2Proof.Machine.execBarw g e src s
  | .fence g e src => Sys2Proof.Machine.execFence g e src s
  | .tlook g e src => Sys2Proof.Machine.execTlook g e src s
  | .tset g e src => Sys2Proof.Machine.execTset g e src s
  | .bnd g e src => Sys2Proof.Machine.execBnd g e src s
  | .vadd g e src => Sys2Proof.Machine.execVadd g e src s
  | .vsub g e src => Sys2Proof.Machine.execVsub g e src s
  | .vmul g e src => Sys2Proof.Machine.execVmul g e src s
  | .vfma g e src => Sys2Proof.Machine.execVfma g e src s
  | .vfms g e src => Sys2Proof.Machine.execVfms g e src s
  | .vmin g e src => Sys2Proof.Machine.execVmin g e src s
  | .vmax g e src => Sys2Proof.Machine.execVmax g e src s
  | .vabs g e src => Sys2Proof.Machine.execVabs g e src s
  | .vneg g e src => Sys2Proof.Machine.execVneg g e src s
  | .vdiv g e src => Sys2Proof.Machine.execVdiv g e src s
  | .vsqrt g e src => Sys2Proof.Machine.execVsqrt g e src s
  | .vrcp g e src => Sys2Proof.Machine.execVrcp g e src s
  | .vrsq g e src => Sys2Proof.Machine.execVrsq g e src s
  | .vexp2 g e src => Sys2Proof.Machine.execVexp2 g e src s
  | .vlog2 g e src => Sys2Proof.Machine.execVlog2 g e src s
  | .vsincos g e src => Sys2Proof.Machine.execVsincos g e src s
  | .vcmul g e src => Sys2Proof.Machine.execVcmul g e src s
  | .vconj g e src => Sys2Proof.Machine.execVconj g e src s
  | .vbfly g e src => Sys2Proof.Machine.execVbfly g e src s
  | .vand g e src => Sys2Proof.Machine.execVand g e src s
  | .vor g e src => Sys2Proof.Machine.execVor g e src s
  | .vxor g e src => Sys2Proof.Machine.execVxor g e src s
  | .vshl g e src => Sys2Proof.Machine.execVshl g e src s
  | .vshr g e src => Sys2Proof.Machine.execVshr g e src s
  | .vceq g e src => Sys2Proof.Machine.execVceq g e src s
  | .vclt g e src => Sys2Proof.Machine.execVclt g e src s
  | .vcle g e src => Sys2Proof.Machine.execVcle g e src s
  | .vsel g e src => Sys2Proof.Machine.execVsel g e src s
  | .vcvt g e src => Sys2Proof.Machine.execVcvt g e src s
  | .vperm g e src => Sys2Proof.Machine.execVperm g e src s
  | .vshuf g e src => Sys2Proof.Machine.execVshuf g e src s
  | .vbcast g e src => Sys2Proof.Machine.execVbcast g e src s
  | .vredadd g e src => Sys2Proof.Machine.execVredadd g e src s
  | .vredmax g e src => Sys2Proof.Machine.execVredmax g e src s
  | .vredmin g e src => Sys2Proof.Machine.execVredmin g e src s
  | .vscan g e src => Sys2Proof.Machine.execVscan g e src s
  | .vidx g e src => Sys2Proof.Machine.execVidx g e src s
  | .vextr g e src => Sys2Proof.Machine.execVextr g e src s
  | .vinsr g e src => Sys2Proof.Machine.execVinsr g e src s
  | .vqop g e src => Sys2Proof.Machine.execVqop g e src s
  | .vqpop g e src => Sys2Proof.Machine.execVqpop g e src s
  | .vchk g e src => Sys2Proof.Machine.execVchk g e src s
  | .vdot g e src => Sys2Proof.Machine.execVdot g e src s
  | .vclamp g e src => Sys2Proof.Machine.execVclamp g e src s
  | .vrnd g e src => Sys2Proof.Machine.execVrnd g e src s
  | .vmovq g e src => Sys2Proof.Machine.execVmovq g e src s
  | .vpack g e src => Sys2Proof.Machine.execVpack g e src s
  | .vunpk g e src => Sys2Proof.Machine.execVunpk g e src s
  | .mma g e src => Sys2Proof.Machine.execMma g e src s
  | .mmag g e src => Sys2Proof.Machine.execMmag g e src s
  | .mzero g e src => Sys2Proof.Machine.execMzero g e src s
  | .mldc g e src => Sys2Proof.Machine.execMldc g e src s
  | .mstc g e src => Sys2Proof.Machine.execMstc g e src s
  | .mcvt g e src => Sys2Proof.Machine.execMcvt g e src s
  | .tidw g e src => Sys2Proof.Machine.execTidw g e src s
  | .tidr g e src => Sys2Proof.Machine.execTidr g e src s
  | .cbld g e src => Sys2Proof.Machine.execCbld g e src s
  | .mseq g e src => Sys2Proof.Machine.execMseq g e src s
  | .mstat g e src => Sys2Proof.Machine.execMstat g e src s
  | .mwin g e src => Sys2Proof.Machine.execMwin g e src s
  | .macc g e src => Sys2Proof.Machine.execMacc g e src s
  | .mtrn g e src => Sys2Proof.Machine.execMtrn g e src s
  | .mchk g e src => Sys2Proof.Machine.execMchk g e src s
  | .mscale g e src => Sys2Proof.Machine.execMscale g e src s
  | .cpset g e src => Sys2Proof.Machine.execCpset g e src s
  | .cpgo g e src => Sys2Proof.Machine.execCpgo g e src s
  | .cpstat g e src => Sys2Proof.Machine.execCpstat g e src s
  | .cpabrt g e src => Sys2Proof.Machine.execCpabrt g e src s
  | .cpkey g e src => Sys2Proof.Machine.execCpkey g e src s
  | .bussel g e src => Sys2Proof.Machine.execBussel g e src s
  | .msg g e src => Sys2Proof.Machine.execMsg g e src s
  | .rwr g e src => Sys2Proof.Machine.execRwr g e src s
  | .ramo g e src => Sys2Proof.Machine.execRamo g e src s
  | .rred g e src => Sys2Proof.Machine.execRred g e src s
  | .wquiet g e src => Sys2Proof.Machine.execWquiet g e src s
  | .jobr g e src => Sys2Proof.Machine.execJobr g e src s
  | .pstart g e src => Sys2Proof.Machine.execPstart g e src s
  | .psig g e src => Sys2Proof.Machine.execPsig g e src s
  | .pstat g e src => Sys2Proof.Machine.execPstat g e src s
  | .cpfence g e src => Sys2Proof.Machine.execCpfence g e src s
  | .br g e src => Sys2Proof.Machine.execBr g e src s
  | .bri g e src => Sys2Proof.Machine.execBri g e src s
  | .call g e src => Sys2Proof.Machine.execCall g e src s
  | .ret g e src => Sys2Proof.Machine.execRet g e src s
  | .loop g e src => Sys2Proof.Machine.execLoop g e src s
  | .lpost g e src => Sys2Proof.Machine.execLpost g e src s
  | .lrun g e src => Sys2Proof.Machine.execLrun g e src s
  | .lsplit g e src => Sys2Proof.Machine.execLsplit g e src s
  | .tend g e src => Sys2Proof.Machine.execTend g e src s
  | .tgrp g e src => Sys2Proof.Machine.execTgrp g e src s
  | .sys g e src => Sys2Proof.Machine.execSys g e src s
  | .trap g e src => Sys2Proof.Machine.execTrap g e src s
  | .twait g e src => Sys2Proof.Machine.execTwait g e src s
  | .rdv g e src => Sys2Proof.Machine.execRdv g e src s
  | .ropen g e src => Sys2Proof.Machine.execRopen g e src s
  | .rjoin g e src => Sys2Proof.Machine.execRjoin g e src s
  | .rvote g e src => Sys2Proof.Machine.execRvote g e src s
  | .rabort g e src => Sys2Proof.Machine.execRabort g e src s
  | .rleave g e src => Sys2Proof.Machine.execRleave g e src s
  | .rstat g e src => Sys2Proof.Machine.execRstat g e src s
  | .epop g e src => Sys2Proof.Machine.execEpop g e src s
  | .epush g e src => Sys2Proof.Machine.execEpush g e src s
  | .estat g e src => Sys2Proof.Machine.execEstat g e src s
  | .estop g e src => Sys2Proof.Machine.execEstop g e src s
  | .cancel g e src => Sys2Proof.Machine.execCancel g e src s
  | .launch g e src => Sys2Proof.Machine.execLaunch g e src s
  | .sleep g e src => Sys2Proof.Machine.execSleep g e src s
  | .prio g e src => Sys2Proof.Machine.execPrio g e src s
  | .sched g e src => Sys2Proof.Machine.execSched g e src s
  | .dbg g e src => Sys2Proof.Machine.execDbg g e src s
  | .wdog g e src => Sys2Proof.Machine.execWdog g e src s
  | .hint g e src => Sys2Proof.Machine.execHint g e src s
  | .eret g e src => Sys2Proof.Machine.execEret g e src s
  | .snap g e src => Sys2Proof.Machine.execSnap g e src s
  | .snapr g e src => Sys2Proof.Machine.execSnapr g e src s
  | .segrew g e src => Sys2Proof.Machine.execSegrew g e src s
  | .inj g e src => Sys2Proof.Machine.execInj g e src s
  | .fcsr g e src => Sys2Proof.Machine.execFcsr g e src s
  | .tlbi g e src => Sys2Proof.Machine.execTlbi g e src s
  | .faultq g e src => Sys2Proof.Machine.execFaultq g e src s
  | .park g e src => Sys2Proof.Machine.execPark g e src s
  | .unpark g e src => Sys2Proof.Machine.execUnpark g e src s
  | .dump g e src => Sys2Proof.Machine.execDump g e src s
  | .fwshare g e src => Sys2Proof.Machine.execFwshare g e src s
  | .slotw g e src => Sys2Proof.Machine.execSlotw g e src s
  | .keyop g e src => Sys2Proof.Machine.execKeyop g e src s
  | .idle g e src => Sys2Proof.Machine.execIdle g e src s
  | .ill g e src => Sys2Proof.Machine.execIll g e src s

end Sys2Proof.Machine
end

