-- ==== Sys2Proof/Machine/HartRun.lean ====
section
/-! DEFINITION. The harts run the published RISC-V set RV64GC (R18): fetch, loads and stores, atomics, and what each
instruction does. A hart's accesses are host accesses of the regions they reach (R260, R261): where one is not the
processor's, its transfer is asked for, and the instruction executes at a later turn of the hart. -/
namespace Sys2Proof.Machine

/-! ### Accesses -/

/-- The regions of some bytes that are not the processor's; the control page lies in none. -/
def State.foreign (s : State) (pas : List Nat) : List Nat :=
  (pas.filter (fun pa => !inCtl pa && !((s.region pa).st == .proc))).map (fun pa => pa / 2 ^ 21)

/-- A byte as a hart reads it. -/
def State.hartByte (s : State) (pa : Nat) : Byte :=
  if inCtl pa then BitVec.ofNat 8 (s.controlRead ((pa - ctlPage) / 8 * 8) / 2 ^ (8 * (pa % 8))) else s.mem.rd pa

/-- An access of `n` bytes goes on with their physical addresses, unless it traps or waits for a region. -/
def State.hartAt (s : State) (h : Nat) (a : HAcc) (va : Word) (n : Nat) (f : List Nat → State) : State :=
  match s.hartBytes h a va n with
  | .inr (c, v) => s.hartTrap h c v
  | .inl pas => match s.foreign pas with
    | [] => f pas
    | rs => s.wantRegions rs

/-- The number that some bytes hold. -/
def State.hartNum (s : State) (pas : List Nat) : Nat := ofBytesLE (pas.map s.hartByte)

/-- Bytes are stored: in memory, in at most two pieces, or, 8 aligned bytes, in a register of the control page. -/
def State.hartStore (s : State) (pas : List Nat) (v : Nat) : State :=
  match pas with
  | [] => s
  | pa :: _ =>
    let n := pas.length
    let bs := toBytesLE n v
    if pas.any inCtl then
      (if n = 8 ∧ pa % 8 = 0 then s.soon [.event (ctlWrite (pa - ctlPage) (BitVec.ofNat 64 v))] else s)
    else
      let m := if pas.getLast? = some (pa + n - 1) then n else 2 ^ 12 - pa % 2 ^ 12
      let s := s.hostPerform pa (bs.take m)
      match pas.drop m with
      | [] => s
      | pb :: _ => s.hostPerform pb (bs.drop m)

/-! ### Instructions -/

/-- The hart's registers change and it goes on behind the instruction. -/
def State.hartGo (s : State) (h len : Nat) (f : Hart → Hart) : State :=
  let x := s.hart h
  s.setHart h { (f x) with pc := x.pc + BitVec.ofNat 64 len }

/-- The hart writes a register and jumps. -/
def State.hartJump (s : State) (h rd : Nat) (link pc : Word) : State :=
  s.setHart h { ((s.hart h).wr rd link) with pc := pc }

/-- The atomic instructions: an address that is not aligned traps; LR holds its line, SC stores if it still does. -/
def State.hartAmo (s : State) (h len f5 f rd rs1 rs2 : Nat) : State :=
  let x := s.hart h
  let n := 2 ^ f
  let va := x.rd rs1
  let src := x.rd rs2
  if va.toNat % n ≠ 0 then s.hartTrap h (if f5 = 2 then 4 else 6) va
  else s.hartAt h (if f5 = 2 then .load else .store) va n (fun pas =>
    let line := pas.head?.map (fun pa => pa / 128)
    if pas.any inCtl then s.hartTrap h (if f5 = 2 then 5 else 7) va
    else
      let old := Rv64.extend f (s.hartNum pas)
      match f5 with
      | 2 => s.hartGo h len (fun x => { (x.wr rd old) with resv := line })
      | 3 =>
        let held := decide (x.resv = line)
        (if held then s.hartStore pas src.toNat else s).hartGo h len (fun x => { (x.wr rd (if held then 0 else 1)) with resv := none })
      | _ => (s.hartStore pas (Rv64.amoVal f5 n old src).toNat).hartGo h len (fun x => x.wr rd old))

/-- An access to a control register. -/
def State.hartCsr (s : State) (h len f rd src n : Nat) : State :=
  let (free, s) := if n = 0xC00 ∨ n = 0xC01 ∨ n = 0xC02 then s.takeWord else (0, s)
  match (s.hart h).csrOp f src n free with
  | none => s.hartIllegal h
  | some (old, y) => (s.setHart h y).hartGo h len (fun x => x.wr rd old)

/-- A floating-point computation with a rounding field, whose result the function gives; a reserved rounding mode is illegal. -/
def State.hartFloat (s : State) (h len rd rm : Nat) (rounds : Bool) (f : RMode → FRes) : State :=
  match (if rounds then Rv64.rmode rm (s.hart h).frm.toNat else some .rne) with
  | none => s.hartIllegal h
  | some r => s.hartGo h len (fun x => x.fres rd (f r))

/-- SRET: illegal outside S-mode. -/
def State.hartSret (s : State) (h : Nat) : State :=
  let x := s.hart h
  if x.sup then s.setHart h { x with pc := x.sepc, sie := x.spie, spie := true, sup := x.spp, spp := false } else s.hartIllegal h

/-- An instruction of the published set, `len` bytes long. -/
def State.hartRv (s : State) (h len : Nat) (i : Rv64) : State :=
  let x := s.hart h
  let next := x.pc + BitVec.ofNat 64 len
  let set (rd : Nat) (v : Word) : State := s.hartGo h len (fun x => x.wr rd v)
  let float (t : State) : State := if x.fs = 0 then s.hartIllegal h else t
  match i with
  | .lui rd imm => set rd imm
  | .auipc rd imm => set rd (x.pc + imm)
  | .jal rd off => s.hartJump h rd next (x.pc + off)
  | .jalr rd rs1 off => s.hartJump h rd next ((x.rd rs1 + off) &&& ~~~1)
  | .branch f rs1 rs2 off => s.hartJump h 0 0 (if Rv64.taken f (x.rd rs1) (x.rd rs2) then x.pc + off else next)
  | .load f rd rs1 off => s.hartAt h .load (x.rd rs1 + off) (2 ^ (f % 4)) (fun pas => set rd (Rv64.extend f (s.hartNum pas)))
  | .store f rs1 rs2 off => s.hartAt h .store (x.rd rs1 + off) (2 ^ f) (fun pas => (s.hartStore pas (x.rd rs2).toNat).hartGo h len id)
  | .opImm w f alt rd rs1 imm => set rd (if w then Rv64.aluW f alt (x.rd rs1) imm else Rv64.alu f alt (x.rd rs1) imm)
  | .op w f alt rd rs1 rs2 => set rd (if w then Rv64.aluW f alt (x.rd rs1) (x.rd rs2) else Rv64.alu f alt (x.rd rs1) (x.rd rs2))
  | .mulDiv w f rd rs1 rs2 => set rd (if w then Rv64.muldivW f (x.rd rs1) (x.rd rs2) else Rv64.muldiv f (x.rd rs1) (x.rd rs2))
  | .fence | .wfi => s.hartGo h len id
  | .amo f5 f rd rs1 rs2 => s.hartAmo h len f5 f rd rs1 rs2
  | .csr f rd src n => s.hartCsr h len f rd src n
  | .ecall => s.hartTrap h (if x.sup then 9 else 8) 0
  | .ebreak => s.hartTrap h 3 x.pc
  | .sret => s.hartSret h
  | .sfence => if x.sup then s.hartGo h len id else s.hartIllegal h
  | .fload f rd rs1 off => float (s.hartAt h .load (x.rd rs1 + off) (2 ^ f) (fun pas =>
      s.hartGo h len (fun x => x.fput rd (Rv64.boxed (f - 2) (s.hartNum pas)))))
  | .fstore f rs1 rs2 off => float (s.hartAt h .store (x.rd rs1 + off) (2 ^ f) (fun pas => (s.hartStore pas (x.fget rs2).toNat).hartGo h len id))
  | .fma op fmt rm rd rs1 rs2 rs3 => float (s.hartFloat h len rd rm true (fun r => Rv64.fmaVal op fmt r (x.fget rs1) (x.fget rs2) (x.fget rs3)))
  | .fop f7 rm rd rs1 rs2 => float (s.hartFloat h len rd rm (Rv64.rounds f7) (fun r => Rv64.fopVal f7 rm r rs2 (x.fget rs1) (x.fget rs2) (x.rd rs1)))

/-! ### Fetch -/

/-- What a hart's fetch finds: an exception, a region to wait for, or a word of two or four bytes. -/
inductive HFetch where
  | trap (code : Nat) (va : Word)
  | wait (rs : List Nat)
  | word (n len : Nat)
  deriving DecidableEq, Repr

/-- Two bytes of an instruction. -/
def State.hartHalf (s : State) (h : Nat) (va : Word) (f : Nat → HFetch) : HFetch :=
  match s.hartBytes h .fetch va 2 with
  | .inr (c, v) => .trap c v
  | .inl pas => match s.foreign pas with
    | [] => f (s.hartNum pas)
    | rs => .wait rs

/-- A hart's instruction: two bytes, and two more where the first say so. -/
def State.hartFetch (s : State) (h : Nat) : HFetch :=
  let pc := (s.hart h).pc
  s.hartHalf h pc (fun lo => if lo % 4 ≠ 3 then .word lo 2 else s.hartHalf h (pc + 2) (fun hi => .word (lo + 2 ^ 16 * hi) 4))

/-- The host instruction of this manual that a fetched word holds (R91). -/
def hartInstr (n len : Nat) : Option Instr := if len = 4 then decodeHart (BitVec.ofNat 32 n) else none

/-- The place of an instruction in the continuation engine's order of one cycle (R78): CSAVE and CLOAD, CRESUME, CPOST; others
execute at once. -/
def enginePlace : Instr → Option Nat
  | .csave _ _ | .cload _ _ => some 0
  | .cresume _ _ _ => some 1
  | .cpost _ _ => some 2
  | _ => none

/-- The place of a hart's next instruction. -/
def State.engineRank (s : State) (h : Nat) : Option Nat :=
  match s.hartFetch h with
  | .word n len => (hartInstr n len).bind enginePlace
  | _ => none

/-- Whether a word is an instruction of the vector extension: OP-V, or a vector load or store. -/
def vectorWord (n : Nat) : Bool :=
  let f := fld n 12 3
  match fld n 0 7 with
  | 0x57 => true
  | 0x07 | 0x27 => decide (f = 0 ∨ 5 ≤ f)
  | _ => false

end Sys2Proof.Machine
end

