-- ==== Sys2Proof/Machine/Rv64V.lean ====
section
/-! DEFINITION. The V extension of the host harts (R18) on a vector register file: registers of 128 bits and elements of at
most 64 (log 50), the elements of the instructions of OP-V, and which of their encodings are reserved. Memory is in
Machine/HartVmem.lean. -/
namespace Sys2Proof.Machine

/-! ### Registers and their elements -/

/-- The vector registers v0 to v31. -/
abbrev HvFile := Vector (BitVec 128) 32

/-- Element `i`, of `w` bits, of the group that begins at register `r`. -/
def HvFile.elt (v : HvFile) (w r i : Nat) : Nat := Rv64.fld (rget 0 v (r + i * w / 128)).toNat (i * w % 128) w

/-- An element is written. -/
def HvFile.put (v : HvFile) (w r i x : Nat) : HvFile :=
  let q := r + i * w / 128
  let at' := i * w % 128
  let old := (rget 0 v q).toNat
  rset v q (BitVec.ofNat 128 (old - Rv64.fld old at' w * 2 ^ at' + x % 2 ^ w * 2 ^ at'))

/-- Bit `i` of a mask register. -/
def HvFile.bit (v : HvFile) (r i : Nat) : Bool := (rget 0 v r).getLsbD i

/-- `vtype`: the element width, LMUL in eighths (0 where it is reserved), and whether the type is one that these harts have. -/
def hvsewOf (t : Word) : Nat := 8 * 2 ^ Rv64.fld t.toNat 3 3
def hvlmOf (t : Word) : Nat := match Rv64.fld t.toNat 0 3 with | 0 => 8 | 1 => 16 | 2 => 32 | 3 => 64 | 5 => 1 | 6 => 2 | 7 => 4 | _ => 0
def hvtypeOk (t : Word) : Bool := decide (t.toNat < 2 ^ 8 ∧ hvsewOf t ≤ 64 ∧ hvlmOf t ≠ 0 ∧ hvsewOf t ≤ 8 * hvlmOf t)
def hvlmaxOf (t : Word) : Nat := 16 * hvlmOf t / hvsewOf t

/-- A group of registers that an instruction names: its first register, its element width (1 for a mask), EMUL in eighths. -/
structure HvGrp where
  r : Nat
  w : Nat
  m : Nat
  deriving DecidableEq, Repr

/-- A register as a mask, and as one that holds a scalar element. -/
def hvmsk (r : Nat) : HvGrp := ⟨r, 1, 8⟩
def hvone (r w : Nat) : HvGrp := ⟨r, w, 8⟩

def HvGrp.n (g : HvGrp) : Nat := max 1 (g.m / 8)
/-- Whether the group exists: EMUL of 1/8 to 8, elements of at most 64 bits, an aligned first register. -/
def HvGrp.ok (g : HvGrp) : Bool := decide (1 ≤ g.m ∧ g.m ≤ 64 ∧ g.w ≤ 64 ∧ g.r % g.n = 0)
def HvGrp.meets (a b : HvGrp) : Bool := decide (a.r < b.r + b.n ∧ b.r < a.r + a.n)
/-- Whether a destination may lie where a source does: apart from it; with the same width; narrower, at its lowest register;
wider, where the source is its highest part. -/
def HvGrp.mayMeet (d s : HvGrp) : Bool :=
  !d.meets s || decide (d.w = s.w ∨ (d.w < s.w ∧ d.r = s.r) ∨ (s.w < d.w ∧ 8 ≤ s.m ∧ s.r + s.n = d.r + d.n))
/-- Whether no register is read in two widths. -/
def HvGrp.oneWidth (l : List HvGrp) : Bool := l.all (fun a => l.all (fun b => !a.meets b || decide (a.w = b.w)))

/-- What an instruction of OP-V executes with: the registers, `vtype` in its parts, `vl`, `vstart`, the rounding modes, the
fields of the word, the scalar operands, and the free value of its agnostic elements. -/
structure HvEnv where
  v : HvFile
  sew : Nat
  lm : Nat
  ta : Bool
  ma : Bool
  vl : Nat
  vstart : Nat
  xrm : Nat
  rm : RMode
  g : Nat
  vm : Bool
  vd : Nat
  vs1 : Nat
  vs2 : Nat
  f3 : Nat
  x : Word
  f : Word
  deriving DecidableEq, Repr

/-- What it leaves: the registers, a result for an x or an f register, floating-point flags and saturation. -/
structure HvOut where
  v : HvFile
  x : Option Word := none
  f : Option Word := none
  fl : Flags := 0
  sat : Bool := false
  deriving DecidableEq, Repr

/-- An element's result. -/
structure HvRes where
  n : Nat
  fl : Flags := 0
  sat : Bool := false
  deriving DecidableEq, Repr

def HvEnv.vlmax (e : HvEnv) : Nat := 16 * e.lm / e.sew
/-- The group of register `r` with elements of `w` bits. -/
def HvEnv.grp (e : HvEnv) (w r : Nat) : HvGrp := ⟨r, w, w * e.lm / e.sew⟩
/-- Whether element `i` is active. -/
def HvEnv.on (e : HvEnv) (i : Nat) : Bool := e.vm || e.v.bit 0 i
/-- Whether the second operand is a vector. -/
def HvEnv.vec (e : HvEnv) : Bool := decide (e.f3 < 3)

/-- Whether an instruction with these groups exists: they do, no register is read in two widths (the mask in one bit; `acc`
says that the destination is read too), and the destination lies where it may: not in v0 where the instruction is masked and
its result no mask. -/
def HvEnv.legal (e : HvEnv) (d : HvGrp) (srcs : List HvGrp) (acc : Bool := false) : Bool :=
  let rd := srcs ++ (if acc then [d] else []) ++ (if e.vm then [] else [hvmsk 0])
  d.ok && srcs.all HvGrp.ok && HvGrp.oneWidth rd && srcs.all d.mayMeet && (e.vm || decide (d.w = 1 ∨ d.r ≠ 0))

/-- An agnostic element: it keeps its value or becomes all ones (a free value). -/
def agnostic (g w i old : Nat) : Nat := if (Config.freeByte g i).getLsbD 0 then 2 ^ w - 1 else old

/-- The elements of a destination of `n` registers are written: those before `vstart` and `low` stay, active ones of the body
(all of it for `all`) take their results, the others are undisturbed or agnostic. -/
def HvEnv.body (e : HvEnv) (w n low : Nat) (all : Bool) (f : Nat → HvRes) : HvOut :=
  if e.vl ≤ e.vstart then { v := e.v }
  else (upto 0 (n * (128 / w))).foldl (fun (o : HvOut) (i : Nat) =>
    let old := e.v.elt w e.vd i
    if i < max e.vstart low then o
    else if i < e.vl then
      if all || e.on i then
        let r := f i
        { o with v := o.v.put w e.vd i r.n, fl := o.fl ||| r.fl, sat := o.sat || r.sat }
      else if e.ma then { o with v := o.v.put w e.vd i (agnostic e.g w i old) } else o
    else if e.ta then { o with v := o.v.put w e.vd i (agnostic e.g w i old) } else o) { v := e.v }

/-- The bits of a mask destination are written; its tail is agnostic whatever `vtype` says (a free value). -/
def HvEnv.bits (e : HvEnv) (all : Bool) (f : Nat → Bool × Flags) : HvOut :=
  if e.vl ≤ e.vstart then { v := e.v }
  else (upto 0 128).foldl (fun (o : HvOut) (i : Nat) =>
    let set (b : Bool) (fl : Flags) : HvOut := { o with v := o.v.put 1 e.vd i b.toNat, fl := o.fl ||| fl }
    if i < e.vstart then o
    else if i < e.vl then
      if all || e.on i then let r := f i; set r.1 r.2
      else if e.ma then set (e.v.bit e.vd i || (Config.freeByte e.g i).getLsbD 0) 0 else o
    else set ((Config.freeByte e.g i).getLsbD 0) 0) { v := e.v }

/-! ### Operands -/

/-- The second operand of element `i`: of a vector, the sign-extended immediate, the x register, the f register. -/
def HvEnv.opnd (e : HvEnv) (w i : Nat) : Nat :=
  if e.vec then e.v.elt w e.vs1 i
  else match e.f3 with
    | 3 => (Rv64.sext 5 e.vs1).toNat % 2 ^ w
    | 5 => if w = 32 then Rv64.unbox 0 e.f else e.f.toNat
    | _ => e.x.toNat % 2 ^ w
/-- An amount or an index: of a vector, the unsigned immediate, the whole x register. -/
def HvEnv.amount (e : HvEnv) (w i : Nat) : Nat :=
  if e.vec then e.v.elt w e.vs1 i else if e.f3 = 3 then e.vs1 else e.x.toNat
/-- The source groups of vs2 and of a vector operand. -/
def HvEnv.srcs (e : HvEnv) (w2 w1 : Nat) : List HvGrp := e.grp w2 e.vs2 :: (if e.vec then [e.grp w1 e.vs1] else [])

/-- An instruction element by element: results of `wd` bits from those of vs2 and of the other operand. -/
def HvEnv.arith (e : HvEnv) (wd w2 w1 : Nat) (acc all : Bool) (f : Nat → Nat → Nat → HvRes) : Option HvOut :=
  let d := e.grp wd e.vd
  if e.legal d (e.srcs w2 w1) acc then some (e.body wd d.n 0 all (fun i => f i (e.v.elt w2 e.vs2 i) (e.opnd w1 i))) else none

/-- A comparison of elements, into a mask. -/
def HvEnv.cmp (e : HvEnv) (all : Bool) (f : Nat → Nat → Nat → Bool × Flags) : Option HvOut :=
  if e.legal (hvmsk e.vd) (e.srcs e.sew e.sew) then
    some (e.bits all (fun i => f i (e.v.elt e.sew e.vs2 i) (e.opnd e.sew i))) else none

/-- A reduction, in element order: of the elements of vs2, from element 0 of vs1, into element 0 of vd. -/
def HvEnv.reduce (e : HvEnv) (wd : Nat) (f : Nat → Nat → HvRes) : Option HvOut :=
  let s := e.grp e.sew e.vs2
  if e.vstart = 0 ∧ wd ≤ 64 ∧ s.ok ∧ HvGrp.oneWidth ([s, hvone e.vs1 wd] ++ (if e.vm then [] else [hvmsk 0])) then
    let r := (upto 0 e.vl).foldl (fun (a : HvRes) (i : Nat) =>
      if e.on i then let r := f a.n (e.v.elt e.sew e.vs2 i); { r with fl := a.fl ||| r.fl } else a) { n := e.v.elt wd e.vs1 0 }
    some { (if e.vl = 0 then { v := e.v } else { e with vl := 1, vm := true }.body wd 1 0 true (fun _ => { n := r.n })) with fl := r.fl }
  else none

/-! ### Integer elements -/

/-- A number of `w` bits as a signed one, and a number as `w` bits. -/
def hvsg (w n : Nat) : Int := if n < 2 ^ (w - 1) then n else (n : Int) - 2 ^ w
def hvwrap (w : Nat) (i : Int) : Nat := (i % 2 ^ w).toNat

/-- A number without its `d` low bits, rounded by `vxrm`: to nearest with ties up or to even, down, to odd. -/
def hvround (xrm : Nat) (v : Int) (d : Nat) : Int :=
  let q := v / 2 ^ d
  let r := v % 2 ^ d
  let up := match xrm with
    | 0 => decide (0 < r ∧ 2 ^ d ≤ 2 * r)
    | 1 => decide (2 ^ d < 2 * r ∨ (0 < r ∧ 2 ^ d = 2 * r ∧ q % 2 = 1))
    | 2 => false
    | _ => decide (q % 2 = 0 ∧ r ≠ 0)
  if up then q + 1 else q

/-- A number as one of `w` bits, signed or not, saturated. -/
def hvclip (sgn : Bool) (w : Nat) (v : Int) : HvRes :=
  let lo : Int := if sgn then -2 ^ (w - 1) else 0
  let hi : Int := if sgn then 2 ^ (w - 1) - 1 else 2 ^ w - 1
  { n := hvwrap w (max lo (min hi v)), sat := decide (v < lo ∨ hi < v) }

/-- The operations of OPIVV, OPIVX and OPIVI on elements of one width, by funct6; `b` is the other operand, and `n` its amount
of a shift. -/
def hvInt (xrm w f6 a b n : Nat) : HvRes :=
  let sa := hvsg w a; let sb := hvsg w b
  let wr (i : Int) : HvRes := { n := hvwrap w i }
  match f6 with
  | 0x00 => wr (sa + sb)
  | 0x02 => wr (sa - sb)
  | 0x03 => wr (sb - sa)
  | 0x04 => { n := min a b }
  | 0x05 => wr (min sa sb)
  | 0x06 => { n := max a b }
  | 0x07 => wr (max sa sb)
  | 0x09 => { n := a &&& b }
  | 0x0A => { n := a ||| b }
  | 0x0B => { n := a ^^^ b }
  | 0x20 => hvclip false w (a + b)
  | 0x21 => hvclip true w (sa + sb)
  | 0x22 => hvclip false w ((a : Int) - b)
  | 0x23 => hvclip true w (sa - sb)
  | 0x25 => { n := a * 2 ^ (n % w) % 2 ^ w }
  | 0x27 => hvclip true w (hvround xrm (sa * sb) (w - 1))
  | 0x28 => { n := a / 2 ^ (n % w) }
  | 0x29 => wr (sa / 2 ^ (n % w))
  | 0x2A => wr (hvround xrm a (n % w))
  | _ => wr (hvround xrm sa (n % w))

/-- The narrowing operations: shifts, and clips to the narrow width. -/
def hvNarrow (xrm w f6 a n : Nat) : HvRes :=
  let k := n % (2 * w)
  match f6 with
  | 0x2C => { n := hvwrap w ((a : Int) / 2 ^ k) }
  | 0x2D => { n := hvwrap w (hvsg (2 * w) a / 2 ^ k) }
  | 0x2E => hvclip false w (hvround xrm a k)
  | _ => hvclip true w (hvround xrm (hvsg (2 * w) a) k)

/-- The integer comparisons. -/
def hvCmp (w f6 a b : Nat) : Bool :=
  match f6 with
  | 0x18 => decide (a = b)
  | 0x19 => decide (a ≠ b)
  | 0x1A => decide (a < b)
  | 0x1B => decide (hvsg w a < hvsg w b)
  | 0x1C => decide (a ≤ b)
  | 0x1D => decide (hvsg w a ≤ hvsg w b)
  | 0x1E => decide (b < a)
  | _ => decide (hvsg w b < hvsg w a)

/-- The operations of OPMVV and OPMVX on elements of one width; `d` is the old destination. -/
def hvMul (xrm w f6 d a b : Nat) : HvRes :=
  let sa := hvsg w a; let sb := hvsg w b; let sd := hvsg w d
  let wr (i : Int) : HvRes := { n := hvwrap w i }
  match f6 with
  | 0x08 => wr (hvround xrm (a + b : Nat) 1)
  | 0x09 => wr (hvround xrm (sa + sb) 1)
  | 0x0A => wr (hvround xrm ((a : Int) - b) 1)
  | 0x0B => wr (hvround xrm (sa - sb) 1)
  | 0x20 => wr (Rv64.divS a b)
  | 0x21 => wr (Rv64.divS sa sb)
  | 0x22 => wr (Rv64.remS a b)
  | 0x23 => wr (Rv64.remS sa sb)
  | 0x24 => { n := a * b / 2 ^ w }
  | 0x25 => wr (sa * sb)
  | 0x26 => wr (sa * (b : Int) / 2 ^ w)
  | 0x27 => wr (sa * sb / 2 ^ w)
  | 0x29 => wr (sb * sd + sa)
  | 0x2B => wr (sa - sb * sd)
  | 0x2D => wr (sb * sa + sd)
  | _ => wr (sd - sb * sa)

/-- The widening operations: both operands narrow. -/
def hvWide (w f6 d a b : Nat) : HvRes :=
  let sa := hvsg w a; let sb := hvsg w b
  let wr (i : Int) : HvRes := { n := hvwrap (2 * w) i }
  match f6 with
  | 0x30 => wr (a + b : Nat)
  | 0x31 => wr (sa + sb)
  | 0x32 => wr ((a : Int) - b)
  | 0x33 => wr (sa - sb)
  | 0x38 => wr (a * b : Nat)
  | 0x3A => wr (sa * (b : Int))
  | 0x3B => wr (sa * sb)
  | 0x3C => wr ((d : Int) + (a : Int) * b)
  | 0x3D => wr ((d : Int) + sa * sb)
  | 0x3E => wr ((d : Int) + sa * (b : Int))
  | _ => wr ((d : Int) + (a : Int) * sb)

/-- The widening sums whose first operand is wide. -/
def hvWideW (w f6 a b : Nat) : HvRes :=
  let wr (i : Int) : HvRes := { n := hvwrap (2 * w) i }
  match f6 with
  | 0x34 => wr (a + b : Nat)
  | 0x35 => wr ((a : Int) + hvsg w b)
  | 0x36 => wr ((a : Int) - b)
  | _ => wr ((a : Int) - hvsg w b)

/-- The integer reductions. -/
def hvRed (w f6 a b : Nat) : HvRes :=
  match f6 with
  | 0 => { n := (a + b) % 2 ^ w }
  | 1 => { n := a &&& b }
  | 2 => { n := a ||| b }
  | 3 => { n := a ^^^ b }
  | 4 => { n := min a b }
  | 5 => { n := hvwrap w (min (hvsg w a) (hvsg w b)) }
  | 6 => { n := max a b }
  | _ => { n := hvwrap w (max (hvsg w a) (hvsg w b)) }

/-- The logical operations on masks. -/
def hvLogic (f6 : Nat) (a b : Bool) : Bool :=
  match f6 with
  | 0x18 => a && !b
  | 0x19 => a && b
  | 0x1A => a || b
  | 0x1B => a != b
  | 0x1C => a || !b
  | 0x1D => !(a && b)
  | 0x1E => !(a || b)
  | _ => a == b

/-! ### Permutations -/

/-- Results that take elements of vs2 from other places; `apart` asks that the destination meet no source. -/
def HvEnv.permute (e : HvEnv) (srcs : List HvGrp) (apart : Bool) (low : Nat) (f : Nat → Nat) : Option HvOut :=
  let d := e.grp e.sew e.vd
  if e.legal d srcs && !(apart && srcs.any d.meets) then some (e.body e.sew d.n low false (fun i => { n := f i })) else none

/-- Element `i` of vs2, 0 beyond VLMAX. -/
def HvEnv.pick (e : HvEnv) (i : Nat) : Nat := if i < e.vlmax then e.v.elt e.sew e.vs2 i else 0

/-- VRGATHER, and VRGATHEREI16 with indices of 16 bits. -/
def HvEnv.gather (e : HvEnv) (wi : Nat) : Option HvOut := e.permute (e.srcs e.sew wi) true 0 (fun i => e.pick (e.amount wi i))
/-- VSLIDEUP and VSLIDEDOWN by an amount. -/
def HvEnv.slideUp (e : HvEnv) : Option HvOut :=
  let n := e.amount e.sew 0
  e.permute [e.grp e.sew e.vs2] true n (fun i => e.v.elt e.sew e.vs2 (i - n))
def HvEnv.slideDown (e : HvEnv) : Option HvOut := e.permute [e.grp e.sew e.vs2] false 0 (fun i => e.pick (i + e.amount e.sew 0))
/-- VSLIDE1UP and VSLIDE1DOWN, and those of an f register. -/
def HvEnv.slide1Up (e : HvEnv) : Option HvOut :=
  e.permute [e.grp e.sew e.vs2] true 0 (fun i => if i = 0 then e.opnd e.sew 0 else e.v.elt e.sew e.vs2 (i - 1))
def HvEnv.slide1Down (e : HvEnv) : Option HvOut :=
  e.permute [e.grp e.sew e.vs2] false 0 (fun i => if i + 1 = e.vl then e.opnd e.sew 0 else e.pick (i + 1))

/-- VCOMPRESS: the elements whose mask bit is 1, together; the others are its tail. -/
def HvEnv.compress (e : HvEnv) : Option HvOut :=
  let d := e.grp e.sew e.vd
  let s := e.grp e.sew e.vs2
  if e.vm && decide (e.vstart = 0) && e.legal d [s, hvmsk e.vs1] && !d.meets s && !d.meets (hvmsk e.vs1) then
    let l := (upto 0 e.vl).filter (e.v.bit e.vs1)
    some (if e.vl = 0 then { v := e.v }
      else if l.isEmpty then { v := (if e.ta then (upto 0 (d.n * (128 / e.sew))).foldl (fun (v : HvFile) (i : Nat) =>
        v.put e.sew e.vd i (agnostic e.g e.sew i (e.v.elt e.sew e.vd i))) e.v else e.v) }
      else { e with vl := l.length }.body e.sew d.n 0 true (fun i => { n := e.v.elt e.sew e.vs2 (nth 0 l i) }))
  else none

/-- VMV1R, VMV2R, VMV4R, VMV8R: whole registers. -/
def HvEnv.moveRegs (e : HvEnv) : Option HvOut :=
  let n := e.vs1 + 1
  if e.vm && n ∈ [1, 2, 4, 8] && decide (e.vd % n = 0 ∧ e.vs2 % n = 0) then
    some ({ e with vl := n * 128 / e.sew }.body e.sew n 0 true (fun i => { n := e.v.elt e.sew e.vs2 i }))
  else none

/-- A scalar becomes element 0 of vd, whatever LMUL is. -/
def HvEnv.moveIn (e : HvEnv) : HvOut :=
  if e.vl ≤ e.vstart then { v := e.v } else { e with vl := 1 }.body e.sew 1 0 true (fun _ => { n := e.opnd e.sew 0 })

/-! ### Masks -/

/-- VMSBF, VMSOF, VMSIF (by the field of vs1): the bits before, of, up to the first active bit that is 1. -/
def HvEnv.first (e : HvEnv) (k : Nat) : Option HvOut :=
  let act (i : Nat) : Bool := e.on i && e.v.bit e.vs2 i
  if e.vstart = 0 ∧ e.vd ≠ e.vs2 ∧ (e.vm ∨ e.vd ≠ 0) then
    let p := ((upto 0 e.vl).find? act).getD e.vl
    some (e.bits false (fun i => (match k with | 1 => decide (i < p) | 2 => decide (i = p) | _ => decide (i ≤ p), 0)))
  else none

/-- VIOTA: the number of active bits that are 1 before each element. -/
def HvEnv.iota (e : HvEnv) : Option HvOut :=
  let d := e.grp e.sew e.vd
  if decide (e.vstart = 0) && e.legal d [hvmsk e.vs2] && !d.meets (hvmsk e.vs2) then
    some (e.body e.sew d.n 0 false (fun i => { n := ((upto 0 i).filter (fun j => e.on j && e.v.bit e.vs2 j)).length }))
  else none

/-! ### The integer instructions by funct6 -/

/-- The forms that an instruction of OPIVV, OPIVX and OPIVI has, by funct3. -/
def hvForms (f6 : Nat) : List Nat :=
  match f6 with
  | 0x02 | 0x04 | 0x05 | 0x06 | 0x07 | 0x12 | 0x13 | 0x1A | 0x1B | 0x22 | 0x23 => [0, 4]
  | 0x03 | 0x0F | 0x1E | 0x1F => [3, 4]
  | 0x30 | 0x31 => [0]
  | _ => [0, 3, 4]

/-- OPIVV, OPIVX, OPIVI. -/
def HvEnv.opi (e : HvEnv) (f6 : Nat) : Option HvOut :=
  let w := e.sew
  let carry (i : Nat) : Nat := if e.vm then 0 else (e.v.bit 0 i).toNat
  if !(hvForms f6).contains e.f3 then none
  else match f6 with
    | 0x00 | 0x02 | 0x03 | 0x04 | 0x05 | 0x06 | 0x07 | 0x09 | 0x0A | 0x0B | 0x20 | 0x21 | 0x22 | 0x23 | 0x25 | 0x28 | 0x29 | 0x2A | 0x2B =>
      e.arith w w w false false (fun i a b => hvInt e.xrm w f6 a b (e.amount w i))
    | 0x27 => if e.f3 = 3 then e.moveRegs else e.arith w w w false false (fun _ a b => hvInt e.xrm w f6 a b 0)
    | 0x0C => e.gather w
    | 0x0E => if e.vec then e.gather 16 else e.slideUp
    | 0x0F => e.slideDown
    | 0x10 => if e.vm then none else e.arith w w w false true (fun i a b => { n := (a + b + carry i) % 2 ^ w })
    | 0x12 => if e.vm then none else e.arith w w w false true (fun i a b => { n := hvwrap w ((a : Int) - b - carry i) })
    | 0x11 => e.cmp true (fun i a b => (decide (2 ^ w ≤ a + b + carry i), 0))
    | 0x13 => e.cmp true (fun i a b => (decide (a < b + carry i), 0))
    | 0x17 => if e.vm && decide (e.vs2 ≠ 0) then none else e.arith w w w false true (fun i a b => { n := if e.on i then b else a })
    | 0x18 | 0x19 | 0x1A | 0x1B | 0x1C | 0x1D | 0x1E | 0x1F => e.cmp false (fun _ a b => (hvCmp w f6 a b, 0))
    | 0x2C | 0x2D | 0x2E | 0x2F => e.arith w (2 * w) w false false (fun i a _ => hvNarrow e.xrm w f6 a (e.amount w i))
    | 0x30 => e.reduce (2 * w) (fun a b => { n := (a + b) % 2 ^ (2 * w) })
    | 0x31 => e.reduce (2 * w) (fun a b => { n := hvwrap (2 * w) (a + hvsg w b) })
    | _ => none

/-- VZEXT and VSEXT from an eighth, a quarter, a half of the width (by the field of vs1). -/
def HvEnv.extend (e : HvEnv) : Option HvOut :=
  let ws := e.sew / (match e.vs1 / 2 with | 1 => 8 | 2 => 4 | _ => 2)
  let d := e.grp e.sew e.vd
  if e.vs1 < 2 ∨ 7 < e.vs1 ∨ ws < 8 then none
  else if e.legal d [e.grp ws e.vs2] then
    some (e.body e.sew d.n 0 false (fun i =>
      let a := e.v.elt ws e.vs2 i
      { n := if e.vs1 % 2 = 0 then a else hvwrap e.sew (hvsg ws a) }))
  else none

/-- OPMVV, OPMVX. -/
def HvEnv.opm (e : HvEnv) (f6 : Nat) : Option HvOut :=
  let w := e.sew
  let old (ww i : Nat) : Nat := e.v.elt ww e.vd i
  match f6 with
  | 0x00 | 0x01 | 0x02 | 0x03 | 0x04 | 0x05 | 0x06 | 0x07 => if e.vec then e.reduce w (hvRed w f6) else none
  | 0x08 | 0x09 | 0x0A | 0x0B | 0x20 | 0x21 | 0x22 | 0x23 | 0x24 | 0x25 | 0x26 | 0x27 =>
    e.arith w w w false false (fun _ a b => hvMul e.xrm w f6 0 a b)
  | 0x29 | 0x2B | 0x2D | 0x2F => e.arith w w w true false (fun i a b => hvMul e.xrm w f6 (old w i) a b)
  | 0x0E => if e.vec then none else e.slide1Up
  | 0x0F => if e.vec then none else e.slide1Down
  | 0x10 =>
    if e.vec then
      match e.vs1 with
      | 0 => if e.vm then some { v := e.v, x := some (BitVec.ofInt 64 (hvsg w (e.v.elt w e.vs2 0))) } else none
      | 16 => if e.vstart = 0 then
          some { v := e.v, x := some (BitVec.ofNat 64 ((upto 0 e.vl).filter (fun i => e.on i && e.v.bit e.vs2 i)).length) } else none
      | 17 => if e.vstart = 0 then
          some { v := e.v, x := some (match (upto 0 e.vl).find? (fun i => e.on i && e.v.bit e.vs2 i) with
            | some i => BitVec.ofNat 64 i | none => -1) } else none
      | _ => none
    else if e.vm && decide (e.vs2 = 0) then some e.moveIn else none
  | 0x12 => if e.vec then e.extend else none
  | 0x14 =>
    if !e.vec then none
    else match e.vs1 with
      | 1 | 2 | 3 => e.first e.vs1
      | 16 => e.iota
      | 17 => if e.vs2 ≠ 0 then none else
          let d := e.grp w e.vd
          if e.legal d [] then some (e.body w d.n 0 false (fun i => { n := i })) else none
      | _ => none
  | 0x17 => if e.vec then e.compress else none
  | 0x18 | 0x19 | 0x1A | 0x1B | 0x1C | 0x1D | 0x1E | 0x1F =>
    if e.vec && e.vm then some (e.bits true (fun i => (hvLogic f6 (e.v.bit e.vs2 i) (e.v.bit e.vs1 i), 0))) else none
  | 0x30 | 0x31 | 0x32 | 0x33 | 0x38 | 0x3A | 0x3B => e.arith (2 * w) w w false false (fun _ a b => hvWide w f6 0 a b)
  | 0x34 | 0x35 | 0x36 | 0x37 => e.arith (2 * w) (2 * w) w false false (fun _ a b => hvWideW w f6 a b)
  | 0x3C | 0x3D | 0x3F => e.arith (2 * w) w w true false (fun i a b => hvWide w f6 (old (2 * w) i) a b)
  | 0x3E => if e.vec then none else e.arith (2 * w) w w true false (fun i a b => hvWide w f6 (old (2 * w) i) a b)
  | _ => none

/-! ### Floating-point elements -/

/-- The format of elements of `w` bits; there is one where `w` is 32 or 64. -/
def hvfmt (w : Nat) : FFmt := if w = 32 then fp32 else fp64
def hvfw (w : Nat) : Bool := decide (w = 32 ∨ w = 64)

/-- An exact value as a result. -/
def hvfres (w : Nat) (rm : RMode) (v : FV) : HvRes := let r := roundFV (hvfmt w) rm v; { n := r.1, fl := r.2 }

/-- The operations of one width: sums, products, quotients, minima, maxima and signs. -/
def hvfOp (rm : RMode) (w f6 a b : Nat) : HvRes :=
  let g := hvfmt w
  let ret (p : Nat × Flags) : HvRes := { n := p.1, fl := p.2 }
  match f6 with
  | 0x00 => ret (fadd g rm a b)
  | 0x02 => ret (fsub g rm a b)
  | 0x04 => ret (fminmax g false a b)
  | 0x06 => ret (fminmax g true a b)
  | 0x08 | 0x09 | 0x0A => { n := Rv64.sgnj g (f6 - 8) a b }
  | 0x20 => ret (fdiv g rm (unpack g a) (unpack g b))
  | 0x21 => ret (fdiv g rm (unpack g b) (unpack g a))
  | 0x24 => ret (fmul g rm a b)
  | _ => ret (fsub g rm b a)

/-- A product and a term, with the signs that bits of `k` give: bit 0 negates the product, bit 1 the term. -/
def hvfFma (rm : RMode) (wd k : Nat) (a b c : FV) : HvRes :=
  let p := a.mul b
  hvfres wd rm (fsum rm [if k % 2 = 1 then p.neg else p, if k / 2 = 1 then c.neg else c])

/-- The signs of the fused instructions by the low bits of funct6: VFMACC, VFNMACC, VFMSAC, VFNMSAC, and their kin. -/
def hvfSigns (f6 : Nat) : Nat := match f6 % 4 with | 0 => 0 | 1 => 3 | 2 => 2 | _ => 1

/-- The floating-point comparisons. -/
def hvfCmp (w f6 a b : Nat) : Bool × Flags :=
  let g := hvfmt w
  let va := unpack g a; let vb := unpack g b
  match f6 with
  | 0x18 => Rv64.fcmpVal 2 va vb
  | 0x19 => Rv64.fcmpVal 0 va vb
  | 0x1B => Rv64.fcmpVal 1 va vb
  | 0x1C => let r := Rv64.fcmpVal 2 va vb; (!r.1, r.2)
  | 0x1D => Rv64.fcmpVal 1 vb va
  | _ => Rv64.fcmpVal 0 vb va

/-- A float of `ws` bits as an integer of `wd` bits. -/
def hvfToInt (rm : RMode) (sgn : Bool) (ws wd a : Nat) : HvRes :=
  let (lo, hi) : Int × Int := if sgn then (-2 ^ (wd - 1), 2 ^ (wd - 1) - 1) else (0, 2 ^ wd - 1)
  let r := toInteger rm lo hi (unpack (hvfmt ws) a)
  { n := hvwrap wd r.1, fl := r.2 }

/-- The rest of a code whose leading zeros are shifted out: the number of them, and the fraction. -/
def hvnormal (fb fr : Nat) : Nat × Nat :=
  let lz := fb - bitLen fr
  (lz, fr * 2 ^ (lz + 1) % 2 ^ fb)

/-- VFREC7: an estimate of 1/a of seven bits, from the table that the published set gives (entry `i` is
2^15/(128 + i + ½) rounded, less 128). -/
def hvfRec7 (rm : RMode) (w a : Nat) : HvRes :=
  let g := hvfmt w
  let neg := decide (g.sbit ≤ a)
  let s := if neg then g.sbit else 0
  let ex := a % g.sbit / 2 ^ g.fb
  let fr := a % 2 ^ g.fb
  match unpack g a with
  | .nan i => { n := g.nan, fl := if i then flNV else 0 }
  | .inf _ => { n := s }
  | .fin _ m _ =>
    if m = 0 then { n := s + g.emask * 2 ^ g.fb, fl := flDZ }
    else
      let (lz, sig) := if ex = 0 then hvnormal g.fb fr else (0, fr)
      if 1 < lz then
        { n := s + (if rm = .rtz ∨ (rm = .rdn ∧ !neg) ∨ (rm = .rup ∧ neg) then g.maxFin else g.emask * 2 ^ g.fb), fl := flOF ||| flNX }
      else
        let idx := sig / 2 ^ (g.fb - 7)
        let t := (2 ^ 17 + (257 + 2 * idx)) / (2 * (257 + 2 * idx)) - 128
        let out := t * 2 ^ (g.fb - 7)
        let oe : Int := 2 * (g.bias : Int) - 1 - ((ex : Int) - lz)
        if 0 < oe then { n := s + oe.toNat * 2 ^ g.fb + out }
        else
          let sub := out / 2 + 2 ^ (g.fb - 1)
          { n := s + (if oe = 0 then sub else sub / 2) }

/-- VFRSQRT7: an estimate of 1/√a of seven bits, from the table of the published set (256/√x rounded, less 128, for the middle
`x` of each of 64 parts of [2, 4) and of [1, 2)). -/
def hvfRsqrt7 (w a : Nat) : HvRes :=
  let g := hvfmt w
  let neg := decide (g.sbit ≤ a)
  let ex := a % g.sbit / 2 ^ g.fb
  let fr := a % 2 ^ g.fb
  match unpack g a with
  | .nan i => { n := g.nan, fl := if i then flNV else 0 }
  | .inf _ => if neg then { n := g.nan, fl := flNV } else { n := 0 }
  | .fin _ m _ =>
    if m = 0 then { n := (if neg then g.sbit else 0) + g.emask * 2 ^ g.fb, fl := flDZ }
    else if neg then { n := g.nan, fl := flNV }
    else
      let (lz, sig) := if ex = 0 then hvnormal g.fb fr else (0, fr)
      let e : Int := (ex : Int) - lz
      let c := if e % 2 = 0 then 2 else 1
      let i := sig / 2 ^ (g.fb - 6)
      let t := (isqrt (2 ^ 25 / ((129 + 2 * i) * c)) + 1) / 2 - 128
      { n := ((3 * (g.bias : Int) - 1 - e) / 2).toNat * 2 ^ g.fb + t * 2 ^ (g.fb - 7) }

/-- The conversions of VFUNARY0 by the field of vs1: of one width, widening, narrowing. -/
def HvEnv.convert (e : HvEnv) : Option HvOut :=
  let w := e.sew
  let k := e.vs1 % 8
  let ws := if 16 ≤ e.vs1 then 2 * w else w
  let wd := if e.vs1 / 8 = 1 then 2 * w else w
  let rm := if 6 ≤ k then RMode.rtz else e.rm
  let unary (f : Nat → HvRes) : Option HvOut :=
    let d := e.grp wd e.vd
    if e.legal d [e.grp ws e.vs2] then some (e.body wd d.n 0 false (fun i => f (e.v.elt ws e.vs2 i))) else none
  if 24 ≤ e.vs1 then none
  else match k with
    | 0 | 1 | 6 | 7 => if hvfw ws then unary (hvfToInt rm (decide (k % 2 = 1)) ws wd) else none
    | 2 => if hvfw wd then unary (fun a => hvfres wd rm (.ofInt a)) else none
    | 3 => if hvfw wd then unary (fun a => hvfres wd rm (.ofInt (hvsg ws a))) else none
    | 4 => if hvfw ws && hvfw wd && decide (ws ≠ wd) then unary (fun a => hvfres wd rm (unpack (hvfmt ws) a)) else none
    | _ =>
      if hvfw ws && hvfw wd && decide (wd < ws) then
        unary (fun a =>
          let r := hvfres wd .rtz (unpack (hvfmt ws) a)
          { r with n := if r.fl.getLsbD 0 then r.n ||| 1 else r.n })
      else none

/-- VFUNARY1 by the field of vs1: VFSQRT, VFRSQRT7, VFREC7, VFCLASS. -/
def HvEnv.funary (e : HvEnv) : Option HvOut :=
  let w := e.sew
  let unary (f : Nat → HvRes) : Option HvOut :=
    let d := e.grp w e.vd
    if hvfw w && e.legal d [e.grp w e.vs2] then some (e.body w d.n 0 false (fun i => f (e.v.elt w e.vs2 i))) else none
  match e.vs1 with
  | 0 => unary (fun a => let r := fsqrt (hvfmt w) e.rm (unpack (hvfmt w) a); { n := r.1, fl := r.2 })
  | 4 => unary (hvfRsqrt7 w)
  | 5 => unary (hvfRec7 e.rm w)
  | 16 => unary (fun a => { n := fclass (hvfmt w) a })
  | _ => none

/-- OPFVV, OPFVF. -/
def HvEnv.opf (e : HvEnv) (f6 : Nat) : Option HvOut :=
  let w := e.sew
  let u (ww n : Nat) : FV := unpack (hvfmt ww) n
  let one (t : Option HvOut) : Option HvOut := if hvfw w then t else none
  let wide (t : Option HvOut) : Option HvOut := if w = 32 then t else none
  let scalar (t : Option HvOut) : Option HvOut := if e.vec then none else t
  let vector (t : Option HvOut) : Option HvOut := if e.vec then t else none
  let red (k : Nat) : Option HvOut := vector (one (e.reduce w (hvfOp e.rm w k)))
  match f6 with
  | 0x00 | 0x02 | 0x04 | 0x06 | 0x08 | 0x09 | 0x0A | 0x20 | 0x24 => one (e.arith w w w false false (fun _ a b => hvfOp e.rm w f6 a b))
  | 0x21 | 0x27 => scalar (one (e.arith w w w false false (fun _ a b => hvfOp e.rm w f6 a b)))
  | 0x01 | 0x03 => red 0x00
  | 0x05 => red 0x04
  | 0x07 => red 0x06
  | 0x0E => scalar (one e.slide1Up)
  | 0x0F => scalar (one e.slide1Down)
  | 0x10 =>
    if !e.vm then none
    else if e.vec then
      (if e.vs1 = 0 then one (some { v := e.v, f := some (Rv64.boxed (if w = 32 then 0 else 1) (e.v.elt w e.vs2 0)) }) else none)
    else (if e.vs2 = 0 then one (some e.moveIn) else none)
  | 0x12 => vector e.convert
  | 0x13 => vector e.funary
  | 0x17 => scalar (if e.vm && decide (e.vs2 ≠ 0) then none
      else one (e.arith w w w false true (fun i a b => { n := if e.on i then b else a })))
  | 0x18 | 0x19 | 0x1B | 0x1C => one (e.cmp false (fun _ a b => hvfCmp w f6 a b))
  | 0x1D | 0x1F => scalar (one (e.cmp false (fun _ a b => hvfCmp w f6 a b)))
  | 0x28 | 0x29 | 0x2A | 0x2B => one (e.arith w w w true false (fun i a b =>
      hvfFma e.rm w (hvfSigns f6) (u w b) (u w (e.v.elt w e.vd i)) (u w a)))
  | 0x2C | 0x2D | 0x2E | 0x2F => one (e.arith w w w true false (fun i a b =>
      hvfFma e.rm w (hvfSigns f6) (u w b) (u w a) (u w (e.v.elt w e.vd i))))
  | 0x30 => wide (e.arith (2 * w) w w false false (fun _ a b => hvfres (2 * w) e.rm (fsum e.rm [u w a, u w b])))
  | 0x32 => wide (e.arith (2 * w) w w false false (fun _ a b => hvfres (2 * w) e.rm (fsum e.rm [u w a, (u w b).neg])))
  | 0x34 => wide (e.arith (2 * w) (2 * w) w false false (fun _ a b => hvfres (2 * w) e.rm (fsum e.rm [u (2 * w) a, u w b])))
  | 0x36 => wide (e.arith (2 * w) (2 * w) w false false (fun _ a b => hvfres (2 * w) e.rm (fsum e.rm [u (2 * w) a, (u w b).neg])))
  | 0x31 | 0x33 => vector (wide (e.reduce (2 * w) (fun a b => hvfres (2 * w) e.rm (fsum e.rm [u (2 * w) a, u w b]))))
  | 0x38 => wide (e.arith (2 * w) w w false false (fun _ a b => hvfres (2 * w) e.rm ((u w a).mul (u w b))))
  | 0x3C | 0x3D | 0x3E | 0x3F => wide (e.arith (2 * w) w w true false (fun i a b =>
      hvfFma e.rm (2 * w) (hvfSigns f6) (u w b) (u w a) (u (2 * w) (e.v.elt (2 * w) e.vd i))))
  | _ => none

/-- An instruction of OP-V that is no VSET, by funct3. -/
def HvEnv.opv (e : HvEnv) (f6 : Nat) : Option HvOut :=
  match e.f3 with
  | 0 | 3 | 4 => e.opi f6
  | 2 | 6 => e.opm f6
  | _ => e.opf f6

end Sys2Proof.Machine
end

