-- ==== Sys2Proof/Machine/HartVec.lean ====
section
/-! DEFINITION. The V extension on a hart (R18): VSET, the instructions of OP-V, and vector loads and stores. -/
namespace Sys2Proof.Machine

/-! ### VSET -/

/-- `vtype` and `vl` are set for a wanted type and a wanted length (none: `vl` stays as it is, and the ratio of width and LMUL
with it); a type that these harts have not sets vill. -/
def Hart.vset (x : Hart) (t : Word) (avl : Option Nat) : Hart :=
  let m := hvlmaxOf t
  let stays := avl.isSome || (hvtypeOk x.vtype && decide (hvlmaxOf x.vtype = m))
  let x := { x with vstart := 0, vs := 3 }
  if hvtypeOk t && stays then { x with vtype := t, vl := min (avl.getD x.vl) m } else { x with vtype := 0x8000000000000000, vl := 0 }

/-- VSETVLI, VSETIVLI and VSETVL; none for a reserved word. -/
def Hart.vsetOp (x : Hart) (n : Nat) : Option Hart :=
  let rd := fld n 7 5
  let rs1 := fld n 15 5
  let avl : Option Nat := if rs1 ≠ 0 then some (x.rd rs1).toNat else if rd ≠ 0 then some (2 ^ 64 - 1) else none
  let y : Option Hart :=
    if fld n 31 1 = 0 then some (x.vset (BitVec.ofNat 64 (fld n 20 11)) avl)
    else if fld n 30 1 = 1 then some (x.vset (BitVec.ofNat 64 (fld n 20 10)) (some rs1))
    else if fld n 25 5 = 0 then some (x.vset (x.rd (fld n 20 5)) avl)
    else none
  y.map (fun (y : Hart) => y.wr rd (BitVec.ofNat 64 y.vl))

/-! ### OP-V -/

/-- What an instruction of OP-V executes with. -/
def Hart.venv (x : Hart) (g n : Nat) (rm : RMode) : HvEnv where
  v := x.v
  sew := hvsewOf x.vtype
  lm := hvlmOf x.vtype
  ta := x.vtype.getLsbD 6
  ma := x.vtype.getLsbD 7
  vl := x.vl
  vstart := x.vstart.toNat
  xrm := x.vxrm.toNat
  rm := rm
  g := g
  vm := n.testBit 25
  vd := fld n 7 5
  vs1 := fld n 15 5
  vs2 := fld n 20 5
  f3 := fld n 12 3
  x := x.rd (fld n 15 5)
  f := x.fget (fld n 15 5)

/-- An instruction of OP-V, with the free value of its agnostic elements; none where it is illegal. Every floating-point one
needs FS and a rounding mode that exists. -/
def Hart.opv (x : Hart) (g n : Nat) : Option Hart :=
  let f3 := fld n 12 3
  if f3 = 7 then x.vsetOp n
  else if !hvtypeOk x.vtype then none
  else
    let float := decide (f3 = 1 ∨ f3 = 5)
    match Rv64.rmode 7 x.frm.toNat with
    | none => if float then none else go f3 .rne
    | some rm => if float && decide (x.fs = 0) then none else go f3 rm
where
  /-- The instruction's results go to the hart's registers. -/
  go (f3 : Nat) (rm : RMode) : Option Hart :=
    ((x.venv g n rm).opv (fld n 26 6)).map (fun (o : HvOut) =>
      let x := { x with v := o.v, vs := 3, vstart := 0, vxsat := x.vxsat || o.sat }
      let x := match o.x with | some w => x.wr (fld n 7 5) w | none => x
      let x := match o.f with | some w => x.fput (fld n 7 5) w | none => x
      if f3 = 1 ∨ f3 = 5 then x.raise o.fl else x)

/-! ### Loads and stores -/

/-- A vector load or store: its element width, the fields of a segment, how many elements, the registers of one field, whether
it is masked, whether a load's tail is agnostic, whether it stops at its first fault, and each element's first address. -/
structure VMem where
  w : Nat
  nf : Nat
  evl : Nat
  n : Nat
  vm : Bool
  ta : Bool
  fof : Bool := false
  addr : Nat → Word

/-- The element width that the width field gives. -/
def vmemW (f3 : Nat) : Nat := match f3 with | 0 => 8 | 5 => 16 | 6 => 32 | _ => 64

/-- The access that a word is; none where it is reserved. -/
def Hart.vmem (x : Hart) (n : Nat) : Option VMem :=
  let store := decide (fld n 0 7 = 0x27)
  let e := x.venv 0 n .rne
  let w := vmemW e.f3
  let nf := fld n 29 3 + 1
  let mop := fld n 26 2
  let base := e.x
  let typed := hvtypeOk x.vtype
  let flat (k : Nat) (i : Nat) : Word := base + BitVec.ofNat 64 (i * k)
  -- a group for each field of a segment, and what else the access reads
  let fits (w : Nat) (srcs : List HvGrp) (apart : Bool) : Bool :=
    let d := e.grp w e.vd
    typed && decide (nf * d.n ≤ 8 ∧ e.vd + nf * d.n ≤ 32) && d.ok && srcs.all HvGrp.ok &&
      (if store then HvGrp.oneWidth ({ d with m := 8 * (nf * d.n) } :: srcs ++ (if e.vm then [] else [hvmsk 0]))
       else e.legal d srcs && !(apart && srcs.any (HvGrp.meets { d with m := 8 * (nf * d.n) })))
  let m (w : Nat) : VMem := { w := w, nf := nf, evl := x.vl, n := (e.grp w e.vd).n, vm := e.vm, ta := e.ta, addr := flat (nf * w / 8) }
  if fld n 28 1 = 1 then none
  else match mop with
    | 0 => match e.vs2 with
      | 0 => if fits w [] false then some (m w) else none
      | 0x10 => if !store && fits w [] false then some { (m w) with fof := true } else none
      | 8 => if e.vm && [1, 2, 4, 8].contains nf && decide (e.vd % nf = 0) && (!store || decide (w = 8)) then
          some { w := w, nf := 1, evl := nf * 128 / w, n := nf, vm := true, ta := false, addr := flat (w / 8) } else none
      | 0xB => if typed && e.vm && decide (nf = 1 ∧ w = 8) then
          some { w := 8, nf := 1, evl := (x.vl + 7) / 8, n := 1, vm := true, ta := true, addr := flat 1 } else none
      | _ => none
    | 2 => if fits w [] false then some { (m w) with addr := fun i => base + x.rd e.vs2 * BitVec.ofNat 64 i } else none
    | _ =>
      if fits e.sew [e.grp w e.vs2] (decide (1 < nf)) then
        some { (m e.sew) with addr := fun i => base + BitVec.ofNat 64 (e.v.elt w e.vs2 i) } else none

/-- The elements that an access reaches, in order, with their physical addresses; and the first that traps. -/
def State.vecReach (s : State) (h : Nat) (a : HAcc) (w nf : Nat) (addr : Nat → Word) : List Nat → List (Nat × List Nat) × Option (Nat × Nat × Word)
  | [] => ([], none)
  | i :: t => match s.hartBytes h a (addr i) (nf * w / 8) with
    | .inr (c, va) => ([], some (i, c, va))
    | .inl pas => let (l, e) := s.vecReach h a w nf addr t; ((i, pas) :: l, e)

/-- The bytes of a field of a segment. -/
def vecField (w k : Nat) (pas : List Nat) : List Nat := (pas.drop (k * w / 8)).take (w / 8)

/-- A load's elements are written, and its tail. -/
def State.vecLoad (s : State) (v : HvFile) (g vd last : Nat) (m : VMem) (l : List (Nat × List Nat)) (off : List Nat) (ma : Bool) : HvFile :=
  (upto 0 m.nf).foldl (fun (v : HvFile) (k : Nat) =>
    let r := vd + k * m.n
    let loose (v : HvFile) (i : Nat) : HvFile := v.put m.w r i (agnostic g m.w i (v.elt m.w r i))
    let v := l.foldl (fun (v : HvFile) ((i, pas) : Nat × List Nat) => v.put m.w r i (s.hartNum (vecField m.w k pas))) v
    let v := if ma then off.foldl loose v else v
    if m.ta then (upto last (m.n * 128 / m.w - last)).foldl loose v else v) v

/-- A store's elements are stored, in order. -/
def State.vecStore (s : State) (v : HvFile) (vd : Nat) (m : VMem) (l : List (Nat × List Nat)) : State :=
  l.foldl (fun (s : State) ((i, pas) : Nat × List Nat) =>
    (upto 0 m.nf).foldl (fun (s : State) (k : Nat) => s.hartStore (vecField m.w k pas) (v.elt m.w (vd + k * m.n) i)) s) s

/-- A vector load or store. Its active elements go in order; where one traps, those before it are done, and the trap finds
`vstart` at it, but that a load that stops at its first fault shortens `vl` instead. It waits for the regions it reaches. -/
def State.hartVmem (s : State) (h len n : Nat) : State :=
  let x := s.hart h
  let store := decide (fld n 0 7 = 0x27)
  match x.vmem n with
  | none => s.hartIllegal h
  | some m =>
    let vd := fld n 7 5
    let st := x.vstart.toNat
    let body := upto st (m.evl - st)
    let on (i : Nat) : Bool := m.vm || HvFile.bit x.v 0 i
    let (l, e) := s.vecReach h (if store then .store else .load) m.w m.nf m.addr (body.filter on)
    match s.foreign (l.flatMap (fun ((_, pas) : Nat × List Nat) => pas)) with
    | r :: rs => s.wantRegions (r :: rs)
    | [] =>
      let done (upTo : Nat) : List Nat := (body.filter (fun i => !on i)).filter (fun i => decide (i < upTo))
      let stop (s : State) (v : HvFile) (i c : Nat) (va : Word) : State :=
        (s.setHart h { (s.hart h) with v := v, vs := 3, vstart := BitVec.ofNat 7 i }).hartTrap h c va
      let finish (s : State) (v : HvFile) (vl : Nat) : State :=
        s.hartGo h len (fun x => { x with v := v, vl := vl, vs := 3, vstart := 0 })
      let (g, t) := s.takeGen
      match e with
      | none =>
        if m.evl ≤ st then finish s x.v x.vl
        else if store then finish (s.vecStore x.v vd m l) x.v x.vl
        else finish t (s.vecLoad x.v g vd m.evl m l (done m.evl) (x.vtype.getLsbD 7)) x.vl
      | some (i, c, va) =>
        if store then stop (s.vecStore x.v vd m l) x.v i c va
        else if m.fof && decide (0 < i) then finish t (s.vecLoad x.v g vd m.evl m l (done i) (x.vtype.getLsbD 7)) i
        else stop t (s.vecLoad x.v g vd (m.n * 128 / m.w) m l (done i) (x.vtype.getLsbD 7)) i c va

/-- An instruction of the V extension: illegal where VS is Off, or where its encoding is reserved. -/
def State.hartVector (s : State) (h len n : Nat) : State :=
  let x := s.hart h
  if x.vs = 0 then s.hartIllegal h
  else if fld n 0 7 = 0x57 then
    let (g, t) := s.takeGen
    match x.opv g n with
    | none => s.hartIllegal h
    | some y => (t.setHart h y).hartGo h len id
  else s.hartVmem h len n

end Sys2Proof.Machine
end

