-- ==== Sys2Proof/Machine/Schedule.lean ====
section
/-! DEFINITION. Which step of the package comes next, and what the end of a package cycle does. Within a cycle: what begins
at its start, the user contexts in ascending core number (R272), the agents, the accesses; then the answers of agents,
waits woken and run out, deliveries, arrivals; then the next cycle (log 45). -/
namespace Sys2Proof.Machine

/-! ### Choosing -/

/-- The first number of a list that meets a condition, as a step. -/
def pick (l : List Nat) (f : Nat → Bool) (g : Nat → Instr) : Option Turn := (l.find? f).map (fun n => .event (g n))

/-- The numbers of a table's entries. -/
def keys {α : Type} (t : Tab α) : List Nat := t.map Prod.fst

/-- The cores that hold a task, in ascending order. -/
def State.tasked (s : State) : List Nat := s.coresWith (fun _ => true)

/-! ### The start of a cycle -/

def State.startNext (s : State) : Option Turn :=
  pick (keys s.launches) s.drained .launchDrained
    <|> (s.shareWrs.find? (fun (x : ShareWr) => decide (x.due ≤ s.cyc))).map (fun (x : ShareWr) => Turn.event (.shareChangeEffect x.part))
    <|> (s.slotWrs.find? (fun (x : SlotWr) => decide (x.due ≤ s.cyc))).map (fun (x : SlotWr) => Turn.event (.slotCellEffect x.die x.cell))
    <|> pick (keys s.launches) (fun k => match s.launches.find? k with
          | some l => l.st == .ready && decide (l.aged + 12000000 ≤ s.cyc)
          | none => false) .priorityAging
    <|> pick (keys s.clusters) (fun k => match (s.cluster k).retryAt with | some t => decide (t ≤ s.cyc) | none => false) .reclaimRetry
    <|> ((upto 0 16).findSome? (fun p => (s.wantsBack p).head?)).map (fun k => .event (.clusterReclaim k))
    <|> pick (keys s.clusters) s.goesHome .clusterReturn
    <|> s.placeNext.map (fun p => .event (.launchPlace p))
    <|> pick (keys s.launches) (fun k => match s.launches.find? k with
          | some l => (match l.startAt with
            | some t => decide (t ≤ s.cyc ∧ ¬ s.cyc % s.shareOf l.part = s.shareOf l.part - 1)
            | none => false)
          | none => false) .teamStart
    <|> pick s.tasked (fun c => (s.snaprDue c).isSome || (match (s.usr c).resume with | some (n, m) => decide (n ≤ m) | none => false)) .coreResume
    <|> pick s.tasked (fun c => decide ((s.usr c).seg.st = .rewinding ∧ (s.usr c).seg.began + 32 ≤ s.cyc)) .rewindDone
    <|> pick (keys s.conts) (fun k => (match s.conts.find? k with | some q => q.st == .killing | none => false) && s.killComplete k) .killDone
    <|> pick (upto 0 16) (fun p => match (s.part p).waiting with
          | [] => false
          | _ => decide ((s.part p).ring ≠ 0 ∧ s.mem.num ((s.part p).ring + 8 * (s.part p).next) 8 / 2 ^ 7 % 2 = 0)) .attentionRetry
    <|> (if s.mod.interval ≠ 0 ∧ s.mod.pending.isNone ∧ (match s.mod.ckNext with | some t => decide (t ≤ s.cyc) | none => false : Bool) then
          some (.event .checkpointInterval) else none)
    <|> (if s.ckptReady then some (.event .checkpointComplete) else none)
    <|> (if s.mod.upd = .activating then pick (upto 0 2048) s.switchDue .lanternImageSwitch else none)
    <|> (if s.shoot.go && [0, 1, 2, 3].all (fun d => s.dieSettled d s.shoot.bar) then some (.event .shootdownComplete) else none)

/-! ### User contexts and rendezvous -/

/-- The next core to be considered in this cycle. -/
def State.coreNext (s : State) : Option Turn :=
  (s.tasked.find? (fun c => decide ((s.usr c).ctx.cons ≠ s.cyc + 1))).map Turn.core
    <|> pick (upto 0 64) (fun k => !(s.meetingDone k).isEmpty) .rendezvousRelease
    <|> pick s.tasked s.meetingLate .rendezvousTimeout

/-! ### Agents -/

/-- Whether firmware acts on core `c`'s trap in this cycle (R436). -/
def State.firmwareDue (s : State) (c : Nat) : Bool :=
  match s.task? c with
  | some t => t.st == .trapped && !t.posted && decide ((s.core c).lan.fwCons ≠ s.cyc + 1)
      && (!(s.core c).lan.trapSeen || (s.trapRec c).cause == cFIRMWARE_ASSIST)
  | none => false

/-- Whether a SYS that found the ring full is issued again now (R122). -/
def State.reissueDue (s : State) (c : Nat) : Bool :=
  s.held c && (s.trapRec c).cause == cSYS_RING_FULL && s.shareCycle c && (match s.contOf? c with | some q => !s.ringFull q | none => false)

/-- Whether an RVOTE stands ready: everything of its core before it is performed at fabric scope (R328). -/
def State.voteReady (s : State) (q : Ask) : Bool :=
  match s.coreWaiting q.id with
  | some c => !s.undone c q.id 3 5
  | none => true

/-- What asks one of the region operations, of a region whose home is this package: a core or an image, then the other
packages (R366, R369). -/
def State.regionAsk (s : State) (o : Op) : Option (Nat × Nat) :=
  s.users.findSome? (fun (u : User) => (u.asks.find? (fun (q : Ask) =>
    q.op == o && decide (handlePkg (BitVec.ofNat 64 q.a) = s.plan.pkg) &&
      (if o == .rvote then decide (q.b = 0) && s.voteReady q else true))).map
    (fun (q : Ask) => (s.slotKey (BitVec.ofNat 64 q.a), q.id)))
    <|> (s.nextReq (fun (r : RegReq) => r.op == o && decide (handlePkg r.handle = s.plan.pkg))).map (fun (r : RegReq) => (s.slotKey r.handle, r.n))

/-- The region events of a cycle, in the order in which a home applies them (R369). -/
def State.regionNext (s : State) : Option Turn :=
  (s.regionAsk .rabort).map (fun (k, m) => .event (.regionAbort k m))
    <|> (s.regionAsk .rleave).map (fun (k, m) => .event (.regionLeave k m))
    <|> (s.regionAsk .rjoin).map (fun (k, m) => .event (.regionJoin k m))
    <|> (s.regionAsk .rvote).map (fun (k, m) => .event (.regionVote k m))

/-- A stream's step: in the share cycles of its anchor core, or in any cycle in which that core runs no task (R120, R172). -/
def State.streamTurn (s : State) (k : Nat) : Option Instr :=
  match s.conts.find? k with
  | some q =>
    if q.stream.cons = s.cyc + 1 then none
    else if s.lanternMay q.anchor then s.streamStep k else none
  | none => none

/-- The COPY of a stream that is at fault, or complete (R116, R457). -/
def State.copyPktNext (s : State) (k : Nat) : Option Instr :=
  match s.conts.find? k with
  | none => none
  | some q =>
    if q.st = .killing ∨ q.st = .dead then none
    else if q.stream.started.any Started.full then some (.copyPacketComplete k)
    else match q.stream.started.find? Started.moving with
      | some x => match s.copyNext q x with
        | .fault _ _ => if q.streaming then some (.copyPacketFault k) else none
        | _ => none
      | none => none

/-- A porter's next step: an exception or fault that it owes, the end of a wait. -/
def State.porterNext (s : State) (c : Nat) : Option Turn :=
  let reached := match (s.core c).stop with | some p => p.reached && p.park | none => false
  [0, 1].findSome? (fun (side : Nat) =>
    let p := s.porter c side
    if p.trap.isSome then some (Turn.event (.porterException c side))
    else if p.fault.isSome && p.st != .faulted then some (.event (.porterFault c side))
    else if reached then none
    else if p.st == .waiting && s.porterCanGo c side then some (.event (.porterWake c side))
    else if p.st == .running && decide (p.cons ≠ s.cyc + 1) && !s.spadBehind c p.startPt then some (.porter c side)
    else none)

/-- The agents' steps. Of those that add to counters the stream processors come first, then the hub copy path, the porters
and the fabric's ports (R336). -/
def State.agentNext (s : State) : Option Turn :=
  pick (keys s.cores) (fun c => (s.idleReason c).isSome) .idleWake
    <|> (s.tasked.find? s.firmwareDue).map Turn.firmware
    <|> pick s.tasked s.reissueDue .sysReissue
    <|> pick (keys s.cores) s.heldTooLong .shareViolation
    <|> pick s.tasked s.mseqReady .mseqStepStart
    <|> ((keys s.conts).findSome? s.streamTurn).map Turn.event
    <|> ((keys s.conts).findSome? s.copyPktNext).map Turn.event
    <|> ((keys s.cores).findSome? s.xferNext).map Turn.event
    <|> s.tasked.findSome? s.porterNext
    <|> (s.fab.msgs.findSome? s.msgDue).map Turn.event
    <|> (if s.waveDue then some (.event .waveStart) else none)
    <|> (if s.fab.wave.isSome && s.plan.joined.all (fun p => decide (p = s.plan.pkg)) then some (.event (.wavePassEnd [])) else none)
    <|> pick (keys s.fab.wins) (fun w => (s.rwin w).installing && s.plan.joined.all (fun p => decide (p = s.plan.pkg))) .windowInstalled
    <|> pick (keys s.fab.ports) (fun n => decide ((s.port' n).st = .training ∧ (s.port' n).began + 12000000 ≤ s.cyc)) .portTrainingTimeout

/-! ### Translation, ownership, accesses -/

/-- The first access of a core that meets a condition, with its core. -/
def State.findMop (s : State) (f : Nat → MemOp → Bool) : Option (Nat × MemOp) :=
  s.cores.findSome? (fun ((c, _) : Nat × WCore) => ((s.allMops c).find? (f c)).map (fun (m : MemOp) => (c, m)))

/-- Translations, transfers of regions, requests, and the accesses of this cycle: loads read what stood before the cycle's
stores (R316); then the other accesses and the counter operations in ascending core number (R272, R336); then region
accesses (R366). -/
def State.accessNext (s : State) : Option Turn :=
  pick (keys s.cores) (fun c => (s.core c).walk.isSome && decide ((s.die (dieOf c)).walks < 32)) .pageWalk
    <|> pick (keys s.regions) (fun r => (s.transferTo r).isSome) .ownershipTransferStart
    <|> pick (keys s.regions) (fun r => let x := s.regions.getD r {}; (x.st == .toAccel || x.st == .toProc) && decide (x.began < s.cyc)) .ownershipWritebackComplete
    <|> pick (keys s.cores) s.ownershipLate .ownershipTimeout
    <|> pick (keys s.cores) (fun c => match (s.core c).wake with | some (_, t) => decide (t < s.cyc) | none => false) .gatedUnitWake
    <|> (s.cores.findSome? (fun ((c, _) : Nat × WCore) => (s.askers c).find? s.winsCell)).map (fun (a : Asker) => .event (.globalRequestAccept a.core a.id))
    <|> (s.findMop (fun c m => decide (m.by = .load) && (m.op.isLoad || m.op == .fence) && s.ready c m)).map (fun (c, m) => .event (.loadPerform c m.id))
    <|> (s.findMop (fun c m => decide (m.by = .load ∨ m.by = .store) && s.ready c m)).map (fun (c, m) =>
          .event (if m.by = .store then .storePerform c m.id else .loadPerform c m.id))
    <|> (s.findMop (fun c m => decide (m.by = .region) && s.ready c m)).map (fun (c, m) => .event (.regionDirectoryAccess c m.id))
    <|> (s.nextReq (fun (r : RegReq) => r.op.isStore || r.op.isLoad)).map (fun (r : RegReq) => .event (.regionDirectoryAccess r.core r.n))

/-- The continuation engine's place in the order of a cycle: after its faults a parking, then harts' CSAVEs and CLOADs,
CRESUMEs, and posts (R78). -/
def State.engineNext (s : State) : Option Turn :=
  s.parkDue.map (fun k => .event (.contPark k))
    <|> [0, 1, 2].findSome? (fun (r : Nat) => (s.engine.find? (fun h => decide (s.engineRank h = some r))).map Turn.engine)
    <|> s.engine.head?.map Turn.engine

/-! ### The end of a cycle -/

/-- The end of a cycle: unparkings (R78), the events of regions, after every abort of the cycle (R369); limits of agents' answers, the array, deliveries, the arrivals that retirements owe, what the
barrier banks serve, and the limits of parked waits, whose value is that of the cycle's end (R339, R359). -/
def State.endNext (s : State) : Option Turn :=
  (s.nextWaiting.bind (fun q => if s.engineFree then some q.block else none)).map (fun k => .event (.contUnpark k))
    <|> s.regionNext
    <|> pick s.tasked s.twaitDue .twaitTimeout
    <|> pick s.tasked (fun c => (s.usr c).asks.any (fun (q : Ask) => q.op == .wquiet && (match q.limit with | some t => decide (t ≤ s.cyc) | none => false))) .wquietTimeout
    <|> pick (keys s.harts) (fun h => match (s.hart h).wait with | .join _ _ (some t) => decide (t ≤ s.cyc) | _ => false) .cjoinTimeout
    <|> pick s.tasked (fun c => match (s.usr c).ctx.wdog with | some t => decide (t ≤ (s.usr c).ctx.sched.toNat) | none => false) .watchdogExpiry
    <|> pick (keys s.pairs) s.arrayReady .arrayOpComplete
    <|> (s.cores.findSome? (fun ((c, _) : Nat × WCore) => ((s.dueDelivs c).head?).map (fun (d : Deliv) => (c, d.id)))).map (fun (c, i) => .event (.deliveryLanding c i))
    <|> pick (keys s.cores) s.arrivalDue .arrivalOnRetire
    <|> pick (keys s.cores) (fun c => (s.bankNext c).isSome) .barrierBankService
    <|> s.parked.findSome? (fun (p : Park) =>
      match p.limit with | some t => if t ≤ s.cyc then some (Turn.event (.waitLimitExpiry p.core p.id)) else none | none => none)
    <|> pick (keys s.cores) (fun c => (s.usr c).arriving s.cyc) .stealArrival
    <|> pick (keys s.cores) s.canSave .imageSaved
    <|> pick (keys s.launches) s.expires .quantumExpiry

/-- The step that comes next in the present cycle; none: its end. -/
def State.nextTurn (s : State) : Option Turn :=
  (if s.ended = s.cyc + 1 then none else s.startNext <|> s.coreNext <|> s.agentNext)
    <|> s.accessNext
    <|> (if s.ended = s.cyc + 1 then none else s.engineNext <|> pick s.tasked s.probes .scoutProbe)
    <|> (if s.touched.isEmpty ∧ s.ended = s.cyc + 1 then s.endNext else none)

/-- What the agents of core `c` answer at the end of a cycle. -/
def State.coreEnd (s : State) (c : Nat) : State :=
  let s := (s.asksOf c .bussel).foldl (fun (s : State) (q : Ask) => s.claim c q) s
  let s := ((s.cancels c).childLaunches c).linkSends c
  (((s.handlersRetire c).recordsRetire c).lanternEnd c).cpFencesDone c

/-- A failure of core `c`'s open segment (R431). -/
def State.segFail (s : State) (c : Nat) : State :=
  let g := (s.usr c).seg
  if !g.fail then s
  else match g.st with
    | .open' => s.rewind c
    | .replaying => s.dropSegment c
    | _ => s.modUsr c (fun u => { u with seg := { u.seg with fail := false } })

/-- The answers of a cycle's agents: buses, claims, cancels, calls, launches, the fabric, estimates, failures, teams that
have ended, and the states of streams. -/
def State.endWork (s : State) : State :=
  let cs := keys s.cores
  let s := cs.foldl State.coreEnd s
  let s := (keys s.clusters).foldl State.busEnd s
  let s := (keys s.conts).foldl State.sysPublish s
  let s := (keys s.ests).foldl State.estTick s
  let s := (keys s.launches).foldl (fun (s : State) (k : Nat) => (s.allEnded k).teamNext k) s
  let s := s.regionOrders
  let s := ((keys s.conts).foldl State.settleStream s).hartWaits
  { s with ended := s.cyc + 1 }

/-- The counts of a core's stop and resumption (R167, R168) and its bank, as a cycle ends. -/
def WCore.cycleEnd (w : WCore) (cyc : Nat) (common : Bool) : WCore :=
  let n := if common then 1 else 0
  { w with
    stop := w.stop.map (fun p => if p.reached || decide (cyc < p.at') then p else { p with common := p.common + n })
    usr := { w.usr with resume := w.usr.resume.map (fun (need, seen) => (need, seen + n)) } }

/-- The next cycle begins: segments that failed in this one begin to rewind, or are dropped (R431); accesses that waited to be sent and need not any more are sent in it (R332), blocks of
transfers, of COPY packets and of porters move in it; a COPY packet's bytes do not move while its stream is stopped (R119; log 97). -/
def State.advance (s : State) : State :=
  let s := (keys s.cores).foldl State.segFail s
  let blocks := s.tasked.flatMap (fun c =>
    ((s.usr c).xfers.filter (fun (x : Xfer) => x.st == .inFlight)).map (fun (x : Xfer) => Turn.copyBlock c x.ch x.id)
      ++ [0, 1].filterMap (fun side => if (s.porter c side).blocks.isEmpty || (s.porter c side).st == .faulted then none else some (Turn.event (.porterBlockComplete c side))))
  let resting := s.images.flatMap (fun (i : Image) =>
    (i.usr.xfers.filter (fun (x : Xfer) => x.st == .inFlight)).map (fun (x : Xfer) => Turn.imageBlock i.launch i.tile x.ch x.id))
  let copies := (keys s.conts).filter (fun k => match s.conts.find? k with
    | some q => q.stream.started.any Started.moving && q.streaming
    | none => false)
  let sent (c : Nat) (m : MemOp) : MemOp := if m.hold && !s.heldOp c m then { m with hold := false, late := s.cyc + 1 - m.issue } else m
  let send (c : Nat) (w : WCore) : WCore := { w with
    usr := { w.usr with mops := w.usr.mops.map (sent c) }
    lan := { w.lan with mops := w.lan.mops.map (sent c) } }
  { s with
    cyc := s.cyc + 1
    cores := s.cores.map (fun ((c, w) : Nat × WCore) => (c, (send c w).cycleEnd s.cyc (s.common c)))
    dies := s.dies.map (fun (d : Die) => { d with lanes := [], walks := 0 })
    agenda := s.agenda ++ blocks ++ resting ++ copies.map Turn.hubCopy }

/-- The end of a cycle, in its parts: agents answer, waits are woken, waits end early, the next cycle begins. -/
def State.tick (s : State) : State :=
  if s.ended ≠ s.cyc + 1 then s.endWork
  else if !s.touched.isEmpty then s.wake
  else if s.parked.any (fun (w : Park) => w.ending.isSome) then s.endEarly
  else s.advance

/-! ### Taking a turn -/

/-- What a hart's word does: an instruction of this manual, one of RV64GC, one of the V extension (R18), or the illegal-instruction
exception (R91). -/
def State.hartWord (s : State) (h n len : Nat) : Out :=
  match hartInstr n len with
  | some i => exec i s
  | none => match (if len = 4 then Rv64.decode n else Rv64.decodeC n) with
    | some r => .next (s.hartRv h len r)
    | none => .next (if len = 4 ∧ vectorWord n then s.hartVector h len n else s.hartIllegal h)

/-- Whether a hart may take an interrupt where it stands: between instructions, in a CJOIN's wait, which the interrupt ends, and
before an instruction that waits for stores (R94). -/
def HWait.open' : HWait → Bool
  | .none | .stores | .join _ _ _ => true
  | _ => false

/-- A hart's next instruction. An interrupt is taken first (R86), also out of a CJOIN, which then executes afresh (R94); else a
waiting hart does nothing. `here` says that the continuation engine has come to the hart in its order of the cycle (R78). -/
def State.hartTurn (s : State) (h : Nat) (here : Bool) : Out :=
  let s : State := { s with actor := .hart h, engine := s.engine.filter (fun n => decide (n ≠ h)) }
  let x := s.hart h
  match (if x.wait.open' then x.irq else none) with
  | some n => .next (s.hartTrap h (2 ^ 63 + n) 0)
  | none =>
    if x.wait ≠ .none then .next s
    else match s.hartFetch h with
      | .trap code va => .next (s.hartTrap h code va)
      | .wait rs => .next (s.wantRegions rs)
      | .word n len =>
        if !here && ((hartInstr n len).bind enginePlace).isSome then .next { s with engine := s.engine ++ [h] }
        else s.hartWord h n len

/-- A porter's next instruction (R305): a word that is none of its instructions, or a pc outside its store, raises an
exception. -/
def State.porterTurn (s : State) (c side : Nat) : Out :=
  let s : State := { s with actor := .porter c side }
  let s := s.modPorter c side (fun p => { p with cons := s.cyc + 1 })
  match s.porterFetch c side with
  | .inr code => .next (s.porterTrap c side code)
  | .inl w => match decodePorter w with
    | some i => exec i s
    | none => .next (s.porterTrap c side 2)

/-- The lantern context's next bundle, or IDLE cycle (R172); a waiting IDLE stops its issue (R180). -/
def State.lanternTurn (s : State) (c : Nat) : Out :=
  let s : State := { s with actor := .lantern c }
  if !s.lanternMay c then .next s
  else if (s.core c).lan.idle.isSome then .next s
  else if 0 < (s.core c).lan.ctx.idle then .next (s.idleCycle c true)
  else match s.fetch c true with
    | .bundle b => (s.cacheCode c (s.codeAt c true (s.core c).lan.ctx.pc)).issueBundle b
    | _ => .next s

/-- A core's turn: the bundle that is next, or what stands before it. -/
def State.userTurn (s : State) (c : Nat) : Out :=
  match s.coreTurn c with
  | (some b, s) => s.issueBundle b
  | (none, s) => .next s

/-- A stream takes one step in a cycle (R120). -/
def State.markStream (s : State) (i : Instr) : State :=
  let mark (k : Nat) : State := s.modStream k (fun t => { t with cons := s.cyc + 1 })
  match i with
  | .implicitReturn k | .streamWindowRefill k | .ffenceRefill k | .waitSatisfied k | .waitPacketTimeout k | .sysCompletion k => mark k
  | _ => s

/-- Take a turn. -/
def State.take (s : State) : Turn → Out
  | .event i => exec i (s.markStream i)
  | .core n => s.userTurn n
  | .lantern n => s.lanternTurn n
  | .hart h => s.hartTurn h false
  | .engine h => s.hartTurn h true
  | .porter c side => s.porterTurn c side
  | .firmware c => .next (s.disposeTrap c)
  | .copyBlock c ch id => .next (s.copyBlock c ch id)
  | .imageBlock k tile ch id => .next (s.imageBlock k tile ch id)
  | .hubCopy k => .next (s.copyMove k)
  | .tick => .next s.tick

/-- The turn that is next, and the state without it on the agenda. -/
def State.choose (s : State) : Turn × State :=
  match s.agenda with
  | t :: rest => (t, { s with agenda := rest })
  | [] => if s.mod.booted then ((s.nextTurn).getD .tick, s) else (.event .powerOn, s)

end Sys2Proof.Machine
end

