-- ==== Sys2Proof/Machine/Place.lean ====
section
/-! DEFINITION. Where a program stands so that the next step runs its first instruction: what a launch (R109, R151 to R160),
a PSTART (R306), a host store or the loading of firmware (R446) would have left, and nothing else (log 46). -/
namespace Sys2Proof.Machine

/-- The package has power and has started. -/
def State.started (s : State) : State := { s with mod := { s.mod with powered := true, booted := true, throttle := none } }

/-- The launch whose one tile stands on core 0: one bundle of code at address 0. -/
def lonely : Launch :=
  { block := 0, cid := 0, lid := 0, part := 0, image := 0, code := 0, entry := 0, bundles := 1, maxseg := 4096
    wlog := 0, hlog := 0, gx := 1, gy := 1, prio := 0, ceil := 0, st := .active, teams := [(0, .running)], quantumEnd := 2 ^ 64 }

/-- The translation of the first 2 MiB onto themselves. -/
def firstPage : TlbEnt :=
  { va := 0, size := 2 ^ 21, asid := 0, glob := true, pa := 0, attr := .C, rd := true, wr := true, user := true, dirty := true }

/-- Core 0 with a running task whose pc is 0. -/
def readyCore : WCore := { usr := { task := some { launch := 0, tx := 0, ty := 0, team := 0, st := .running } }, tlb := [firstPage] }

/-- A bundle at address 0 in memory, and core 0 about to take it, in the user context or in the lantern context. -/
def State.placeBundle (s : State) (lan : Bool) (b : Bundle) : State :=
  let s := s.started
  let s : State := { s with mem := s.mem.wrN 0 (toBytesLE 32 b.toNat) }
  if lan then { (s.setCore 0 {}) with clusters := s.clusters.put 0 { gated := false }, agenda := [.lantern 0] }
  else { (s.setCore 0 readyCore) with
    launches := s.launches.put 0 lonely, regions := s.regions.put 0 { st := .accel }
    clusters := s.clusters.put 0 { gated := false }, agenda := [.core 0] }

/-- A word of a hart at address 0 in memory, and hart 0 about to take it. -/
def State.placeHart (s : State) (w : BitVec 32) : State :=
  let s := s.started
  { s with mem := s.mem.wrN 0 (toBytesLE 4 w.toNat), harts := s.harts.put 0 {}, agenda := [.engine 0] }

/-- A word in the store of the porter of core 0's side 0, which is about to take it. -/
def State.placePorter (s : State) (w : BitVec 32) : State :=
  let s := s.started
  { (s.setCore 0 { readyCore with usr := { readyCore.usr with porters := [{ st := .running, store := [(0, w)] }, {}] } }) with
    launches := s.launches.put 0 lonely, agenda := [.porter 0 0] }

/-- Whether a move's opcode is one that only the lantern context executes (R49). -/
def lanternWord (w : Nat) : Bool := decide (0x2F0 ≤ w % 2 ^ 10 ∧ w % 2 ^ 10 < 0x2FF)

/-- The instruction of `nbits` bits `w` stands where the next step takes it: a move in a bundle of its own in its unit's
slot, a bundle, a word of a hart or of a porter. -/
def State.placed (s : State) (nbits w : Nat) : State :=
  if nbits = 24 then
    let m := BitVec.ofNat 24 w
    s.placeBundle (lanternWord w) (Bundle.one (homeSlot m) m)
  else if nbits = 256 then s.placeBundle false (Bundle.ofNat w)
  else if nbits = 32 then
    let v := BitVec.ofNat 32 w
    match decodeHart v with
    | some _ => s.placeHart v
    | none => s.placePorter v
  else s

/-- One step of the package: the next turn is taken. -/
def State.run (s : State) : Out :=
  if s.mod.powered || !s.agenda.isEmpty then
    let (t, s) := s.choose
    s.take t
  else .fault .noPower

end Sys2Proof.Machine
end

