-- ==== Sys2Proof/Machine/Step.lean ====
section
/-! DEFINITION. One step of the package, and the placing of an instruction. -/
namespace Sys2Proof.Machine

/-- One step of the package. -/
def step (s : State) : Out := s.run

/-- The state with an instruction where the next step takes it. -/
def State.withFetchWord (s : State) (nbits w : Nat) : State := s.placed nbits w

end Sys2Proof.Machine
end

