-- ==== Sys2Proof/Safety.lean ====
section
/-! DEFINITION. The terms of the claims: runs that come to no stop, memories in canonical form, a move that stands alone, and
where its result goes. -/
namespace Sys2Proof.Machine

/-- A step that answers a next state. -/
def Goes (s : State) : Prop := ∃ t, step s = .next t

/-- `n` steps from a state. -/
def runs : Nat → State → Out
  | 0, s => .next s
  | n + 1, s => match step s with
    | .next t => runs n t
    | o => o

/-- A run of `n` steps that comes to no stop. -/
def SafeFor (n : Nat) (s : State) : Prop := ∃ t, runs n s = .next t

/-- Every memory of the state is in canonical form: the package's, the scratchpad of every core, and that of every image. -/
def State.memWf (s : State) : Bool :=
  s.mem.wf && s.cores.all (fun ((_, w) : Nat × WCore) => w.usr.spad.wf && (match w.biv with | some i => i.usr.spad.wf | none => true))
    && s.launches.all (fun ((_, l) : Nat × Launch) => l.saved.all (fun (i : Image) => i.usr.spad.wf))

/-! ### A move that stands alone -/

/-- The agent of one side of a core. -/
def side (c : Nat) (lan : Bool) : Actor := if lan then .lantern c else .core c

/-- The value that a move which stands alone takes from its source. -/
def State.given (s : State) (c : Nat) (lan : Bool) (src : BitVec 10) : Val :=
  s.srcVal c (s.ctx c lan) (Bundle.one 0 0) { k := 0, w := BitVec.ofNat 24 (src.toNat * 2 ^ 10) }

/-- Whether a move that stands alone may take its value from a source at once: a register that may be read and is full, a
status tag of a full register, a result port, or a value of its own. A long immediate needs a bundle (R32). -/
def Ctx.readable (x : Ctx) (src : BitVec 10) : Bool :=
  match srcOf src.toNat with
  | .reg n => regReadable n && x.full n
  | .port u p => resultPort u p
  | .st n => x.full n
  | .long => false
  | .reserved => false
  | _ => true

/-- One side of core `c` executes a move with guard `g` and source `src`, as an agent that no segment, armed injection,
debugger's step or iteration boundary stands in the way of: the guard is true and the source may be read. -/
structure Alone (s : State) (c : Nat) (lan : Bool) (g : BitVec 3) (src : BitVec 10) : Prop where
  actor : s.actor = side c lan
  seg : lan = false → (s.usr c).inSeg = false
  quiet : lan = false → (s.core c).injMask = 0
  free : lan = false → (s.core c).debugStep = false
  line : lan = false → s.atBoundary c (s.ctx c lan).pc = none
  guard : (s.ctx c lan).pred g.toNat = true
  source : (s.ctx c lan).readable src = true

/-- The trigger of operation `o` in a bundle of its own: the operand goes to port `a` of the slot's unit. -/
def State.trigger (s : State) (c : Nat) (lan : Bool) (o : Op) (src : BitVec 10) : Trig :=
  { c := c, lan := lan, slot := o.homeSlot, op := o
    u := ((s.ctx c lan).unit o.homeSlot).write o.homeSlot 0 (s.given c lan src)
    x0 := s.ctx c lan, pc := (s.ctx c lan).pc, lim := s.nextOp }

/-- An operation may be triggered alone: its operand fits its port (R36), it is not the lantern context's alone (R49), no
register that it marks is pending (R40), the others that it reads are full, and the checks of R50 that belong to it pass. -/
structure Fit (s : State) (c : Nat) (lan : Bool) (o : Op) (src : BitVec 10) : Prop where
  vec : (srcOf src.toNat).vector = true → o.homeSlot = 3
  priv : o.privileged = true → lan = true
  free : (s.trigger c lan o src).marks.all (fun n => !(s.ctx c lan).pending n) = true
  reads : (otherSources (Bundle.one 0 0) [s.trigger c lan o src]).all (fun n => (s.ctx c lan).full n) = true
  check : s.trigCheck (s.trigger c lan o src) = .ok
  awake : s.gatedUnit (s.trigger c lan o src) = none

/-- What a fixed-latency result has written: result port `x` (0) or `y` (1) of a unit, or mask register qk (0x18 + k). -/
def Ctx.out (x : Ctx) (u p : Nat) : Val := if 0x18 ≤ p then .sc (x.q? (p - 0x18)) else if p = 0 then (x.unit u).x else (x.unit u).y

/-- A fixed-latency result goes its way (R39): after the cycle in which it was triggered it stands on its port if its latency
is 1, with its flags raised in `fps`; else it is in flight with one user cycle less to go. -/
def Delivers (t : State) (c : Nat) (lan : Bool) (u p lat : Nat) (v : Val) (fl : Flags := 0) : Prop :=
  if lat = 1 then (t.ctx c lan).out u p = v ∧ (t.ctx c lan).fps &&& fl.setWidth 64 = fl.setWidth 64
  else ∃ e ∈ (t.ctx c lan).pipe, e.unit = u ∧ e.port = p ∧ e.val = v ∧ e.fl = fl ∧ e.rem + 1 = lat

/-- An operation has marked its delivery register (R40): it is empty and pending. -/
def Marked (t : State) (c : Nat) (lan : Bool) (d : Nat) : Prop := (t.ctx c lan).pending d = true ∧ (t.ctx c lan).full d = false

/-- The deliveries that are on their way to one side of a core. -/
def State.delivsOf (s : State) (c : Nat) (lan : Bool) : List Deliv := if lan then (s.core c).lan.delivs else (s.usr c).delivs

/-- A delivery is on its way (R40): operation `id` delivers `v` with status `st` to register `reg` at the end of cycle `due`. -/
def Sent (t : State) (c : Nat) (lan : Bool) (id reg : Nat) (v : Val) (st : Status) (due : Nat) : Prop :=
  ∃ d ∈ t.delivsOf c lan, d.id = id ∧ d.reg = reg ∧ d.val = v ∧ d.tag = st ∧ d.due = due

/-- What the agents of the core owe to one of its sides. -/
def State.asksOn (s : State) (c : Nat) (lan : Bool) : List Ask := if lan then (s.core c).lan.asks else (s.usr c).asks

/-- An agent owes operation `id` its answer in register `reg` (R40, R167): it is asked `a` and `b`. -/
def Asked (t : State) (c : Nat) (lan : Bool) (id : Nat) (o : Op) (reg a b : Nat) : Prop :=
  ∃ q ∈ t.asksOn c lan, q.id = id ∧ q.op = o ∧ q.reg = reg ∧ q.a = a ∧ q.b = b ∧ q.since = t.cyc

/-- What a bundle of core `c` that works within the core leaves alone: memory, every other core, the other side of its own, the
scratchpad, every agent of the package, and the registers of its context but those that `w` holds of. -/
structure Keeps (s t : State) (c : Nat) (lan : Bool) (w : Nat → Bool) : Prop where
  mem : ∀ pa, t.mem.rd pa = s.mem.rd pa
  cores : ∀ c', c' ≠ c → t.core c' = s.core c'
  side : t.ctx c (!lan) = s.ctx c (!lan)
  spad : ∀ o, (t.usr c).spad.rd o = (s.usr c).spad.rd o
  sregs : ∀ n, isSReg n = true → w n = false → (t.ctx c lan).sreg n = (s.ctx c lan).sreg n
  vregs : ∀ n, isVReg n = true → w n = false → (t.ctx c lan).vreg n = (s.ctx c lan).vreg n
  preds : ∀ k, k < 8 → w (0x70 + k) = false → (t.ctx c lan).pred k = (s.ctx c lan).pred k
  fpc : w 0x8F = false → (t.ctx c lan).fpc = (s.ctx c lan).fpc
  seed : w 0x92 = false → (t.ctx c lan).seed = (s.ctx c lan).seed
  fps : w 0x90 = false → (t.ctx c lan).fps &&& (s.ctx c lan).fps = (s.ctx c lan).fps
  conts : t.conts = s.conts
  launches : t.launches = s.launches
  harts : t.harts = s.harts
  pairs : t.pairs = s.pairs
  regions : t.regions = s.regions
  rslots : t.rslots = s.rslots
  cyc : t.cyc = s.cyc

/-- No region holds a line locked (R371): a write to memory meets no commit that it would have to let through first. -/
def State.unlocked (s : State) : Prop := ∀ p ∈ s.rslots, p.2.locked = false

/-- No unit of a scratchpad is gated where an access reaches one (R269): what wakes there would read zero. -/
def State.awakeAt (s : State) (p : Place) : Bool := match p with | .spad k => (s.core k).gated == 0 | .glob _ => true

/-- The byte of a place as every agent sees it: memory, or the scratchpad of a core. -/
def State.byteOf (s : State) (p : Place) (pa : Nat) : Byte := match p with | .glob _ => s.mem.rd pa | .spad k => (s.spad k).rd pa

/-- The little-endian number of `n` bytes of a place (R2). -/
def State.numOf (s : State) (p : Place) (pa n : Nat) : Nat := match p with | .glob _ => s.mem.num pa n | .spad k => (s.spad k).num pa n

/-- The step changes only the bytes of one place of which `w` holds. -/
def State.writesOnly (s t : State) (p : Place) (w : Nat → Prop) : Prop :=
  (∀ pa, ¬ w pa → t.byteOf p pa = s.byteOf p pa) ∧
  match p with
  | .glob _ => ∀ k pa, (t.spad k).rd pa = (s.spad k).rd pa
  | .spad k => (∀ pa, t.mem.rd pa = s.mem.rd pa) ∧ ∀ j pa, j ≠ k → (t.spad j).rd pa = (s.spad j).rd pa

/-- A continuation takes a fault at once (R78): it runs, waits or is idle, is not being parked, and holds no fault yet. -/
def State.takesFaults (s : State) (block : Nat) : Prop :=
  ∃ q, s.conts.find? block = some q ∧ (q.st = .idle ∨ q.st = .running ∨ q.st = .waiting) ∧ q.parking = false

/-- A continuation is FAULTED and holds a fault of a class and cause at an address (R75, R78). -/
def State.holdsFault (t : State) (block cls cause : Nat) (addr : Word) : Prop :=
  ∃ q f, t.conts.find? block = some q ∧ q.st = .faulted ∧ q.fault = some f ∧ f.cls = cls ∧ f.cause = cause ∧ f.addr = addr

/-- A delivery register of one side of a core waits for an operation, and what the operation delivers is on its way. -/
def Answers (t : State) (c : Nat) (lan : Bool) (id reg : Nat) (v : Word) (st : Status) (due : Nat) : Prop :=
  Marked t c lan reg ∧ Sent t c lan id reg (.sc v) st due

/-- Where issue goes on after a bundle at `pc` that transfers no control (R24, R140). -/
def Ctx.following (x : Ctx) : Word := (loopNext x.pc 5 x.loops).1.getD (x.pc + 32)

/-- A continuation's stream may start the packet with header `h` and body `r` that stands at its next word (R101 to R105, R107): the
stream steps, nothing holds the packet back, and its words have been read. `q` is the continuation once they have. -/
structure AtPacket (s : State) (k : Nat) (q : Cont) (h : Nat) (r : Scan) : Prop where
  may : ∃ q0, s.conts.find? k = some q0 ∧ q0.streaming = true ∧ q0.stream.headReady = true ∧ q0.stream.live < 16
  read : (s.fill k).conts.find? k = some q
  block : q.block = k
  next : (s.fill k).look q = .pkt h r
  first : pktBarrier (pkType h) = true → q.stream.live = q.stream.depth
  still : q.stream.capturing = false

/-- A packet is complete as it starts, and nothing stands before it (R100): its retirement is counted, and the stream stands at the
word behind it, or back at the start of a LOOP body with passes left. -/
def Passes (t : State) (k : Nat) (q : Cont) (n : Nat) (p : Stream → Prop) : Prop :=
  ∃ q', t.conts.find? k = some q' ∧ q'.stream.next = (q.stream.advance n).next ∧ p q'.stream ∧
    (q.stream.started = [] → q.stream.record = 0 → q'.progress = min (q.progress + 1) (2 ^ 64 - 1) ∧ q'.stream.started = [])

/-- The instruction answers a next state of which `p` holds. -/
def Comes (i : Instr) (s : State) (p : State → Prop) : Prop := ∃ t, exec i s = .next t ∧ p t

end Sys2Proof.Machine
end

