-- ==== Sys2Proof/Certificates/Slice0/Obligations.lean ====
section
/-! DEFINITION. The statements for the provers: what each instruction and event of the part does, where it completes, what it
leaves alone, and the laws of the machine as a whole. -/
section
open Sys2Proof Sys2Proof.Machine

/-! ### Words and steps (R26 to R31, R91, R307) -/

/-- R28 to R31, R48, R91, R307: words written out from the layouts of a move, of a bundle and of an R-type word decode to
the instructions that they stand for. -/
def Obligations.SampleWordsDecode : Prop :=
  -- guard 000 (always), E 0, source s1, destination 10 0000 0000 (ADD)
  decodeTableWord 24 0b000_0_0000000001_1000000000 = some (.add 0 false 1) ∧
  -- guard 101, E 1, source s63, destination 10 0110 0011 (LD.D)
  decodeTableWord 24 0b101_1_0000111111_1001100011 = some (.ldD 5 true 63) ∧
  -- guard 000, source a short immediate 11 0000 0111, destination 10 1000 0000 (VADD)
  decodeTableWord 24 0b000_0_1100000111_1010000000 = some (.vadd 0 false 0b1100000111) ∧
  -- destination 00 0000 1001: register s9
  decodeTableWord 24 0b000_0_0000000010_0000001001 = some (.moveRegister 0 false 2 9) ∧
  -- destination 01 011 00001: port 1 of unit 3
  decodeTableWord 24 0b010_0_0000000011_0101100001 = some (.movePort 2 false 3 3 1) ∧
  decodeTableWord 24 0b000_0_0000000011_1100000000 = some (.discard 0 false 3) ∧
  decodeTableWord 24 0b000_0_0001000000_1100000001 = some (.busdrive 0 false 64) ∧
  decodeTableWord 24 0 = some .emptyMove ∧
  decodeTableWord 24 0b000_0_0000000011_1100000011 = none ∧
  decodeTableWord 24 0b000_0_0000000101_1010110000 = some (.mma 0 false 5) ∧
  decodeTableWord 24 0b000_0_0000000101_1011000001 = some (.cpgo 0 false 5) ∧
  decodeTableWord 24 0b000_0_0000000101_1011011000 = some (.tend 0 false 5) ∧
  decodeTableWord 24 0b000_0_0000000101_1011110000 = some (.eret 0 false 5) ∧
  -- CJOIN: funct7 1, rs2 x3, rs1 x2, funct3 0, rd x1, custom-0
  decodeTableWord 32 0b0000001_00011_00010_000_00001_0001011 = some (.cjoin 3 2 1) ∧
  -- PGATH: funct7 3, funct3 3
  decodeTableWord 32 0b0000011_00011_00010_011_00001_0001011 = some (.pgath 3 2 1) ∧
  -- a porter's ADDI x1, x2, 5
  decodeTableWord 32 0b000000000101_00010_000_00001_0010011 = some (.porterRv32imInstruction 0b000000000101_00010_000_00001_0010011)

/-- R26, R28 to R31, R91, R307: decoding the word of a well-formed instruction gives that instruction, with every guard, E,
source, register, port and header bit. -/
def Obligations.DecodeOfEncode : Prop :=
  ∀ (i : Instr) (n w : Nat), i.wf = true → encode i = some (n, w) → decodeTableWord n w = some i

/-- R26: a bundle's 256 bits, 32 bytes in little-endian order, give the bundle back, and what a bundle decodes to is well
formed. -/
def Obligations.BundleBytesRoundTrip : Prop :=
  ∀ b : Bundle, decodeBundleBytes (toBytesLE 32 b.toNat) = decodeBundle b ∧ (decodeBundle b).wf = true

/-- R24, R26, R91, R305: a step runs the instruction that the bytes at its agent's pc decode to. The user context of a core
which stands at the boundary before a bundle with nothing else due, the lantern context, a hart that does not wait (its
CSAVE, CLOAD, CRESUME and CPOST in the continuation engine's place of the cycle, R78; its words of RV64GCV too, R18; any other is illegal), and a porter
each fetch and execute; a step of the table without a word is executed as it stands. -/
def Obligations.StepRunsTheDecodedInstruction : Prop :=
  (∀ (s : State) (c : Nat) (rest : List Turn) (b : Bundle), s.agenda = .core c :: rest →
    let t := ({ s with agenda := rest, actor := .core c } : State).modCtx c false (fun x => { x with cons := s.cyc + 1 })
    t.stopsHere c = false → t.mayRun c = true → (t.usr c).ctx.idle = 0 →
    (∃ k, (t.usr c).task = some k ∧ k.killAt = false) → (t.usr c).after = [] → (t.usr c).member.bind Member.noted = none → t.draining c = false →
    t.fetch c false = .bundle b → step s = exec (decodeBundle b) (t.cacheCode c (t.codeAt c false (s.usr c).ctx.pc))) ∧
  (∀ (s : State) (c : Nat) (rest : List Turn), s.agenda = .lantern c :: rest →
    let t : State := { s with agenda := rest, actor := .lantern c }
    t.lanternMay c = true → (s.core c).lan.idle = none → (s.core c).lan.ctx.idle = 0 →
    step s = exec (decodeBundle (Bundle.ofNat (s.mem.num (s.core c).lan.ctx.pc.toNat 32))) (t.cacheCode c (some (s.core c).lan.ctx.pc.toNat))) ∧
  (∀ (s : State) (h : Nat) (rest : List Turn) (here : Bool) (n len : Nat), s.agenda = (if here then .engine h else .hart h) :: rest →
    (s.hart h).wait = .none → (s.hart h).irq = none →
    let t : State := { s with agenda := rest, actor := .hart h, engine := s.engine.filter (fun n => decide (n ≠ h)) }
    t.hartFetch h = .word n len →
    (∀ i, hartInstr n len = some i → here = true ∨ enginePlace i = none → step s = exec i t) ∧
    (∀ i, hartInstr n len = some i → here = false → enginePlace i ≠ none → step s = .next { t with engine := t.engine ++ [h] }) ∧
    (∀ r, hartInstr n len = none → (if len = 4 then Rv64.decode n else Rv64.decodeC n) = some r → step s = .next (t.hartRv h len r)) ∧
    (hartInstr n len = none → (if len = 4 then Rv64.decode n else Rv64.decodeC n) = none →
      step s = .next (if len = 4 ∧ vectorWord n = true then t.hartVector h len n else t.hartIllegal h))) ∧
  (∀ (s : State) (c side : Nat) (rest : List Turn) (w : BitVec 32) (i : Instr), s.agenda = .porter c side :: rest →
    let t := ({ s with agenda := rest, actor := .porter c side } : State).modPorter c side (fun p => { p with cons := s.cyc + 1 })
    t.porterFetch c side = .inl w → decodePorter w = some i → step s = exec i t) ∧
  ∀ (s : State) (i : Instr) (rest : List Turn), s.agenda = .event i :: rest → step s = exec i (({ s with agenda := rest } : State).markStream i)

/-- R26, R53: a bundle considered as a whole and the move that it decodes to have one meaning. -/
def Obligations.BundleIsItsMove : Prop :=
  ∀ (k : Nat) (w : BitVec 24) (i : Instr) (s : State), decodeMove w = some i → k = homeSlot w → exec i s = exec (.bundleIssue (Bundle.one k w)) s

/-! ### Moves and bundles (R24, R28 to R36, R44, R302) -/

/-- R31, R33, R34, R36, R40: a move writes its register, converted to what the register holds, makes it full with status OK,
and leaves everything else alone.
R31, R36, R37: a move to an operand port leaves its value there, converted to what the port holds; every other operand port
and everything else stays. DISCARD and the empty move write nothing.
R302: BUSDRIVE in a phase that the core claims puts lanes 0 to 15 of its vector on the bus of the cluster; BUSLAND asks for
the landing of what the bus carries at its offset. -/
def Obligations.MoveResults : Prop :=
  (∀ (s : State) (c : Nat) (lan : Bool) (g : BitVec 3) (e : Bool) (src : BitVec 10) (r : BitVec 8),
    Alone s c lan g src → wfMove g e src r = true → regWritable r.toNat = true → ((srcOf src.toNat).vector = true → isVReg r.toNat = true) →
    let v := s.given c lan src
    let n := r.toNat
    let x := s.ctx c lan
    Comes (.moveRegister g e src r) s (fun t => Keeps s t c lan (fun m => m == n) ∧ (t.ctx c lan).pc = x.following ∧
      (isSReg n = true → (t.ctx c lan).sreg n = { v := v.word, full := true, pend := (x.sreg n).pend, tag := stOK }) ∧
      (isVReg n = true → (t.ctx c lan).vreg n = { v := v.vreg, full := true, pend := (x.vreg n).pend }) ∧
      (∀ k, k < 8 → n = 0x70 + k → (t.ctx c lan).pred k = v.word.getLsbD 0) ∧
      (∀ k, k < 8 → n = 0x78 + k → (∀ p ∈ x.pipe, p.port ≠ 0x18 + k) → (t.ctx c lan).q? k = v.word) ∧
      (n = 0x8F → (t.ctx c lan).fpc = v.word &&& 0x7E3) ∧ (n = 0x90 → (t.ctx c lan).fps &&& (v.word &&& 0x7F) = v.word &&& 0x7F) ∧
      (n = 0x92 → (t.ctx c lan).seed = v.word))) ∧
  (∀ (s : State) (c : Nat) (lan : Bool) (g : BitVec 3) (e : Bool) (src : BitVec 10),
    Alone s c lan g src →
    let v := s.given c lan src
    let x := s.ctx c lan
    let same (t : State) (k : Nat) : Prop := let y := (t.ctx c lan).unit k; let z := x.unit k
      y.a = z.a ∧ y.b = z.b ∧ y.c = z.c ∧ y.d = z.d ∧ y.m = z.m ∧ y.h = z.h ∧ y.g = z.g
    (∀ (u : BitVec 3) (p : BitVec 5), operandPort u.toNat p.toNat = true → ((srcOf src.toNat).vector = true → (Dst.port u.toNat p.toNat).takesVector 0 = true) →
      Comes (.movePort g e src u p) s (fun t => Keeps s t c lan (fun _ => false) ∧ (t.ctx c lan).pc = x.following ∧
        (∀ k, k < 8 → k ≠ u.toNat → same t k) ∧
        (let y := (t.ctx c lan).unit u.toNat
         let z := x.unit u.toNat
         (y.a = if p = 0 then (if u = 3 ∨ u = 4 then .vec v.vreg else .sc v.word) else z.a) ∧
         (y.b = if p = 1 then (if u = 3 ∨ u = 4 then .vec v.vreg else if u = 2 then v else .sc v.word) else z.b) ∧
         (y.c = if p = 2 then v.word else z.c) ∧ (y.d = if p = 3 then v.word else z.d) ∧ (y.m = if p = 4 then v.word else z.m) ∧
         (y.h = if p = 5 then v.word else z.h) ∧ (y.g = if p = 6 then v.word else z.g)))) ∧
    Comes (.discard g e src) s (fun t => Keeps s t c lan (fun _ => false) ∧ (t.ctx c lan).pc = x.following ∧ ∀ k, k < 8 → same t k) ∧
    Comes .emptyMove s (fun t => Keeps s t c lan (fun _ => false) ∧ (t.ctx c lan).pc = x.following ∧ ∀ k, k < 8 → same t k)) ∧
  (∀ (s : State) (c : Nat) (lan : Bool) (g : BitVec 3) (e : Bool) (src : BitVec 10),
    Alone s c lan g src →
    let v := s.given c lan src
    ((srcOf src.toNat).vector = true → (s.usr c).claim.getLsbD (s.cyc % 32) = true →
      Comes (.busdrive g e src) s (fun t => (t.cluster (clusterOf c)).drive = some (c, v.vreg.setWidth 512) ∧ Keeps s t c lan (fun _ => false))) ∧
    ((srcOf src.toNat).vector = false → v.word.toNat + 64 ≤ spadTop → v.word.toNat % 16 = 0 →
      Comes (.busland g e src) s (fun t => (t.cluster (clusterOf c)).lands = (s.cluster (clusterOf c)).lands ++ [(c, v.word.toNat)] ∧
        Keeps s t c lan (fun _ => false))))



/-- R44: a lone move whose guard is false, whatever its destination, does nothing: the bundle issues, and the core goes on with
the next one. -/
def Obligations.GuardFalseDoesNothing : Prop :=
  ∀ (s : State) (c : Nat) (lan : Bool) (w : BitVec 24) (i : Instr),
    decodeMove w = some i → s.actor = side c lan → (lan = false → (s.usr c).inSeg = false ∧ (s.core c).debugStep = false ∧ s.atBoundary c (s.ctx c lan).pc = none) →
    srcOf (fld w.toNat 10 10) ≠ .long → Mv.static { k := homeSlot w, w := w } lan = none → (s.ctx c lan).pred (fld w.toNat 21 3) = false →
    Comes i s (fun t => Keeps s t c lan (fun _ => false) ∧ (t.ctx c lan).pc = (s.ctx c lan).following)

/-- R24, R44: the moves of one bundle read their sources at the start of the cycle and write at its end: a bundle whose moves
are moves between scalar registers leaves each register that it names as a destination with the value that the last such
move's source held before the bundle, whatever else the bundle writes. -/
def Obligations.BundleReadsBeforeItWrites : Prop :=
  ∀ (s : State) (c : Nat) (lan : Bool) (b : Bundle),
    s.actor = side c lan → (lan = false → (s.usr c).inSeg = false ∧ (s.core c).debugStep = false ∧ s.atBoundary c (s.ctx c lan).pc = none) → b.hdr = 0 →
    let src (k : Nat) : Nat := fld (b.word k).toNat 10 10
    let dst (k : Nat) : Nat := fld (b.word k).toNat 0 10
    (∀ k, k < 8 → b.word k ≠ 0 → fld (b.word k).toNat 21 3 = 0 ∧ src k < 64 ∧ dst k < 64 ∧ ((s.ctx c lan).sreg (src k)).full = true) →
    Comes (.bundleIssue b) s (fun t => (t.ctx c lan).pc = (s.ctx c lan).following ∧
      (∀ k, k < 8 → b.word k ≠ 0 → (∀ j, k < j → j < 8 → b.word j ≠ 0 → dst j ≠ dst k) →
        ((t.ctx c lan).sreg (dst k)).v = ((s.ctx c lan).sreg (src k)).v ∧ ((t.ctx c lan).sreg (dst k)).full = true) ∧
      Keeps s t c lan (fun n => (List.range 8).any (fun k => b.word k ≠ 0 && dst k == n)))

/-! ### Scalar operations (R181 to R206) -/

/-- R184, R185, R186, R189: what the integer arithmetic of slot 0 delivers, on which port, with which latency (R183) and
flags.
R187, R188, R192, R193, R198: what the logic, shift, count, bitfield, address and byte operations deliver. -/
def Obligations.ScalarIntegerResults : Prop :=
  (∀ (s : State) (c : Nat) (lan : Bool) (g : BitVec 3) (e : Bool) (src : BitVec 10),
    Alone s c lan g src → (srcOf src.toNat).vector = false →
    let a := (s.given c lan src).word
    let b := ((s.ctx c lan).unit 0).b.word
    let least : Word := BitVec.ofNat 64 (2 ^ 63)
    let quot : Word := if b = 0 then BitVec.allOnes 64 else if a = least ∧ b = BitVec.allOnes 64 then a else BitVec.ofInt 64 (a.toInt.tdiv b.toInt)
    let rest : Word := if b = 0 then a else if a = least ∧ b = BitVec.allOnes 64 then 0 else BitVec.ofInt 64 (a.toInt.tmod b.toInt)
    let quotU : Word := if b = 0 then BitVec.allOnes 64 else BitVec.ofNat 64 (a.toNat / b.toNat)
    let restU : Word := if b = 0 then a else BitVec.ofNat 64 (a.toNat % b.toNat)
    let zero : Flags := if b = 0 then flIDZ else 0
    let clamp (v : Int) : Word := if v < -2 ^ 63 then least else if 2 ^ 63 ≤ v then least - 1 else BitVec.ofInt 64 v
    let over' (v : Int) : Bool := decide (v < -2 ^ 63 ∨ 2 ^ 63 ≤ v)
    let word (v : Word) : Word := (v.setWidth 32).signExtend 64
    ∀ p ∈ ([(.add g e src, 0, 1, a + b, 0), (.add g e src, 1, 1, if 2 ^ 64 ≤ a.toNat + b.toNat then 1 else 0, 0),
        (.sub g e src, 0, 1, a - b, 0), (.sub g e src, 1, 1, if a.toNat < b.toNat then 1 else 0, 0),
        (.addw g e src, 0, 1, word (a + b), 0), (.subw g e src, 0, 1, word (a - b), 0),
        (.adds g e src, 0, 1, clamp (a.toInt + b.toInt), if over' (a.toInt + b.toInt) then flSAT else 0),
        (.adds g e src, 1, 1, if over' (a.toInt + b.toInt) then 1 else 0, 0),
        (.subs g e src, 0, 1, clamp (a.toInt - b.toInt), if over' (a.toInt - b.toInt) then flSAT else 0),
        (.subs g e src, 1, 1, if over' (a.toInt - b.toInt) then 1 else 0, 0),
        (.mul g e src, 0, 3, a * b, 0), (.mulw g e src, 0, 3, word (a * b), 0),
        (.mulh g e src, 0, 3, BitVec.ofInt 64 (a.toInt * b.toInt / 2 ^ 64), 0),
        (.mulhu g e src, 0, 3, BitVec.ofNat 64 (a.toNat * b.toNat / 2 ^ 64), 0),
        (.div g e src, 0, 20, quot, zero), (.div g e src, 1, 20, rest, 0), (.divu g e src, 0, 20, quotU, zero), (.divu g e src, 1, 20, restU, 0),
        (.rem g e src, 0, 20, rest, zero), (.rem g e src, 1, 20, quot, 0), (.remu g e src, 0, 20, restU, zero), (.remu g e src, 1, 20, quotU, 0),
        (.min g e src, 0, 1, if a.toInt ≤ b.toInt then a else b, 0), (.max g e src, 0, 1, if a.toInt ≤ b.toInt then b else a, 0),
        (.minu g e src, 0, 1, if a.toNat ≤ b.toNat then a else b, 0), (.maxu g e src, 0, 1, if a.toNat ≤ b.toNat then b else a, 0),
        (.abs g e src, 0, 1, if a.toInt < 0 then 0 - a else a, 0), (.neg g e src, 0, 1, 0 - a, 0)] : List (Instr × Nat × Nat × Word × Flags)),
      Comes p.1 s (fun t => Delivers t c lan 0 p.2.1 p.2.2.1 (.sc p.2.2.2.1) p.2.2.2.2)) ∧
  (∀ (s : State) (c : Nat) (lan : Bool) (g : BitVec 3) (e : Bool) (src : BitVec 10),
    Alone s c lan g src → (srcOf src.toNat).vector = false →
    let a := (s.given c lan src).word
    let b := ((s.ctx c lan).unit 0).b.word
    let x := ((s.ctx c lan).unit 0).x.word
    let n := b.toNat % 64
    let len := if b.toNat / 2 ^ 8 % 64 = 0 then 64 else b.toNat / 2 ^ 8 % 64
    let field : Nat := a.toNat / 2 ^ n % 2 ^ len
    let ones : List Nat := (List.range 64).filter (fun i => a.getLsbD i)
    let mask : Word := BitVec.ofNat 64 ((2 ^ len - 1) * 2 ^ n)
    let k := 16 * (b.toNat % 4)
    ∀ p ∈ ([(.and g e src, 1, a &&& b), (.or g e src, 1, a ||| b), (.xor g e src, 1, a ^^^ b), (.andn g e src, 1, a &&& ~~~b),
        (.sll g e src, 1, a <<< n), (.srl g e src, 1, a >>> n), (.sra g e src, 1, a.sshiftRight n), (.rol g e src, 1, a.rotateLeft n),
        (.clz g e src, 2, BitVec.ofNat 64 (if a = 0 then 64 else 63 - a.toNat.log2)), (.ctz g e src, 2, BitVec.ofNat 64 (ones.headD 64)),
        (.popc g e src, 2, BitVec.ofNat 64 ones.length), (.brev g e src, 2, a.reverse),
        (.extu g e src, 1, BitVec.ofNat 64 field),
        (.ins g e src, 1, (x &&& ~~~mask) ||| ((a <<< n) &&& mask)),
        (.lea g e src, 1, a + 8 * b), (.lea2 g e src, 1, a + BitVec.ofNat 64 (b.toNat % 2 ^ 32) + 512 * BitVec.ofNat 64 (b.toNat / 2 ^ 32)),
        (.movk g e src, 1, (x &&& ~~~(BitVec.ofNat 64 (0xFFFF * 2 ^ k))) ||| BitVec.ofNat 64 (a.toNat % 2 ^ 16 * 2 ^ k)),
        (.bswap g e src, 1, BitVec.ofNat 64 (bswapGo a.toNat (match b.toNat % 4 with | 1 => 4 | 2 => 2 | _ => 8))),
        (.crc g e src, 2, BitVec.ofNat 64 (crcGo b.toNat 64 0 (a.toNat % 2 ^ 32)))] : List (Instr × Nat × Word)),
      Comes p.1 s (fun t => Delivers t c lan 0 0 p.2.1 (.sc p.2.2)) ∧
    Comes (.ext g e src) s (fun t => Delivers t c lan 0 0 1 (.sc (if 2 ^ (len - 1) ≤ (a.sshiftRight n).toNat % 2 ^ len
      then BitVec.ofInt 64 (((a.sshiftRight n).toNat % 2 ^ len : Int) - 2 ^ len) else BitVec.ofNat 64 ((a.sshiftRight n).toNat % 2 ^ len)))))


/-- R190, R191, R194: what compares, SEL and the predicate operations deliver; a compare's complement goes to port `y`. -/
def Obligations.ScalarTruthResults : Prop :=
  ∀ (s : State) (c : Nat) (lan : Bool) (g : BitVec 3) (e : Bool) (src : BitVec 10),
    Alone s c lan g src → (srcOf src.toNat).vector = false →
    let a := (s.given c lan src).word
    let b := ((s.ctx c lan).unit 0).b.word
    let x := ((s.ctx c lan).unit 0).x.word
    let p := (s.ctx c lan).p ||| 1
    let all (t : Bool) : Word := if t then BitVec.allOnes 64 else 0
    (∀ q ∈ ([(.ceq g e src, decide (a = b)), (.cne g e src, decide (a ≠ b)), (.clt g e src, decide (a.toInt < b.toInt)),
        (.cltu g e src, decide (a.toNat < b.toNat)), (.cle g e src, decide (a.toInt ≤ b.toInt)), (.cleu g e src, decide (a.toNat ≤ b.toNat)),
        (.ctst g e src, decide (a &&& b ≠ 0)), (.cbit g e src, a.getLsbD (b.toNat % 64))] : List (Instr × Bool)),
      Comes q.1 s (fun t => Delivers t c lan 0 0 1 (.sc (all q.2)) ∧ Delivers t c lan 0 1 1 (.sc (all !q.2)))) ∧
    ∀ q ∈ ([(.sel g e src, (a &&& x) ||| (b &&& ~~~x)), (.pand g e src, all (a.getLsbD 0 && b.getLsbD 0)), (.por g e src, all (a.getLsbD 0 || b.getLsbD 0)),
        (.pxor g e src, all (a.getLsbD 0 != b.getLsbD 0)), (.pnot g e src, all (!a.getLsbD 0)), (.pandn g e src, all (a.getLsbD 0 && !b.getLsbD 0)),
        (.pmov g e src, all (a.getLsbD 0)), (.pget g e src, p.setWidth 64),
        (.pall g e src, all ((List.range 8).all (fun k => !a.getLsbD k || p.getLsbD k)))] : List (Instr × Word)),
      Comes q.1 s (fun t => Delivers t c lan 0 0 1 (.sc q.2))

/-- R200 to R206: what the scalar floating-point operations deliver, with which latency and flags: the operation of chapter 3
on the codes of `a`, `b` and X under the rounding mode of `fpc`. -/
def Obligations.ScalarFloatResults : Prop :=
  ∀ (s : State) (c : Nat) (lan : Bool) (g : BitVec 3) (e : Bool) (src : BitVec 10),
    Alone s c lan g src → (srcOf src.toNat).vector = false →
    let w := (s.given c lan src).word
    let a := w.toNat
    let b := ((s.ctx c lan).unit 0).b.word.toNat
    let x := ((s.ctx c lan).unit 0).x.word.toNat
    let rm := RMode.ofFpc (s.ctx c lan).fpc
    let all (t : Bool) : Word := if t then BitVec.allOnes 64 else 0
    (∀ p ∈ ([(.faddD g e src, 4, fadd fp64 rm a b), (.fsubD g e src, 4, fsub fp64 rm a b), (.fmulD g e src, 4, fmul fp64 rm a b), (.ffmaD g e src, 4, ffma fp64 rm a b x),
        (.fdivD g e src, 22, fdiv fp64 rm (unpack fp64 a) (unpack fp64 b)), (.fsqrtD g e src, 26, fsqrt fp64 rm (unpack fp64 a)),
        (.fminD g e src, 2, fminmax fp64 false a b), (.fmaxD g e src, 2, fminmax fp64 true a b),
        (.faddS g e src, 4, fadd fp32 rm a b), (.fsubS g e src, 4, fsub fp32 rm a b), (.fmulS g e src, 4, fmul fp32 rm a b), (.ffmaS g e src, 4, ffma fp32 rm a b x),
        (.fdivS g e src, 12, fdiv fp32 rm (unpack fp32 a) (unpack fp32 b)), (.fsqrtS g e src, 14, fsqrt fp32 rm (unpack fp32 a)),
        (.fminS g e src, 2, fminmax fp32 false a b), (.fmaxS g e src, 2, fminmax fp32 true a b),
        (.fclass g e src, 1, (fclass (match b % 4 with | 0 => fp64 | 1 => fp32 | 2 => bf16 | _ => fp16) a, 0)),
        (.fcvtSD g e src, 3, fcvt fp64 fp32 rm a), (.fcvtDS g e src, 3, fcvt fp32 fp64 rm a), (.fcvtDL g e src, 3, roundFV fp64 rm (.ofInt w.toInt)),
        (.fcvtSW g e src, 3, roundFV fp32 rm (.ofInt (w.setWidth 32).toInt)), (.fcvtBfS g e src, 3, fcvt fp32 bf16 rm a), (.fcvtSBf g e src, 3, fcvt bf16 fp32 rm a),
        (.frnd g e src, 3, frnd (if b % 2 = 1 then fp32 else fp64) (match b / 2 % 8 with | 4 => .rne | 5 => .rtz | 6 => .rup | 7 => .rdn | _ => rm) a)]
        : List (Instr × Nat × Nat × Flags)),
      Comes p.1 s (fun t => Delivers t c lan 0 0 p.2.1 (.sc (BitVec.ofNat 64 p.2.2.1)) p.2.2.2)) ∧
    (∀ p ∈ ([(.fcvtLD g e src, toInteger rm (-2 ^ 63) (2 ^ 63 - 1) (unpack fp64 a)), (.fcvtWS g e src, toInteger rm (-2 ^ 31) (2 ^ 31 - 1) (unpack fp32 a))]
        : List (Instr × Int × Flags)),
      Comes p.1 s (fun t => Delivers t c lan 0 0 3 (.sc (BitVec.ofInt 64 p.2.1)) p.2.2)) ∧
    ∀ p ∈ ([(.fceqD g e src, fcompare fp64 true cmpEq a b), (.fcltD g e src, fcompare fp64 false cmpLt a b), (.fcleD g e src, fcompare fp64 false cmpLe a b),
        (.fceqS g e src, fcompare fp32 true cmpEq a b), (.fcltS g e src, fcompare fp32 false cmpLt a b), (.fcleS g e src, fcompare fp32 false cmpLe a b)]
        : List (Instr × Bool × Bool × Flags)),
      Comes p.1 s (fun t => Delivers t c lan 0 0 2 (.sc (all p.2.1)) p.2.2.2 ∧ Delivers t c lan 0 1 2 (.sc (all p.2.2.1)))

/-- R195 to R199: CHKEQ and CHKP pass `a`, and a difference is a failure of the task; RDSPEC and WRSPEC reach a special
register; RAND steps `seed`; MIX mixes; NOP delivers nothing. -/
def Obligations.ScalarSpecialResults : Prop :=
  ∀ (s : State) (c : Nat) (g : BitVec 3) (e : Bool) (src : BitVec 10),
    Alone s c false g src → (srcOf src.toNat).vector = false →
    let x := s.ctx c false
    let a := (s.given c false src).word
    let b := (x.unit 0).b.word
    let n := a.toNat % 256
    let fails (t : State) : Prop := (s.usr c).after = [] → ∃ r ∈ (t.usr c).after, r.cause = cSDC_MISMATCH ∧ r.pc = x.pc
    let d : Word := if x.seed = 0 then 0x9E3779B97F4A7C15 else x.seed
    let d1 := d ^^^ (d <<< 13)
    let d2 := d1 ^^^ (d1 >>> 7)
    let d3 := d2 ^^^ (d2 <<< 17)
    let z := a ^^^ b
    let z1 := (z ^^^ (z >>> 30)) * 0xBF58476D1CE4E5B9
    let z2 := (z1 ^^^ (z1 >>> 27)) * 0x94D049BB133111EB
    Comes (.chkeq g e src) s (fun t => Delivers t c false 0 0 1 (.sc a) ∧ (a ≠ b → fails t)) ∧
    Comes (.chkp g e src) s (fun t => Delivers t c false 0 0 1 (.sc a) ∧ (a.getLsbD 0 ≠ b.getLsbD 0 → fails t)) ∧
    ((0x80 ≤ n ∧ n ≤ 0x92) → Comes (.rdspec g e src) s (fun t => Delivers t c false 0 0 1 (.sc (s.special c x n)))) ∧
    (n = 0x8F → Comes (.wrspec g e src) s (fun t => (t.ctx c false).fpc = b &&& 0x7E3 ∧ Delivers t c false 0 0 1 (.sc b))) ∧
    (n = 0x90 → Comes (.wrspec g e src) s (fun t => (t.ctx c false).fps &&& (b &&& 0x7F) = b &&& 0x7F)) ∧
    (n = 0x92 → Comes (.wrspec g e src) s (fun t => (t.ctx c false).seed = b)) ∧
    Comes (.rand g e src) s (fun t => (t.ctx c false).seed = d3 ∧ Delivers t c false 0 0 1 (.sc (d3 * 0x2545F4914F6CDD1D))) ∧
    Comes (.mix g e src) s (fun t => Delivers t c false 0 0 3 (.sc (z2 ^^^ (z2 >>> 31)))) ∧
    Comes (.nop g e src) s (fun t => (t.ctx c false).pipe.length ≤ x.pipe.length ∧ (t.ctx c false).s = x.s)

/-- R24, R31, R39, R181: what a scalar operation leaves alone: every register but the one that WRSPEC writes and the seed that
RAND steps, memory, the scratchpad, and every other core; the core goes on with the next bundle. -/
def Obligations.ScalarFrame : Prop :=
  ∀ (s : State) (c : Nat) (lan : Bool) (g : BitVec 3) (e : Bool) (src : BitVec 10) (o : Op),
    Alone s c lan g src → (srcOf src.toNat).vector = false → o.homeSlot = 0 →
    let n := (s.given c lan src).word.toNat % 256
    (o = .rdspec → 0x80 ≤ n ∧ n ≤ 0x92) → (o = .wrspec → n = 0x8F ∨ n = 0x90 ∨ n = 0x92) →
    Comes (Instr.ofOp o g e src) s (fun t => Keeps s t c lan (fun m => (o == .wrspec && m == n) || (o == .rand && m == 0x92)) ∧
      (t.ctx c lan).pc = (s.ctx c lan).following)

/-! ### Vector operations (R207 to R225) -/

/-- R207, R211, R212: a vector operation whose control word and mask pass their checks delivers its vector, its flags and its
scalar result, where it writes one, with its latency; a VCHK that finds a difference is a failure of its task. What it computes is
`vectorRes`, which the next statements give by element. -/
def Obligations.VectorOperationsDeliver : Prop :=
  ∀ (s : State) (c : Nat) (lan : Bool) (g : BitVec 3) (e : Bool) (src : BitVec 10) (o : Op),
    Alone s c lan g src → 0x80 ≤ o.code → o.code < 0xB0 →
    let u := (s.ctx c lan).unit 3
    let m := u.m.toNat % 256
    let i : VIn := { a := (s.given c lan src).vreg, b := u.b.vreg, x := u.x.vreg, c := ⟨u.c⟩
                     m := if m = 0 then none else some ((s.ctx c lan).q? (m - 0x78)), rm := RMode.ofFpc (s.ctx c lan).fpc }
    let r := vectorRes o i
    vIllegal o u.c u.m = false →
    Comes (Instr.ofOp o g e src) s (fun t => Delivers t c lan 3 0 (vectorLat o ⟨u.c⟩) (.vec r.x) r.fl ∧
      (∀ v, r.q = some v → vWritesQ o ⟨u.c⟩ = true → Delivers t c lan 3 (0x18 + VCtl.qd ⟨u.c⟩) (vectorLat o ⟨u.c⟩) (.sc v)) ∧
      (o = .vchk → lan = false → (s.usr c).after = [] → i.a ≠ i.b → ∃ f ∈ (t.usr c).after, f.cause = cSDC_MISMATCH ∧ f.pc = (s.ctx c lan).pc) ∧
      Keeps s t c lan (fun _ => false) ∧ (t.ctx c lan).pc = (s.ctx c lan).following)

/-- R209, R210, R213 to R217, R222, R225: the elements that the vector operations on integer types give: each active element
from the elements of `a`, `b` and X as integers of the type, cut to the type (saturated with SAT); an inactive element keeps
X's or, with MZ, is 0.
R60, R209, R210, R214 to R216, R219, R225: the elements that the vector operations on float types give: the operation of
chapter 3 on the codes of the elements under the rounding mode, and their flags from active elements only. -/
def Obligations.VectorElementResults : Prop :=
  (∀ (i : VIn) (t : VTy) (e : Nat), i.c.ty = some t → t.isInt = true → e < t.count →
    let w := t.width
    let val (n : Nat) : Int := if t.signed = true ∧ 2 ^ (w - 1) ≤ n then (n : Int) - 2 ^ w else n
    let lo : Int := if t.signed = true then -2 ^ (w - 1) else 0
    let hi : Int := if t.signed = true then 2 ^ (w - 1) - 1 else 2 ^ w - 1
    let wrap (v : Int) : Nat := (v % 2 ^ w).toNat
    let cut (v : Int) : Nat := if i.c.sat = true then wrap (max lo (min v hi)) else wrap v
    let na := elem w i.a e
    let nb := elem w i.b e
    let a := val na
    let b := val nb
    let x := val (elem w i.x e)
    let live := match i.m with | none => true | some q => q.getLsbD (e * w / 32)
    let idle := if i.c.mz = true then 0 else elem w i.x e
    ∀ p ∈ ([(.vadd, cut (a + b)), (.vsub, cut (a - b)), (.vmul, cut (a * b)), (.vfma, cut (x + a * b)), (.vfms, cut (x - a * b)),
        (.vmin, if a ≤ b then na else nb), (.vmax, if a ≤ b then nb else na), (.vabs, cut a.natAbs), (.vneg, cut (-a)),
        (.vdiv, if b = 0 then 2 ^ w - 1 else wrap (a.tdiv b)),
        (.vand, na &&& nb), (.vor, na ||| nb), (.vxor, na ^^^ nb), (.vshl, wrap (a * 2 ^ (nb % w))), (.vshr, wrap (a / 2 ^ (nb % w))),
        (.vidx, wrap (a + e * b)), (.vclamp, wrap (min (max a (if i.c.k % 2 = 1 ∧ t.signed = true then -b else 0)) b)),
        (.vceq, if a = b then 2 ^ w - 1 else 0), (.vclt, if a < b then 2 ^ w - 1 else 0), (.vcle, if a ≤ b then 2 ^ w - 1 else 0)] : List (Op × Nat)),
      elem w (vectorRes p.1 i).x e = if live = true then p.2 else idle) ∧
  (∀ (i : VIn) (t : VTy) (e : Nat), i.c.ty = some t → t.cls = .F → e < t.count →
    let w := t.width
    let f := t.fmt
    let a := elem w i.a e
    let b := elem w i.b e
    let x := elem w i.x e
    let live := match i.m with | none => true | some q => q.getLsbD (e * w / 32)
    let idle := if i.c.mz = true then 0 else x
    let xa := unpack f a
    let xb := unpack f b
    (∀ p ∈ ([(.vadd, fadd f i.rm a b), (.vsub, fsub f i.rm a b), (.vmul, fmul f i.rm a b), (.vfma, ffma f i.rm a b x),
        (.vfms, roundFV f i.rm (fsum i.rm [unpack f x, (xa.mul xb).neg])), (.vmin, fminmax f false a b), (.vmax, fminmax f true a b),
        (.vabs, fabs f a), (.vneg, fneg f a), (.vdiv, fdiv f i.rm xa xb), (.vsqrt, fsqrt f i.rm xa), (.vrcp, fdiv f i.rm (.fin false 1 0) xa),
        (.vrsq, frsqrt f i.rm xa), (.vexp2, fexp2 i.rm a), (.vlog2, flog2 i.rm a), (.vrnd, frnd f (rndMode i.rm i.c.k) a),
        (.vceq, (if (fcompare f true cmpEq a b).1 = true then 2 ^ w - 1 else 0, (fcompare f true cmpEq a b).2.2)),
        (.vclt, (if (fcompare f false cmpLt a b).1 = true then 2 ^ w - 1 else 0, (fcompare f false cmpLt a b).2.2)),
        (.vcle, (if (fcompare f false cmpLe a b).1 = true then 2 ^ w - 1 else 0, (fcompare f false cmpLe a b).2.2))] : List (Op × Nat × Flags)),
      p.2.1 < 2 ^ w → elem w (vectorRes p.1 i).x e = (if live = true then p.2.1 else idle) ∧ (live = true → (vectorRes p.1 i).fl &&& p.2.2 = p.2.2)) ∧
    -- complex element k in the elements 2k and 2k + 1
    (let k := e / 2
     let clive := match i.m with | none => true | some q => q.getLsbD (2 * k * w / 32)
     let c (v : VReg) (j : Nat) : Nat × Nat := (elem w v (2 * j), elem w v (2 * j + 1))
     let part (z : (Nat × Flags) × (Nat × Flags)) : Nat := if e % 2 = 0 then z.1.1 else z.2.1
     ∀ p ∈ ([(.vcmul, part (cmul f i.rm (decide (i.c.k % 2 = 1)) (c i.a k) (c i.b k))),
         (.vconj, part (((if (unpack f (c i.a k).1).isNan then f.nan else (c i.a k).1), 0), fneg f (c i.a k).2)),
         (.vsincos, part (fturn true i.rm (c i.a k).1, fturn false i.rm (c i.a k).1))] : List (Op × Nat)),
       p.2 < 2 ^ w → elem w (vectorRes p.1 i).x e = if clive = true then p.2 else idle))


/-- R211, R212, R218, R220, R221, R223, R225: what the operations on lanes and masks give: the mask of a compare, selection,
permutation, broadcast, extraction and insertion, masks as vectors, the packed elements of a mask and their number, and
the reductions of integers. -/
def Obligations.VectorLanesAndMasks : Prop :=
  ∀ (i : VIn) (t : VTy) (e : Nat), i.c.ty = some t → e < t.count →
    let w := t.width
    let val (n : Nat) : Int := if t.signed = true ∧ 2 ^ (w - 1) ≤ n then (n : Int) - 2 ^ w else n
    let live (j : Nat) : Bool := match i.m with | none => true | some q => q.getLsbD (j * w / 32)
    let a := elem w i.a e
    let b := elem w i.b e
    let idle := if i.c.mz = true then 0 else elem w i.x e
    let all := i.m.getD (BitVec.allOnes 64)
    let pick := elem w i.a (elem 32 i.b 0 % t.count)
    let mark (o : Op) (l : Nat) : Bool := match (vectorRes o i).q with | some q => q.getLsbD l | none => false
    (elem w (vectorRes .vsel i).x e = if live e = true then a else b) ∧
    (elem w (vectorRes .vbcast i).x e = if live e = true then pick else idle) ∧
    (elem w (vectorRes .vextr i).x e = if e = 0 then pick else 0) ∧
    (elem w (vectorRes .vinsr i).x e = if e = i.c.k % t.count then elem w i.b 0 else a) ∧
    ((vectorRes .vchk i).x = i.a) ∧
    ((vectorRes .vqpop i).q = some (BitVec.ofNat 64 ((List.range t.count).filter (fun j => all.getLsbD (j * w / 32))).length)) ∧
    (t.isInt = true → w ≤ 32 → ∀ l, l < 64 → ∀ p ∈ ([(.vceq, fun (x y : Int) => decide (x = y)), (.vclt, fun x y => decide (x < y)),
        (.vcle, fun x y => decide (x ≤ y))] : List (Op × (Int → Int → Bool))),
      mark p.1 l = (List.range (32 / w)).all (fun j => live (l * (32 / w) + j) &&
        p.2 (val (elem w i.a (l * (32 / w) + j))) (val (elem w i.b (l * (32 / w) + j))))) ∧
    (t.cls = .I →
      (∃ y : Nat, (vectorRes .vredadd i).x = BitVec.ofNat 2048 y ∧ y < 2 ^ w ∧
        (y : Int) = ((List.range t.count).map (fun j => if live j = true then val (elem w i.a j) else 0)).sum % 2 ^ w) ∧
      (∀ j, j < t.count → live j = true → val (elem w (vectorRes .vredmin i).x 0) ≤ val (elem w i.a j) ∧ val (elem w i.a j) ≤ val (elem w (vectorRes .vredmax i).x 0))) ∧
    ∀ l, l < 64 →
      (elem 32 (vectorRes .vperm i).x l = if (match i.m with | none => true | some q => q.getLsbD l) = true
        then (if elem 32 i.b l / 64 % 2 = 1 then 0 else elem 32 i.a (elem 32 i.b l % 64)) else (if i.c.mz = true then 0 else elem 32 i.x l)) ∧
      (elem 32 (vectorRes .vmovq i).x l = if i.c.k % 2 = 0 then elem 32 i.a l else if all.getLsbD l = true then 2 ^ 32 - 1 else 0) ∧
      (i.c.k % 2 = 0 → mark .vmovq l = decide (elem 32 i.a l ≠ 0)) ∧
      (let n := 4 * (if elem 32 i.a l ≠ 0 then 1 else 0) + 2 * (if elem 32 i.b l ≠ 0 then 1 else 0) + (if all.getLsbD l = true then 1 else 0)
       mark .vqop l = decide (i.c.k / 2 ^ n % 2 = 1) ∧ elem 32 (vectorRes .vqop i).x l = if i.c.k / 2 ^ n % 2 = 1 then 2 ^ 32 - 1 else 0)

/-! ### Loads, stores, atomics, counters and barriers: their triggers (R253 to R282, R344 to R357) -/

/-- R40, R253, R270, R271, R274 to R278, R349 to R357: an access that passes its checks issues: it is on its way with its
operation, place, pieces, control word and data, under a new number; unless it is a plain store its delivery register is
marked; the control port is 0 again; and nothing else changes. -/
def Obligations.AccessesIssue : Prop :=
  ∀ (s : State) (c : Nat) (lan : Bool) (g : BitVec 3) (e : Bool) (src : BitVec 10) (o : Op),
    Alone s c lan g src → 0x60 ≤ o.code → o.code < 0x7C → Fit s c lan o src →
    let t0 := s.trigger c lan o src
    let d := t0.d
    let u := (s.ctx c lan).unit 2
    let a := (s.given c lan src).word
    let lim := ((s.ctx c lan).sreg d).v
    s.emulated t0 = false →
    (o = .ctrwait ∨ o = .barw → fld lim.toNat 40 23 = 0) → (o = .barinit → barinitBad u.b.word.toNat = false) →
    (o = .barv → 1 ≤ u.b.word.toNat ∧ u.b.word.toNat ≤ 15) → (o = .barw → u.b.word.toNat < 16) →
    Comes (Instr.ofOp o g e src) s (fun t => t.nextOp = s.nextOp + 1 ∧ ((t.ctx c lan).unit 2).c = 0 ∧
      Keeps s t c lan (fun n => !o.isStore && n == d) ∧ (o.isStore = false → Marked t c lan d) ∧
      ∃ m ∈ t.mops c lan, m.id = s.nextOp ∧ m.op = o ∧ m.issue = s.cyc ∧ m.lan = lan ∧ m.va = a ∧ m.ctl = u.c ∧ m.pc = (s.ctx c lan).pc ∧
        (m.place, m.pieces) = s.planOf t0 ∧ m.reg = (if o.isStore = true then none else some d) ∧
        (o = .vst → m.b = .vec u.b.vreg) ∧ (o = .vscat → m.b = .vec ((s.ctx c lan).vreg d).v) ∧
        (o ≠ .vst → o ≠ .vscat → o ≠ .vld → o ≠ .vgath → m.b = .sc u.b.word) ∧ (o = .cas ∨ o = .ctrwait ∨ o = .barw → m.exp = lim) ∧
        m.handle = (if ctlReg u.c = true ∧ o.isSync = false ∧ o ≠ .ldr then some u.h else none))

/-- R353, R355 to R357: a wait, an arrival or an initialisation whose operand the spec refuses delivers 0 with status ERROR at the
end of its cycle and reaches no memory. -/
def Obligations.RefusedSyncOperandsDeliverError : Prop :=
  ∀ (s : State) (c : Nat) (lan : Bool) (g : BitVec 3) (e : Bool) (src : BitVec 10),
    Alone s c lan g src →
    let d (o : Op) : Nat := (s.trigger c lan o src).d
    let b := ((s.ctx c lan).unit 2).b.word.toNat
    let lim (o : Op) : Nat := ((s.ctx c lan).sreg (d o)).v.toNat
    let errs (o : Op) (t : State) : Prop := Marked t c lan (d o) ∧ Sent t c lan s.nextOp (d o) (.sc 0) stERROR s.cyc ∧ t.mops c lan = s.mops c lan
    (Fit s c lan .ctrwait src → fld (lim .ctrwait) 40 23 ≠ 0 → Comes (.ctrwait g e src) s (errs .ctrwait)) ∧
    (Fit s c lan .barinit src → barinitBad b = true → Comes (.barinit g e src) s (errs .barinit)) ∧
    (Fit s c lan .barv src → b = 0 ∨ 15 < b → Comes (.barv g e src) s (errs .barv)) ∧
    (Fit s c lan .barw src → 16 ≤ b ∨ fld (lim .barw) 40 23 ≠ 0 → Comes (.barw g e src) s (errs .barw))

/-- R270, R438: an access that ERET 5 has left to the firmware makes no access: its register is marked, its ports are kept, and
the task traps FIRMWARE_ASSIST after the bundle. -/
def Obligations.WaivedAccessTrapsFirmwareAssist : Prop :=
  ∀ (s : State) (c : Nat) (g : BitVec 3) (e : Bool) (src : BitVec 10) (o : Op),
    Alone s c false g src → o.isLoad = true ∨ o.isStore = true → Fit s c false o src → s.emulated (s.trigger c false o src) = true →
    Comes (Instr.ofOp o g e src) s (fun t => t.mops c false = s.mops c false ∧ (o.isStore = false → Marked t c false (s.trigger c false o src).d) ∧
      (∃ l, (t.usr c).latched = some l ∧ l.op = o ∧ l.u = (s.trigger c false o src).u) ∧
      ∃ f ∈ (t.usr c).after, f.cause = cFIRMWARE_ASSIST ∧ f.pc = (s.ctx c false).pc ∧ f.after = true)

/-- R268, R279 to R282: FENCE is on its way with the classes of its operand; TLOOK delivers the lowest way of the key's set that
holds the key's tag, or 0xFFFF; TSET replaces or clears a slot and delivers the key that it held; BND puts a binding that R282
accepts into the continuation. -/
def Obligations.FenceAndTagResults : Prop :=
  ∀ (s : State) (c : Nat) (lan : Bool) (g : BitVec 3) (e : Bool) (src : BitVec 10),
    Alone s c lan g src →
    let u := (s.ctx c lan).unit 2
    let a := (s.given c lan src).word
    let d := u.d.toNat % 256
    let b := u.b.word.toNat
    let set (k : Word) : Nat := (k.toNat % 1024) ^^^ (k.toNat / 1024 % 1024)
    let tag (k : Word) : BitVec 54 := BitVec.ofNat 54 (k.toNat / 1024)
    let tags := (s.usr c).tags
    let way := [0, 1, 2, 3].find? (fun w => decide (tags.find? (4 * set a + w) = some (tag a)))
    let slot := b % 4096
    let done (t : State) (v : Word) (st : Status) (due : Nat) : Prop := Marked t c lan d ∧ Sent t c lan s.nextOp d (.sc v) st due
    let entry := bindOf (s.spadNum (s.trigger c lan .bnd src) a.toNat 8) (s.spadNum (s.trigger c lan .bnd src) (a.toNat + 8) 8)
    (Fit s c lan .fence src → Comes (.fence g e src) s (fun t => Marked t c lan d ∧
      ∃ m ∈ t.mops c lan, m.id = s.nextOp ∧ m.op = .fence ∧ fencePred m = fld a.toNat 4 2 ∧ fenceSucc m = fld a.toNat 8 2 ∧ m.reg = some d)) ∧
    (Fit s c lan .tlook src → Comes (.tlook g e src) s (fun t => done t (match way with | some w => BitVec.ofNat 64 (4 * set a + w) | none => 0xFFFF) stOK (s.cyc + 1))) ∧
    (Fit s c lan .tset src → b / 2 ^ 17 = 0 → b / 2 ^ 12 % 16 = 0 → (b / 2 ^ 16 = 1 ∨ slot / 4 = set a) →
      Comes (.tset g e src) s (fun t => (t.usr c).tags.find? slot = (if b / 2 ^ 16 = 1 then none else some (tag a)) ∧
        (∀ k, k ≠ slot → (t.usr c).tags.find? k = tags.find? k) ∧
        match tags.find? slot with
        | some old => done t (BitVec.ofNat 64 (old.toNat * 1024 + ((slot / 4) ^^^ (old.toNat % 1024)))) stOK (s.cyc + 1)
        | none => done t 0 stEMPTY (s.cyc + 1))) ∧
    (Fit s c lan .tset src → b / 2 ^ 17 ≠ 0 ∨ b / 2 ^ 12 % 16 ≠ 0 → Comes (.tset g e src) s (fun t => (t.usr c).tags = tags ∧ done t 0 stERROR (s.cyc + 1))) ∧
    (Fit s c lan .tset src → b / 2 ^ 17 = 0 → b / 2 ^ 12 % 16 = 0 → b / 2 ^ 16 = 0 → slot / 4 ≠ set a →
      Comes (.tset g e src) s (fun t => (t.usr c).tags = tags ∧ done t 0 stFAIL (s.cyc + 1))) ∧
    (Fit s c lan .bnd src → ∀ q x, s.contOf? c = some q → entry = some x → b < 64 → q.binds.length = 64 → s.conts.find? q.block = some q →
      Comes (.bnd g e src) s (fun t => ((t.conts.find? q.block).map (fun y => nth {} y.binds b)) = some x ∧ done t 0 stOK s.cyc)) ∧
    (Fit s c lan .bnd src → s.contOf? c = none ∨ entry = none ∨ 64 ≤ b → Comes (.bnd g e src) s (fun t => t.conts = s.conts ∧ done t 0 stERROR s.cyc))

/-! ### Accesses are performed (R271 to R279, R314 to R325, R335 to R342, R349 to R359, R365 to R372) -/

/-- R257, R271, R275 to R277: a plain store is performed: every byte that its pieces cover has the value of the store, of two
pieces that cover a byte the later, and no other byte of any memory changes while no region holds a line locked and the
scratchpads that it reaches are awake; the store is no longer on its way. Each piece goes where its page or its window puts it: what
lies in B pages goes to the cache of the core's die and not to memory. -/
def Obligations.StorePerformResults : Prop :=
  ∀ (s : State) (c id : Nat) (m : MemOp),
    s.findOp c id = some m → m.op.isStore = true → m.handle = none → s.ready c m = true →
    (∀ p ∈ m.pieces, p.off + p.len ≤ m.b.bytes.length ∧ s.awakeAt (m.placeOf p)) → s.unlocked → dieOf c < s.dies.length →
    let put (f : Place → Bool) (pa : Nat) : Option Byte :=
      ((m.pieces.filter (fun p => f (m.placeOf p) && decide (p.pa ≤ pa ∧ pa < p.pa + p.len))).getLast?).map (fun p => nth 0 m.b.bytes (p.off + (pa - p.pa)))
    let home (x : Place) : Bool := match x with | .glob .B => false | .glob _ => true | .spad _ => false
    Comes (.storePerform c id) s (fun t => (∀ x ∈ t.mops c m.lan, x.id ≠ id) ∧
      (∀ pa, t.mem.rd pa = (put home pa).getD (s.mem.rd pa)) ∧
      (∀ k o, (t.spad k).rd o = (put (fun x => x == .spad k) o).getD ((s.spad k).rd o)) ∧
      ((∀ p ∈ m.pieces, m.placeOf p = .glob .B) → ∀ pa, t.rdB (dieOf c) pa = (put (fun _ => true) pa).getD (s.rdB (dieOf c) pa)))

/-- R271, R274, R276 to R278: a plain load of one stretch is performed: the little-endian value of its bytes, extended with
zeros or with its sign as its operation says, is on its way to its register, and lands when R271 and the banks (R267) say;
memory is as before. A load whose core has no store under way sees what memory holds. -/
def Obligations.LoadPerformResults : Prop :=
  ∀ (s : State) (c id r pa : Nat) (m : MemOp),
    s.findOp c id = some m → m.op.isLoad = true → m.handle = none → s.ready c m = true → m.place ≠ .glob .B → s.awakeAt m.place → m.reg = some r →
    let n := if isVReg r = true then 256 else match m.op with | .ldB | .ldsB => 1 | .ldH | .ldsH => 2 | .ldW | .ldsW => 4 | _ => 8
    m.pieces = [{ off := 0, pa := pa, len := n }] → (∀ x ∈ s.ownStores c, x.op.isStore = false) → s.unlocked →
    let v := s.numOf m.place pa n
    let signed := m.op = .ldsB ∨ m.op = .ldsH ∨ m.op = .ldsW
    Comes (.loadPerform c id) s (fun t => (∀ x ∈ t.mops c m.lan, x.id ≠ id) ∧ s.writesOnly t m.place (fun _ => False) ∧
      Sent t c m.lan id r (if isVReg r = true then .vec (BitVec.ofNat 2048 v)
        else if signed ∧ 2 ^ (8 * n - 1) ≤ v then .sc (BitVec.ofInt 64 ((v : Int) - 2 ^ (8 * n))) else .sc (BitVec.ofNat 64 v)) stOK (m.lands c s.cyc + s.bankWait m))

/-- R257, R272, R277: an indexed load delivers in each lane the four bytes that its piece found, in its page or its member's
scratchpad, and 0 in a lane without one; a load sees the value of an earlier plain store of its own core, of either side or in
its open segment, to its byte that is not yet performed. -/
def Obligations.GatherAndForwardResults : Prop :=
  ∀ (s : State) (c id r : Nat) (m : MemOp),
    s.findOp c id = some m → m.op.isLoad = true → m.handle = none → s.ready c m = true → m.place ≠ .glob .B →
    (∀ p ∈ m.pieces, m.placeOf p ≠ .glob .B ∧ s.awakeAt (m.placeOf p)) → m.reg = some r → isVReg r = true → s.unlocked →
    Comes (.loadPerform c id) s (fun t => ∃ w : VReg, Sent t c m.lan id r (.vec w) stOK (m.lands c s.cyc + s.bankWait m) ∧
      ∀ i, i < 256 → (w.toNat / 2 ^ (8 * i) % 256 = (match m.pieces.find? (fun p => decide (p.off ≤ i ∧ i < p.off + p.len)) with
        | some p => ((ownByte (s.ownStores c) m.id none (m.placeOf p) (p.pa + (i - p.off))).getD
            (s.byteOf (m.placeOf p) (p.pa + (i - p.off)))).toNat
        | none => 0)))

/-- R344, R349 to R351: an atomic is one access: it delivers the old value with its status, and memory holds what its
operation makes of it.
R389, R397: an atomic in a reduction window of its continuation is one message of the window's job, a contribution, and delivers 0 with
status OK. -/
def Obligations.AtomicPerformResults : Prop :=
  ∀ (s : State) (c id r : Nat) (m : MemOp),
    s.findOp c id = some m → m.op.isAtomic = true → m.handle = none → s.ready c m = true → m.place ≠ .glob .B → s.awakeAt m.place → m.reg = some r → s.unlocked →
    let win := match m.place with | .glob _ => s.windowOf (s.blockOf c) m.va.toNat | .spad _ => none
    let w := if ctlW32 m.ctl = true then 4 else 8
    let old := s.numOf m.place m.pa w
    let b := m.b.word.toNat % 2 ^ (8 * w)
    let lim := s.numOf m.place (m.pa + w) w
    let sg (n : Nat) : Int := if 2 ^ (8 * w - 1) ≤ n then (n : Int) - 2 ^ (8 * w) else n
    let amo : Nat := match ctlAop m.ctl with
      | 0 => (old + b) % 2 ^ (8 * w) | 1 => old &&& b | 2 => old ||| b | 3 => old ^^^ b
      | 4 => if sg b < sg old then b else old | 5 => if sg old < sg b then b else old | 6 => min old b | 7 => max old b | _ => b
    let res : Nat × Nat × Status := match m.op with
      | .amo => (amo, old, stOK)
      | .cas => if old = m.exp.toNat % 2 ^ (8 * w) then (b, old, stOK) else (old, old, stFAIL)
      | .qincb => if old < b then (old + 1, old, stOK) else (old, old, stFULL)
      | .qincw => if b = 0 then (old, old, stERROR) else ((old + 1) % b, old, stOK)
      | .qdecp => if old = 0 then (0, 0, stEMPTY) else (old - 1, old, stOK)
      | _ => if old + b ≤ lim then (old + b, old, stOK) else (old, old, stFAIL)
    let due := m.lands c s.cyc + s.bankWait m
    (win = none → Comes (.loadPerform c id) s (fun t => t.numOf m.place m.pa w = res.1 % 2 ^ (8 * w) ∧
      s.writesOnly t m.place (fun pa => m.pa ≤ pa ∧ pa < m.pa + w) ∧ Sent t c m.lan id r (.sc (BitVec.ofNat 64 res.2.1)) res.2.2 due)) ∧
    ∀ k x, win = some (k, x) → Comes (.loadPerform c id) s (fun t => s.writesOnly t m.place (fun _ => False) ∧ Sent t c m.lan id r (.sc 0) stOK due ∧
      (∀ j, s.fab.jobs.find? (rwJob x) = some j → (t.fab.jobs.find? (rwJob x)).map Job.inj = some (j.inj + 1)) ∧
      ∃ y ∈ t.fab.msgs, y.src = s.plan.pkg ∧ y.job = rwJob x ∧ y.key = s.plan.pkg * 2 ^ 11 + c ∧ y.kind = .amoWin m.va.toNat m.b.word)

/-- R335, R337, R352 to R354: CTRADD adds to its counter, saturating with status OVERFLOW, and delivers the old value;
CTRWAIT delivers the value at once if it has reached the threshold and parks otherwise; CTRRD delivers it. -/
def Obligations.CounterPerformResults : Prop :=
  ∀ (s : State) (c id r : Nat) (a : Attr) (m : MemOp),
    s.findOp c id = some m → m.handle = none → s.ready c m = true → m.place = .glob a → m.reg = some r → s.unlocked →
    (ctlOrd m.ctl = 0 ∨ ctlScope m.ctl < 3) →
    let due := m.lands c s.cyc + s.bankWait m
    let v := s.mem.num m.pa 8
    let b := m.b.word.toNat
    (m.op = .ctradd → Comes (.loadPerform c id) s (fun t => t.mem.num m.pa 8 = min (v + b) (2 ^ 64 - 1) ∧
      s.writesOnly t m.place (fun pa => m.pa ≤ pa ∧ pa < m.pa + 8) ∧ (Place.glob .K, m.pa) ∈ t.touched ∧
      Sent t c m.lan id r (.sc (BitVec.ofNat 64 v)) (if v + b < 2 ^ 64 then stOK else stOVERFLOW) due)) ∧
    (m.op = .ctrrd → Comes (.loadPerform c id) s (fun t => s.writesOnly t m.place (fun _ => False) ∧ Sent t c m.lan id r (.sc (BitVec.ofNat 64 v)) stOK due)) ∧
    (m.op = .ctrwait → b ≤ v → Comes (.loadPerform c id) s (fun t => Sent t c m.lan id r (.sc (BitVec.ofNat 64 v)) stOK due)) ∧
    (m.op = .ctrwait → v < b → homeDie m.pa < s.dies.length → (s.die (homeDie m.pa)).park.length < 1024 →
      Comes (.loadPerform c id) s (fun t => (∀ x ∈ t.mops c m.lan, x.id ≠ id) ∧
        ∃ p ∈ (t.die (homeDie m.pa)).park, p.core = c ∧ p.id = id ∧ p.reg = r ∧ p.pa = m.pa ∧ p.kind = .ctr b ∧
          p.limit = (if fld m.exp.toNat 0 40 = 0 then none else some (m.issue + fld m.exp.toNat 0 40)) ∧ p.tbit = m.exp.getLsbD 63))

/-- R340 to R342, R355 to R358: a barrier operation at its scratchpad's bank: BARINIT sets COUNT 0 and the word of its image;
BARV adds its arrivals and delivers the new COUNT, or counts an overrun; BARW delivers at once when its phase has passed, and
parks otherwise. The bank serves one operation in a cycle. -/
def Obligations.BarrierBankResults : Prop :=
  ∀ (s : State) (c k r : Nat) (m : MemOp),
    s.bankNext k = some (c, m) → m.place = .spad k → m.handle = none → m.arv = false → m.reg = some r → s.awakeAt (.spad k) →
    let due := m.lands c s.cyc + s.bankWait m
    let count := (s.spad k).num m.pa 8
    let w1 := (s.spad k).num (m.pa + 8) 8
    let n := w1 % 2 ^ 16
    let b := m.b.word.toNat
    let ovr := w1 / 2 ^ 20 % 2 ^ 12
    let bad := barInvalid w1
    let phase := count / n % 16
    let ahead := (phase + 16 - b % 16) % 16
    let once (t : State) : Prop := (t.core k).served = s.cyc + 1 ∧ ∀ x ∈ t.mops c m.lan, x.id ≠ m.id
    (m.op = .barinit → Comes (.barrierBankService k) s (fun t => once t ∧ (t.spad k).num m.pa 8 = 0 ∧ (t.spad k).num (m.pa + 8) 8 = (b - b / 2 ^ 20 % 2 ^ 12 * 2 ^ 20) ∧
      Sent t c m.lan m.id r (.sc 0) stOK due)) ∧
    (m.op = .barv → bad = true → Comes (.barrierBankService k) s (fun t => once t ∧ (t.spad k).num m.pa 8 = count ∧
      Sent t c m.lan m.id r (.sc (BitVec.ofNat 64 count)) stERROR due)) ∧
    (m.op = .barv → bad = false → b ≤ n - count % n → count + b < 2 ^ 64 → Comes (.barrierBankService k) s (fun t => once t ∧ (t.spad k).num m.pa 8 = count + b ∧
      (t.spad k).num (m.pa + 8) 8 = w1 ∧ (Place.spad k, m.pa) ∈ t.touched ∧ Sent t c m.lan m.id r (.sc (BitVec.ofNat 64 (count + b))) stOK due)) ∧
    (m.op = .barv → bad = false → n - count % n < b → Comes (.barrierBankService k) s (fun t => once t ∧ (t.spad k).num m.pa 8 = count ∧
      (t.spad k).num (m.pa + 8) 8 / 2 ^ 20 % 2 ^ 12 = min (ovr + 1) 4095 ∧
      ∃ d ∈ t.delivsOf c m.lan, d.id = m.id ∧ d.reg = r ∧ d.val = .sc (BitVec.ofNat 64 count) ∧ d.tag = stOVERRUN ∧
        d.trap = (if w1 / 2 ^ 32 % 2 = 1 then some cBARRIER_OVERRUN else none))) ∧
    (m.op = .barw → bad = true → Comes (.barrierBankService k) s (fun t => once t ∧ Sent t c m.lan m.id r (.sc (BitVec.ofNat 64 count)) stERROR due)) ∧
    (m.op = .barw → bad = false → 1 ≤ ahead → ahead ≤ 8 → Comes (.barrierBankService k) s (fun t => once t ∧ Sent t c m.lan m.id r (.sc (BitVec.ofNat 64 count)) stOK due)) ∧
    (m.op = .barw → bad = false → ahead = 0 ∨ 8 < ahead → (s.core k).park.length < 64 → Comes (.barrierBankService k) s (fun t => once t ∧
      ∃ p ∈ (t.core k).park, p.core = c ∧ p.id = m.id ∧ p.reg = r ∧ p.pa = m.pa ∧ p.kind = .bar b ∧ p.tbit = m.exp.getLsbD 63))

/-- R338, R339, R353, R357, R359: a parked wait whose limit has passed leaves its table and delivers the value of its location with
status TIMEOUT; with the T bit set its task traps.
R279, R313, R321, R329: a FENCE is performed when nothing of its classes before it on its core, of either side, an array
operation's writes and fabric operations among it, is still to be performed at its scope; its delivery lands at the end of the
cycle. -/
def Obligations.WaitLimitAndFenceResults : Prop :=
  (∀ (s : State) (c id n : Nat) (p : Park),
    (s.dies.flatMap Die.park ++ s.cores.flatMap (fun ((_, w) : Nat × WCore) => w.park)).find? (fun (q : Park) => decide (q.core = c ∧ q.id = id)) = some p →
    p.limit = some n → n ≤ s.cyc →
    Comes (.waitLimitExpiry c id) s (fun t =>
      (match p.place with | .glob _ => ∀ q ∈ (t.die (homeDie p.pa)).park, q.id ≠ id | .spad k => ∀ q ∈ (t.core k).park, q.id ≠ id) ∧
      ∃ d ∈ t.delivsOf c p.lan, d.id = id ∧ d.reg = p.reg ∧ d.val = .sc (BitVec.ofNat 64 (s.numOf p.place p.pa 8)) ∧ d.tag = stTIMEOUT ∧
        d.due = s.cyc + wakeDelay c p.place p.pa - 1 ∧
        d.trap = (if p.tbit = true then some (match p.kind with | .ctr _ => cCOUNTER_TIMEOUT | .bar _ => cBARRIER_TIMEOUT) else none))) ∧
  (∀ (s : State) (c id r : Nat) (m : MemOp),
    s.findOp c id = some m → m.op = .fence → m.handle = none → m.atBank = none → m.reg = some r →
    (∀ x ∈ (s.usr c).mops ++ (s.core c).lan.mops, x.id < m.id → x.op ≠ .fence → x.inClass (fencePred m) = true →
      fenceScope m = 0 ∧ x.op.isStore = true ∧ x.handle = none ∧ x.local' = false) →
    (fencePred m / 2 % 2 = 1 → s.arrayWrites c m.id = false) → (fenceScope m = 5 → s.fabricPending c m.id (fencePred m) = false) →
    Comes (.loadPerform c id) s (fun t => (∀ x ∈ t.mops c m.lan, x.id ≠ id) ∧ Sent t c m.lan id r (.sc 0) stOK s.cyc))


/-- R365 to R367, R370, R372: a member's access that its region survives reaches its directories, those of this package for a
region whose home is another one too: a store's bytes become tentative and memory stays; a load sees the region's tentative
bytes. An access that its region does not survive, or whose region is gone, is discarded, a load then landing 0 with status
ABORTED. -/
def Obligations.RegionAccessResults : Prop :=
  ∀ (s t' : State) (c id : Nat) (ok : Bool) (m : MemOp) (h : Word),
    s.findOp c id = some m → m.handle = some h → s.ready c m = true → s.unlocked → ((s.usr c).member.map Member.handle = some h) → m.place = .glob .C →
    let k := s.slotKey h
    let s1 := s.meetRegion h
    (match s1.region? h with
      | some _ => s1.regionLines k m.op.isStore (m.pieces.flatMap (fun p => linesOf p.pa p.len))
      | none => (false, s1)) = (ok, t') →
    (m.op.isStore = true → ok = true → (∀ p ∈ m.pieces, p.off + p.len ≤ m.b.bytes.length) → Comes (.regionDirectoryAccess c id) s (fun t =>
      (∀ x ∈ t.mops c m.lan, x.id ≠ id) ∧ (∀ pa, t.mem.rd pa = s.mem.rd pa) ∧
      (∀ pa b, m.byteAt (.glob .C) pa = some b → t.regionByte k pa = b))) ∧
    (m.op.isStore = true → ok = false → Comes (.regionDirectoryAccess c id) s (fun t => (∀ x ∈ t.mops c m.lan, x.id ≠ id) ∧ ∀ pa, t.mem.rd pa = s.mem.rd pa)) ∧
    (m.op.isStore = false → ok = true → ∀ r, m.reg = some r → Comes (.regionDirectoryAccess c id) s (fun t => (∀ x ∈ t.mops c m.lan, x.id ≠ id) ∧
      Sent t c m.lan id r (loadVal m.op (isVReg r) (t'.loadBytes c m (if isVReg r = true then 256 else (loadForm m.op).1))) stOK (m.lands c s.cyc + s.bankWait m))) ∧
    (m.op.isStore = false → ok = false → ∀ r, m.reg = some r → Comes (.regionDirectoryAccess c id) s (fun t =>
      Sent t c m.lan id r (if isVReg r = true then .vec 0 else .sc 0) stABORTED (m.lands c s.cyc + s.bankWait m)))

/-! ### Translation, slot tables, scratchpad units, ownership (R164, R256 to R264, R269, R316, R325) -/

/-- R164, R262 to R264, R269, R316: a request that wins its cell is accepted; a page walk that a core waits for puts the
translation into its TLB, or keeps the cause for its bundle; a gated unit wakes and reads zero; a shootdown takes the
translations that it names from every TLB, and is complete when the accesses before it are performed; a die cache writes the
dirty bytes of a line back.
R260, R261: a transfer of a region starts when the other side wants it and its hold time has passed; it ends with the new
owner, towards the processor only after every die cache has written the region's lines back and dropped them; a bundle that has
waited too long finds OWNERSHIP_TIMEOUT. -/
def Obligations.TranslationAndOwnershipEvents : Prop :=
  ((∀ (s : State) (c id : Nat) (a : Asker), (s.askers c).find? (fun (a : Asker) => decide (a.id = id)) = some a → s.winsCell a = true → a.die < s.dies.length →
    Comes (.globalRequestAccept c id) s (fun t => laneOfCore c ∈ (t.die a.die).lanes ∧
      (∀ m ∈ s.allMops c, m.id = id → { m with reqs := m.reqs.drop 1, acc := some s.cyc } ∈ t.allMops c) ∧ ∀ m ∈ s.allMops c, m.id ≠ id → m ∈ t.allMops c)) ∧
  (∀ (s : State) (c : Nat) (va : Word) (store : Bool), (s.core c).walk = some (va, store) →
    let asid := atpAsid (s.atpOf c)
    let held := findTlb (s.die (dieOf c)).tlb asid va.toNat store
    let found := s.walk (some (dieOf c)) (s.atpOf c) va.toNat false store
    (∀ x, held = some x ∨ held = none ∧ found = .ok x → Comes (.pageWalk c) s (fun t => x ∈ (t.core c).tlb ∧ (t.core c).walk = none)) ∧
    (∀ x, held = none → found = .ok x → dieOf c < s.dies.length → Comes (.pageWalk c) s (fun t => x ∈ (t.die (dieOf c)).tlb)) ∧
    (∀ cause line, held = none → found = .fault cause line → Comes (.pageWalk c) s (fun t => (t.core c).walk = none ∧ (t.core c).walkFault = some (cause, va) ∧
      (t.core c).tlb = (s.core c).tlb ∧ (cause = cPTE_UNCORRECTABLE → dieOf c < s.dies.length → line ∈ (t.die (dieOf c)).poison)))) ∧
  (∀ (s : State) (c unit n : Nat), (s.core c).wake = some (unit, n) → unit < 192 →
    let inUnit (o : Nat) : Prop := o / 2 ^ 17 = unit % 6 ∧ bankOf (s.usr c).allocs (o / 16 * 16) = unit / 6
    Comes (.gatedUnitWake c) s (fun t => (t.core c).wake = none ∧ (t.core c).gated.getLsbD unit = false ∧
      (∀ j, j ≠ unit → (t.core c).gated.getLsbD j = (s.core c).gated.getLsbD j) ∧
      (∀ o, inUnit o → (t.spad c).rd o = 0) ∧ ∀ o, ¬ inUnit o → (t.spad c).rd o = (s.spad c).rd o)) ∧
  (∀ (s : State) (v : Word), v.toNat / 2 ^ 20 % 2 ^ 43 = 0 →
    let kind := v.toNat / 2 ^ 18 % 4
    let asid := v.toNat % 2 ^ 16
    (v.getLsbD 63 = true → s.shoot.go = true → Comes (.shootdownGo v) s (fun t => t = s)) ∧
    (v.getLsbD 63 = true → kind ≠ 3 → s.shoot.go = false → Comes (.shootdownGo v) s (fun t => t.shoot.go = true ∧ t.shoot.bar = s.nextOp ∧
      (∀ c, c < 2048 → ∀ x ∈ (t.core c).tlb, x ∈ (s.core c).tlb ∧ x.hit kind asid s.shoot.va.toNat = false) ∧
      ∀ d, d < 4 → ∀ x ∈ (t.die d).tlb, x.hit kind asid s.shoot.va.toNat = false)) ∧
    (v.getLsbD 63 = false → Comes (.shootdownGo v) s (fun t => t.shoot = { s.shoot with ctl := v &&& 0xDFFFF } ∧ t.cores = s.cores ∧ t.dies = s.dies))) ∧
  (∀ s : State, s.shoot.go = true → (∀ d, d < 4 → s.dieSettled d s.shoot.bar = true) → Comes .shootdownComplete s (fun t => t.shoot = { s.shoot with go := false })) ∧
  ∀ (s : State) (d line : Nat) (l : BLine), (s.die d).blines.find? line = some l → d < s.dies.length →
    Comes (.dieCacheWriteback d line) s (fun t => (t.die d).blines.find? line = (if l.here = true then some { l with dirty := 0 } else none) ∧
      (∀ i, i < 128 → l.dirty.getLsbD i = true → t.mem.rd (line * 128 + i) = l.byte i) ∧
      (∀ pa, (pa / 128 ≠ line ∨ l.dirty.getLsbD (pa % 128) = false) → t.mem.rd pa = s.mem.rd pa) ∧ ∀ pa, t.rdB d pa = s.rdB d pa)) ∧
  ((∀ (s : State) (r : Nat), (∀ n, (s.regions.getD r {}).since = some n → n + 2400 ≤ s.cyc) →
    let x := s.regions.getD r {}
    (x.st = .proc → x.wantA = true → Comes (.ownershipTransferStart r) s (fun t => t.regions.getD r {} = { x with st := .toAccel, began := s.cyc })) ∧
    (x.st = .accel → x.wantP = true → Comes (.ownershipTransferStart r) s (fun t => t.regions.getD r {} = { x with st := .toProc, began := s.cyc }))) ∧
  (∀ (s : State) (r : Nat), (s.regions.getD r {}).st = .toAccel → Comes (.ownershipWritebackComplete r) s (fun t =>
    t.regions.getD r {} = { s.regions.getD r {} with st := .accel, since := some s.cyc, wantA := false })) ∧
  (∀ (s : State) (r : Nat), (s.regions.getD r {}).st = .toProc → s.hostq = [] → Comes (.ownershipWritebackComplete r) s (fun t =>
    t.regions.getD r {} = { s.regions.getD r {} with st := .proc, since := some s.cyc, wantP := false } ∧
    ∀ d, d < 4 → ∀ n l, n / 2 ^ 14 = r → (t.die d).blines.find? n ≠ some l)) ∧
  ∀ (s : State) (c n : Nat) (va : Word) (x : TlbEnt), (s.core c).waitFrom = some (n, va) → n + ownLimit < s.cyc → (s.core c).walkFault = none →
    s.coreTlb c va.toNat false = some x → s.owned (x.phys va.toNat) = false →
    Comes (.ownershipTimeout c) s (fun t => (t.core c).walkFault = some (cOWNERSHIP_TIMEOUT, va)))

/-! ### The copy unit and the porters (R284 to R308) -/

/-- R284, R290, R296 to R301: CPSET writes a register of a channel's program; CPGO issues a transfer with the channel's program,
key and next identifier; CPSTAT delivers the lowest unfinished identifier less 1, the newest identifier, or the number
of unfinished transfers; CPABRT ends the unfinished transfers of a channel, or of all, as ABORTED and delivers their number;
CPKEY attaches or detaches a key; CPFENCE delivers once the transfers of its channels have ended, at once if there is none. -/
def Obligations.CopyTriggerResults : Prop :=
  ∀ (s : State) (c : Nat) (lan : Bool) (g : BitVec 3) (e : Bool) (src : BitVec 10),
    Alone s c lan g src →
    let u := (s.ctx c lan).unit 6
    let a := (s.given c lan src).word
    let n := a.toNat
    let b := u.b.word.toNat
    let d := u.d.toNat % 256
    let chans (t : State) : List Chan := (t.usr c).chans
    let others (t : State) (k : Nat) : Prop := ∀ j, j ≠ k → (chans t)[j]? = (chans s)[j]?
    let xs := (s.usr c).xfers
    let keeps (t : State) (m : Bool) : Prop := Keeps s t c lan (fun k => m && k == d)
    (Fit s c lan .cpset src → ∀ ch, (chans s)[b / 16]? = some ch → b % 16 < ch.prog.length → Comes (.cpset g e src) s (fun t => keeps t false ∧ others t (b / 16) ∧
      ∃ ch', (chans t)[b / 16]? = some ch' ∧ ch'.prog[b % 16]? = some a ∧ (∀ j, j ≠ b % 16 → ch'.prog[j]? = ch.prog[j]?) ∧ ch'.next = ch.next ∧ ch'.key = ch.key)) ∧
    (Fit s c lan .cpgo src → ∀ ch, (chans s)[n]? = some ch → Comes (.cpgo g e src) s (fun t => keeps t true ∧ Marked t c lan d ∧ others t n ∧
      (chans t)[n]? = some { ch with next := (ch.next + 1) % 2 ^ 48 } ∧
      ∃ x, (t.usr c).xfers = xs ++ [x] ∧ x.id = ch.next ∧ x.ch = n ∧ x.prog = ch.prog ∧ x.key = ch.key ∧ x.reg = d ∧ x.op = s.nextOp ∧ x.st = .issued ∧ x.pos = 0)) ∧
    (Fit s c lan .cpstat src → ∀ ch, (chans s)[n % 4]? = some ch →
      let of := xs.filter (fun x => decide (x.ch = n % 4))
      let newest := (ch.next + 2 ^ 48 - 1) % 2 ^ 48
      (n / 4 = 0 → of = [] → Comes (.cpstat g e src) s (fun t => keeps t true ∧ Answers t c lan s.nextOp d (BitVec.ofNat 64 newest) stOK s.cyc)) ∧
      (n / 4 = 0 → of ≠ [] → Comes (.cpstat g e src) s (fun t => ∃ x ∈ of, (∀ y ∈ of, x.id ≤ y.id) ∧ Answers t c lan s.nextOp d (BitVec.ofNat 64 (x.id - 1)) stOK s.cyc)) ∧
      (n / 4 = 1 → Comes (.cpstat g e src) s (fun t => Answers t c lan s.nextOp d (BitVec.ofNat 64 newest) stOK s.cyc)) ∧
      (n / 4 = 2 → Comes (.cpstat g e src) s (fun t => Answers t c lan s.nextOp d (BitVec.ofNat 64 of.length) stOK s.cyc)) ∧
      (n / 4 = 3 → Comes (.cpstat g e src) s (fun t => Answers t c lan s.nextOp d 0 stERROR s.cyc))) ∧
    (Fit s c lan .cpabrt src →
      let hit (x : Xfer) : Bool := decide (n / 4 = 1 ∨ x.ch = n % 4)
      ((∀ x ∈ xs, hit x = true → x.ran = false) → Comes (.cpabrt g e src) s (fun t => keeps t true ∧ (t.usr c).xfers = xs.filter (fun x => !hit x) ∧
        (∀ x ∈ xs, hit x = true → Sent t c false x.op x.reg (.sc (BitVec.ofNat 64 x.id)) stABORTED s.cyc) ∧
        Answers t c lan s.nextOp d (BitVec.ofNat 64 (xs.filter hit).length) stOK s.cyc)) ∧
      -- of a completion and an abort of one cycle the completion comes first
      ∀ x, xs.filter hit = [x] → x.ran = true → x.zeroing = false → cpCrypt x.prog = 0 → Comes (.cpabrt g e src) s (fun t => keeps t true ∧
        (t.usr c).xfers = xs.filter (fun x => !hit x) ∧ Sent t c false x.op x.reg (.sc (BitVec.ofNat 64 x.id)) stOK s.cyc ∧
        Answers t c lan s.nextOp d 0 stOK s.cyc)) ∧
    (Fit s c lan .cpkey src → ∀ ch, (chans s)[b % 4]? = some ch → Comes (.cpkey g e src) s (fun t => keeps t false ∧ others t (b % 4) ∧
      (chans t)[b % 4]? = some { ch with key := if b / 4 % 2 = 1 then none else some a })) ∧
    (Fit s c lan .cpfence src →
      let onto := xs.filter (fun x => (n % 16).testBit x.ch)
      (onto = [] → Comes (.cpfence g e src) s (fun t => keeps t true ∧ Answers t c lan s.nextOp d 0 stOK s.cyc)) ∧
      (onto ≠ [] → Comes (.cpfence g e src) s (fun t => keeps t true ∧ Marked t c lan d ∧
        (t.usr c).cpwaits = (s.usr c).cpwaits ++ [{ reg := d, op := s.nextOp, onto := onto.map (fun x => (x.ch, x.id)), succ := n / 16 }]))) ∧
    (Fit s c lan .bussel src → Comes (.bussel g e src) s (fun t => keeps t true ∧ Marked t c lan d ∧ Asked t c lan s.nextOp .bussel d n 0))

/-- R288, R290, R291, R293: a transfer starts when its channel has a free place, what it must follow has ended, it is the first of
its channel to start, and every access before its issue point is performed; when its last block has moved it ends as DONE with
its identifier in its token, writing the authentication tag when it encrypts; when it decrypts and the tag does not match, its
destination is written zero and it ends as ERROR; an element or a data fault pauses it, and its continuation takes the fault. -/
def Obligations.TransferEventResults : Prop :=
  ∀ (s : State) (c ch id : Nat) (x : Xfer),
    (s.usr c).xfers.find? (fun y => decide (y.ch = ch ∧ y.id = id)) = some x →
    let xs := (s.usr c).xfers
    let now (t : State) : Option Xfer := (t.usr c).xfers.find? (fun y => decide (y.ch = ch ∧ y.id = id))
    let tag := match x.key with
      | some h => (gcmTag (roundKeys (s.keyBytes h)) (progW x.prog 14) x.id (x.acc.map BitVec.toNat)).map (BitVec.ofNat 8)
      | none => []
    let ends (t : State) (st : Status) (trap : Option Nat) : Prop := now t = none ∧
      ∃ d ∈ t.delivsOf c false, d.id = x.op ∧ d.reg = x.reg ∧ d.val = .sc (BitVec.ofNat 64 x.id) ∧ d.tag = st ∧ d.due = s.cyc ∧ d.trap = trap
    (x.st = .issued → x.held = false → (xs.filter (fun y => decide (y.ch = ch) && (y.st == .inFlight || y.st == .faulted))).length < 4 →
      (∀ p ∈ x.preds, ∀ y ∈ xs, ¬ (y.ch = p.1 ∧ y.id = p.2)) → (∀ y ∈ xs, y.ch = ch → y.op < x.op → y.st ≠ .issued) →
      s.undone c x.point 3 4 = false →
      Comes (.transferStart c ch id) s (fun t => now t = some { x with st := .inFlight } ∧ t.mem = s.mem)) ∧
    (x.st = .inFlight → cpTotal x.prog ≤ x.pos → x.zeroing = true → Comes (.transferComplete c ch id) s (fun t => ends t stERROR (some cCRYPTO_AUTH_FAIL))) ∧
    (x.st = .inFlight → cpTotal x.prog ≤ x.pos → x.zeroing = false → s.awakeAt (.spad c) →
      (cpCrypt x.prog = 0 → Comes (.transferComplete c ch id) s (fun t => ends t stOK none)) ∧
      (cpCrypt x.prog = 1 → Comes (.transferComplete c ch id) s (fun t => ends t stOK none ∧ (t.spad c).rdN (cpTag x.prog) tag.length = tag)) ∧
      (cpCrypt x.prog = 2 → (s.spad c).rdN (cpTag x.prog) 16 = tag → Comes (.transferComplete c ch id) s (fun t => ends t stOK none)) ∧
      (cpCrypt x.prog = 2 → (s.spad c).rdN (cpTag x.prog) 16 ≠ tag → cpKind x.prog true = 1 → Comes (.transferComplete c ch id) s (fun t =>
        ends t stERROR (some cCRYPTO_AUTH_FAIL) ∧
        ∀ i o, i < cpTotal x.prog → o < cpB x.prog → (t.spad c).rd ((cpAt x.prog true i).toNat + o) = 0))) ∧
    (∀ l, s.launchOf? c = some l → x.st = .inFlight → x.cause ≠ 0 → s.takesFaults l.block →
      let paused (t : State) : Prop := now t = some { x with st := .faulted } ∧
        t.holdsFault l.block (if resolvable x.cause = true then 1 else 2) x.cause x.fault
      (x.cause ≠ cCOPY_FAULT → Comes (.transferElementFault c ch id) s paused) ∧
      (x.cause = cCOPY_FAULT → Comes (.transferDataFault c ch id) s paused))

/-- R308: PSTART starts a porter that is IDLE or in ERROR with every register 0, and delivers BUSY of another; PSIG puts a word
into a porter's mailbox, and owes the token that the porter's PTOK names; PSTAT delivers a porter's state word. -/
def Obligations.PorterTriggerResults : Prop :=
  ∀ (s : State) (c : Nat) (lan : Bool) (g : BitVec 3) (e : Bool) (src : BitVec 10),
    Alone s c lan g src → (s.usr c).porters.length = 2 →
    let u := (s.ctx c lan).unit 6
    let n := (s.given c lan src).word.toNat
    let b := u.b.word.toNat
    let d := u.d.toNat % 256
    let side := n / 2 ^ 16 % 2
    let p (k : Nat) : Porter := s.porter c k
    let rests (t : State) (k : Nat) : Prop := ∀ j, j ≠ k → t.porter c j = s.porter c j
    let free := (p side).st = .idle ∨ (p side).st = .error
    (Fit s c lan .pstart src → free → Comes (.pstart g e src) s (fun t => Marked t c lan d ∧ rests t side ∧
      let y := t.porter c side
      (∀ k, y.rd k = 0) ∧ y.pc = n % 2 ^ 13 ∧ y.gbase = b ∧ y.st = .running ∧ y.token = some (d, s.nextOp) ∧ y.store = (p side).store ∧ y.mbox = (p side).mbox)) ∧
    (Fit s c lan .pstart src → ¬ free → Comes (.pstart g e src) s (fun t => Answers t c lan s.nextOp d 0 stBUSY s.cyc ∧ ∀ k, t.porter c k = s.porter c k)) ∧
    (Fit s c lan .psig src → Comes (.psig g e src) s (fun t => rests t (b % 2) ∧ (t.porter c (b % 2)).mbox = some (BitVec.ofNat 32 n) ∧
      (b / 2 % 2 = 0 → Marked t c lan d ∧ (t.porter c (b % 2)).sigs = (p (b % 2)).sigs ++ [(d, s.nextOp)]) ∧
      (b / 2 % 2 = 1 → Keeps s t c lan (fun _ => false)))) ∧
    (Fit s c lan .pstat src → Comes (.pstat g e src) s (fun t => (∀ k, t.porter c k = s.porter c k) ∧
      Answers t c lan s.nextOp d (BitVec.ofNat 64 ((match (p (n % 2)).st with | .idle => 0 | .running => 1 | .waiting => 2 | .faulted => 3 | .error => 4) +
        (if (p (n % 2)).st = .error then 2 ^ 8 * ((p (n % 2)).cause % 2 ^ 8) else 0) + 2 ^ 16 * (p (n % 2)).blocks.length + 2 ^ 32 * ((p (n % 2)).pc % 2 ^ 13))) stOK s.cyc))

/-- R305, R307: what each instruction of a porter does: PLD and PST hold a block transfer that PORTER_BLOCK_COMPLETE moves, and write
0 to rd; PGATH holds the blocks that its list names, one by one; PLDS loads a word; PCTR adds to a counter and answers its
old value; PWAIT answers a counter that has reached its value, and waits for another; PTOK delivers the token of a PSIG, or
answers 1; PSIGW takes the mailbox, or waits for it and for the scratchpad accesses that its PSIG releases; PFENCE waits for the
outstanding blocks.
R305: a porter executes the published RV32IM over its registers and the scratchpad: ADD, ADDI, LUI, JAL, LW and SW as
that set gives them; a misaligned or absent scratchpad address, EBREAK, and a word of neither table raise their exceptions, and
ECALL ends the program. -/
def Obligations.PorterProgramResults : Prop :=
  (∀ (s : State) (c side : Nat) (rs2 rs1 rd : BitVec 5),
    s.actor = .porter c side → side < (s.usr c).porters.length →
    let p := s.porter c side
    let q := p.rd rs2
    let off := (p.rd rs1).toNat
    let va := p.gbase + off
    let ls := q.toNat % 2 ^ 20
    let len := 16 * (q.toNat / 2 ^ 20 + 1)
    let ok := off % 16 = 0 ∧ ls % 16 = 0 ∧ ls + len ≤ spadTop
    let y (t : State) : Porter := t.porter c side
    let goes (t : State) (v : Nat) : Prop := (y t).pc = p.pc + 4 ∧ (rd ≠ 0 → (y t).rd rd = BitVec.ofNat 32 v) ∧ ∀ r, r ≠ rd → (y t).rd r = p.rd r
    let stays (t : State) : Prop := (y t).pc = p.pc ∧ (∀ r, (y t).rd r = p.rd r) ∧ (y t).st = .waiting
    let raises (t : State) (code : Nat) : Prop := (y t).trap = some code ∧ .event (.porterException c side) ∈ t.agenda
    let list (i : Nat) : Nat := (s.spad c).num (off + 4 * i) 4
    let to' := p.gbase + list (p.sent + 1)
    let lg := ls + p.sent * list 0
    let ctr := s.porterCtr c va
    (ok → p.blocks.length < 16 → Comes (.pld rs2 rs1 rd) s (fun t => goes t 0 ∧ (y t).blocks = p.blocks ++ [{ ga := va, lo := ls, len := len, out := false }]) ∧
      Comes (.pst rs2 rs1 rd) s (fun t => goes t 0 ∧ (y t).blocks = p.blocks ++ [{ ga := va, lo := ls, len := len, out := true }])) ∧
    (ok → 16 ≤ p.blocks.length → Comes (.pld rs2 rs1 rd) s stays ∧ Comes (.pst rs2 rs1 rd) s stays) ∧
    (off % 16 ≠ 0 ∨ ls % 16 ≠ 0 → Comes (.pld rs2 rs1 rd) s (fun t => raises t 4) ∧ Comes (.pst rs2 rs1 rd) s (fun t => raises t 6)) ∧
    (off % 16 = 0 → ls % 16 = 0 → spadTop < ls + len → Comes (.pld rs2 rs1 rd) s (fun t => raises t 5) ∧ Comes (.pst rs2 rs1 rd) s (fun t => raises t 7)) ∧
    (s.awakeAt (.spad c) → off % 4 = 0 → off + 4 * (q.toNat / 2 ^ 20 + 2) ≤ spadTop → 0 < list 0 → list 0 % 16 = 0 → list 0 ≤ 4096 →
      list (p.sent + 1) % 16 = 0 → lg % 16 = 0 → lg + list 0 ≤ spadTop → p.blocks.length < 16 →
      Comes (.pgath rs2 rs1 rd) s (fun t => (y t).blocks = p.blocks ++ [{ ga := to', lo := lg, len := list 0, out := false }] ∧
        (p.sent = q.toNat / 2 ^ 20 → goes t 0 ∧ (y t).sent = 0) ∧
        (p.sent ≠ q.toNat / 2 ^ 20 → (y t).pc = p.pc ∧ (y t).sent = p.sent + 1))) ∧
    (off % 4 = 0 → ∀ ps r, s.porterXlate c va 4 false = .ok ps → p.one = some r → r.reqs = [] →
      Comes (.plds rs1 rd) s (fun t => goes t (ofBytesLE (s.rdPieces c ps)))) ∧
    (off % 4 ≠ 0 → Comes (.plds rs1 rd) s (fun t => raises t 4)) ∧
    (off % 8 = 0 → ∀ pa r, p.one = some r → r.reqs = [] → s.owned pa = true → s.unlocked →
      let v := s.mem.num pa 8
      (p.blocks = [] → ctr true = .inl pa → (∀ d, (s.die d).blines = []) → Comes (.pctr rs2 rs1 rd) s (fun t => goes t v ∧ t.mem.num pa 8 = min (v + q.toNat) (2 ^ 64 - 1) ∧
        (∀ a, (a < pa ∨ pa + 8 ≤ a) → t.mem.rd a = s.mem.rd a) ∧ (Place.glob .K, pa) ∈ t.touched)) ∧
      (ctr false = .inl pa → q.toNat ≤ v → (∀ d, (s.die d).blines = []) → Comes (.pwait rs2 rs1 rd) s (fun t => goes t v ∧ (y t).st = .running)) ∧
      (ctr false = .inl pa → v < q.toNat → Comes (.pwait rs2 rs1 rd) s stays)) ∧
    (let reg := (p.rd rs1).toNat % 256
     (∀ k, p.sigs.find? (fun z => decide (z.1 = reg)) = some (reg, k) → p.blocks = [] →
       Comes (.ptok rs2 rs1 rd) s (fun t => goes t 0 ∧ (∀ z ∈ (y t).sigs, z.2 ≠ k) ∧ Sent t c false k reg (.sc (q.setWidth 64)) stOK s.cyc)) ∧
     ((∀ z ∈ p.sigs, z.1 ≠ reg) → Comes (.ptok rs2 rs1 rd) s (fun t => goes t 1 ∧ t.delivsOf c false = s.delivsOf c false))) ∧
    (∀ w, p.mbox = some w → s.spadBehind c p.sigPt = false → Comes (.psigw rd) s (fun t => goes t w.toNat ∧ (y t).mbox = none)) ∧
    (p.mbox = none ∨ s.spadBehind c p.sigPt = true → Comes (.psigw rd) s stays) ∧
    (p.blocks = [] → Comes (.pfence rd) s (fun t => goes t 0)) ∧
    (p.blocks ≠ [] → Comes (.pfence rd) s stays)) ∧
  (∀ (s : State) (c side : Nat) (w : BitVec 32),
    s.actor = .porter c side → side < (s.usr c).porters.length →
    let p := s.porter c side
    let y (t : State) : Porter := t.porter c side
    let goes (t : State) (to' : Nat) (rd : BitVec 5) (v : BitVec 32) : Prop := (y t).pc = to' ∧ (rd ≠ 0 → (y t).rd rd = v) ∧ ∀ r, r ≠ rd → (y t).rd r = p.rd r
    let raises (t : State) (code : Nat) : Prop := (y t).trap = some code ∧ .event (.porterException c side) ∈ t.agenda
    let run (q : State → Prop) : Prop := Comes (.porterRv32imInstruction w) s q
    (∀ rd rs1 rs2, Rv32.decode w = some (.op 0 false rd rs1 rs2) → run (fun t => goes t (p.pc + 4) rd (p.rd rs1 + p.rd rs2))) ∧
    (∀ rd rs1 imm, Rv32.decode w = some (.opImm 0 false rd rs1 imm) → run (fun t => goes t (p.pc + 4) rd (p.rd rs1 + imm))) ∧
    (∀ rd imm, Rv32.decode w = some (.lui rd imm) → run (fun t => goes t (p.pc + 4) rd imm)) ∧
    (∀ rd off, Rv32.decode w = some (.jal rd off) → (BitVec.ofNat 32 p.pc + off).toNat % 4 = 0 →
      run (fun t => goes t (BitVec.ofNat 32 p.pc + off).toNat rd (BitVec.ofNat 32 (p.pc + 4)))) ∧
    (∀ rd rs1 off, Rv32.decode w = some (.load 2 rd rs1 off) →
      let a := (p.rd rs1 + off).toNat
      (s.awakeAt (.spad c) → a % 4 = 0 → a + 4 ≤ spadTop → run (fun t => goes t (p.pc + 4) rd (BitVec.ofNat 32 ((s.spad c).num a 4)))) ∧
      (spadTop < a + 4 → run (fun t => raises t 5))) ∧
    (∀ rs1 rs2 off, Rv32.decode w = some (.store 2 rs1 rs2 off) →
      let a := (p.rd rs1 + off).toNat
      s.awakeAt (.spad c) → a % 4 = 0 → a + 4 ≤ spadTop → run (fun t => goes t (p.pc + 4) 0 0 ∧ (t.spad c).num a 4 = (p.rd rs2).toNat ∧
        ∀ o, (o < a ∨ a + 4 ≤ o) → (t.spad c).rd o = (s.spad c).rd o)) ∧
    (Rv32.decode w = some .ecall → run (fun t => .event (.porterEcall c side) ∈ t.agenda ∧ y t = p)) ∧
    (Rv32.decode w = some .ebreak → run (fun t => raises t 3)) ∧
    (Rv32.decode w = none → run (fun t => raises t 2)))


/-- R305 to R308: ECALL delivers x10 with status OK to the porter's PSTART; an exception leaves it in ERROR and delivers its code with
status ERROR; a fault pauses it, and its continuation takes the fault; a block whose requests are accepted moves its bytes; a
porter whose wait has ended runs on. -/
def Obligations.PorterEventResults : Prop :=
  ∀ (s : State) (c side : Nat), side < (s.usr c).porters.length →
    let p := s.porter c side
    let y (t : State) : Porter := t.porter c side
    let tells (t : State) (v : Nat) (st : Status) : Prop :=
      ∀ reg id, p.token = some (reg, id) → (y t).token = none ∧ Sent t c false id reg (.sc (BitVec.ofNat 64 v)) st s.cyc
    (p.st = .running → Comes (.porterEcall c side) s (fun t => (y t).st = .idle ∧ tells t (p.rd 10).toNat stOK)) ∧
    (∀ code, p.trap = some code → Comes (.porterException c side) s (fun t => (y t).st = .error ∧ (y t).cause = code ∧ tells t code stERROR)) ∧
    (∀ cause a out l, p.fault = some (cause, a, out) → p.st ≠ .faulted → s.launchOf? c = some l → s.takesFaults l.block →
      Comes (.porterFault c side) s (fun t => (y t).st = .faulted ∧ (y t).fault = p.fault ∧
        t.holdsFault l.block (if resolvable cause = true then 1 else 2) cause a)) ∧
    (∀ b r ps, s.awakeAt (.spad c) → p.st ≠ .faulted → p.fault = none → p.blocks = [b] → b.cells = some r → r.reqs = [] → s.porterXlate c b.ga b.len b.out = .ok ps →
      (b.out = false → s.badPieces ps = false → (s.rdPieces c ps).length = b.len → Comes (.porterBlockComplete c side) s (fun t => (y t).blocks = [] ∧
        (t.spad c).rdN b.lo b.len = s.rdPieces c ps ∧ ∀ o, (o < b.lo ∨ b.lo + b.len ≤ o) → (t.spad c).rd o = (s.spad c).rd o)) ∧
      (b.out = true → Comes (.porterBlockComplete c side) s (fun t => (y t).blocks = [] ∧ (∀ o, (t.spad c).rd o = (s.spad c).rd o) ∧
        t.mem = (s.wrPieces c ps ((s.spad c).rdN b.lo b.len)).mem))) ∧
    (p.st = .waiting → s.porterCanGo c side = true → Comes (.porterWake c side) s (fun t => y t = { p with st := .running }))

/-! ### The fabric and PCI Express (R383 to R407) -/

/-- R402 to R407: MSG, RWR, RAMO and RRED that pass their checks wait for the fabric interface with their operands; WQUIET of a job that
the task's continuation holds waits for a wave that begins after it, and of another delivers ERROR; JOBR delivers the
selected word of such a job. -/
def Obligations.FabricTriggerResults : Prop :=
  ∀ (s : State) (c : Nat) (lan : Bool) (g : BitVec 3) (e : Bool) (src : BitVec 10),
    Alone s c lan g src →
    let u := (s.ctx c lan).unit 6
    let a := (s.given c lan src).word
    let n := a.toNat
    let d := u.d.toNat % 256
    let lim := ((s.ctx c lan).sreg d).v
    let keeps (t : State) : Prop := Keeps s t c lan (fun k => k == d)
    let mine (n : Nat) (j : Job) : Prop := s.fab.jobs.find? n = some j ∧ ∃ q, s.contOf? c = some q ∧ j.holder = q.block
    let sends (o : Op) (t : State) : Prop := keeps t ∧ Marked t c lan d ∧ t.mem = s.mem ∧
      ∃ q ∈ t.asksOn c lan, q.id = s.nextOp ∧ q.op = o ∧ q.reg = d ∧ q.b = 0 ∧ q.data = [n, u.b.word.toNat, u.c.toNat] ∧ q.since = s.cyc
    let says' (t : State) (v : Word) (st : Status) : Prop := keeps t ∧ Answers t c lan s.nextOp d v st s.cyc
    (Fit s c lan .msg src → Comes (.msg g e src) s (sends .msg)) ∧
    (Fit s c lan .rwr src → Comes (.rwr g e src) s (sends .rwr)) ∧
    (Fit s c lan .ramo src → Comes (.ramo g e src) s (sends .ramo)) ∧
    (Fit s c lan .rred src → Comes (.rred g e src) s (sends .rred)) ∧
    (Fit s c lan .wquiet src → ∀ j, mine n j → n < 2 ^ 16 → lim.toNat / 2 ^ 40 % 2 ^ 23 = 0 → Comes (.wquiet g e src) s (fun t => keeps t ∧ Marked t c lan d ∧
      ∃ q ∈ t.asksOn c lan, q.id = s.nextOp ∧ q.op = .wquiet ∧ q.reg = d ∧ q.a = n ∧ q.b = lim.toNat / 2 ^ 63 ∧ q.since = s.cyc ∧
        q.limit = (if lim.toNat % 2 ^ 40 = 0 then none else some (s.cyc + lim.toNat % 2 ^ 40)))) ∧
    (Fit s c lan .wquiet src → (∀ j, ¬ mine n j) ∨ 2 ^ 16 ≤ n ∨ lim.toNat / 2 ^ 40 % 2 ^ 23 ≠ 0 → Comes (.wquiet g e src) s (fun t => says' t 0 stERROR)) ∧
    (Fit s c lan .jobr src → ∀ j, mine (n % 2 ^ 16) j → n / 2 ^ 16 < 7 → Comes (.jobr g e src) s (fun t => says' t
      (match n / 2 ^ 16 with
        | 0 => j.inj
        | 1 => j.cons
        | 2 => j.loss
        | 3 => j.sumI
        | 4 => j.sumC
        | 5 => (match j.st with | .active => 0 | .probing => 1 | .confirming => 2 | .quiet => 3)
        | _ => BitVec.ofNat 64 j.cause) stOK)) ∧
    (Fit s c lan .jobr src → (∀ j, ¬ mine (n % 2 ^ 16) j) ∨ 7 ≤ n / 2 ^ 16 → Comes (.jobr g e src) s (fun t => says' t 0 stERROR))

/-- R384 to R387: a DOWN port trains; a port that trains becomes UP on two lanes, DEGRADED on one and DOWN on none or after 10 ms; an
UP port that loses a lane is DEGRADED, a DEGRADED one DOWN; a port whose resends are exhausted is DOWN; a refused flit is sent
again and RETRY counts the flits of the replay buffer, until 16 resends in a row have failed; a flit with a bad CRC changes
nothing, and a message that has not been received before enters the package once. -/
def Obligations.PortEventResults : Prop :=
  ∀ (s : State) (n lanes : Nat) (words : List Word),
    let p := s.port' n
    let only (t : State) (st : PortSt') : Prop := (t.port' n).st = st ∧ ∀ k, k ≠ n → t.port' k = s.port' k
    let trains := p.st = .training
    let head := (nth 0 words 0).toNat % 16
    (n < 96 → p.st = .down → Comes (.portTrain n) s (fun t => only t .training ∧ (t.port' n).began = s.cyc)) ∧
    (trains → 2 ≤ lanes → Comes (.portTrained n lanes) s (fun t => only t .up)) ∧
    (trains → lanes = 1 → Comes (.portTrained n lanes) s (fun t => only t .degraded)) ∧
    (trains → lanes = 0 → Comes (.portTrained n lanes) s (fun t => only t .down)) ∧
    (trains → p.began + 12000000 ≤ s.cyc → Comes (.portTrainingTimeout n) s (fun t => only t .down)) ∧
    (p.st = .up → Comes (.laneLost n) s (fun t => only t .degraded ∧ (t.port' n).replay = p.replay)) ∧
    (p.st = .degraded → Comes (.laneLost n) s (fun t => (t.port' n).st = .down ∧ (t.port' n).peer = 0xFF)) ∧
    (p.st = .up ∨ p.st = .degraded → Comes (.retryExhausted n) s (fun t => (t.port' n).st = .down ∧ (t.port' n).peer = 0xFF)) ∧
    (p.st = .up ∨ p.st = .degraded → head = 14 → p.fails < 16 → Comes (.flitReceive n true words) s (fun t => only t p.st ∧ (t.port' n).replay = p.replay ∧
      (t.port' n).fails = p.fails + 1 ∧
      (t.port' n).retry = min (p.retry + min (p.replay.map (fun m => (32 + m.kind.payload.length + 255) / 256)).sum 64) (2 ^ 32 - 1))) ∧
    (p.st = .up ∨ p.st = .degraded → head = 14 → 16 ≤ p.fails → Comes (.flitReceive n true words) s (fun t => (t.port' n).st = .down ∧ (t.port' n).peer = 0xFF)) ∧
    Comes (.flitReceive n false words) s (fun t => t = s) ∧
    (∀ m, p.st = .up ∨ p.st = .degraded → head ≠ 15 → head ≠ 14 → msgOf words = some (m, false) →
      ((m.src, m.seq) ∉ s.fab.seen → Comes (.flitReceive n true words) s (fun t => (m.src, m.seq) ∈ t.fab.seen ∧
        t.fab.msgs = s.fab.msgs ++ [{ m with seq := s.fab.nextSeq, dst := s.plan.pkg }] ∧ t.mem = s.mem)) ∧
      ((m.src, m.seq) ∈ s.fab.seen → Comes (.flitReceive n true words) s (fun t => t = s)))

/-- R390, R394, R396, R404, R405: a remote write stores its bytes in 8-byte granules; a remote atomic makes its change at the home,
and the old value of one that fetches goes to its sender; a contribution waits in its window until its element's round is
complete, and a round of one contribution of an i64 window combines its value with the element; an active message puts its
payload into the scratchpad and its handler into the deque of its target. Each message counts as consumed when its effect is
made, a handler's when it has ended, and is gone; one whose job nobody holds any more is lost, and counts so. -/
def Obligations.FabricMessageResults : Prop :=
  ∀ (s : State) (seq : Nat) (m : Msg) (q : Cont) (j : Job),
    s.fab.msgs.find? (fun x => decide (x.seq = seq)) = some m → s.fab.jobs.find? m.job = some j → s.holder m.job = some q →
    let gone (t : State) : Prop := ∀ x ∈ t.fab.msgs, x.seq ≠ seq
    let consumed (t : State) (k : Nat) : Prop := t.fab.jobs.find? m.job = some { j with cons := j.cons + BitVec.ofNat 64 k }
    let others (t : State) (pa n : Nat) : Prop := ∀ a, (a < pa ∨ pa + n ≤ a) → t.mem.rd a = s.mem.rd a
    (∀ va data (f : Nat → Nat), m.kind = .rwr va data → m.held = false → s.behind m = false → s.unlocked → data.length % 8 = 0 →
      let n := data.length / 8
      (∀ i, i < n → ∃ e, s.jobPhys m.job (va + 8 * i) true = .inl e ∧ e.attr ≠ .K ∧ e.phys (va + 8 * i) = f i) →
      (∀ i k, i < n → k < n → i ≠ k → f i + 8 ≤ f k ∨ f k + 8 ≤ f i) →
      Comes (.rwrArrival seq) s (fun t => gone t ∧ consumed t 1 ∧ (∀ i, i < n → t.mem.rdN (f i) 8 = (data.drop (8 * i)).take 8) ∧
        ∀ pa, (∀ i, i < n → pa < f i ∨ f i + 8 ≤ pa) → t.mem.rd pa = s.mem.rd pa)) ∧
    (∀ va aop w32 b e fetch, m.kind = .ramo va aop w32 b fetch → m.held = false → s.behind m = false → s.unlocked →
      s.jobPhys m.job va true = .inl e → e.attr = .C ∨ e.attr = .L →
      let w := if w32 = true then 4 else 8
      let pa := e.phys va
      Comes (.ramoArrival seq) s (fun t => gone t ∧ consumed t 1 ∧
        t.mem.num pa w = amoNew aop w (s.mem.num pa w) (b.toNat % 2 ^ (8 * w)) % 2 ^ (8 * w) ∧ others t pa w ∧
        (fetch = true → m.src = s.plan.pkg → ∀ c id reg, m.reply = some (c, id, reg) →
          .event (.ramoReply c id (BitVec.ofNat 64 (s.mem.num pa w)) false) ∈ t.agenda) ∧
        (fetch = true → m.src ≠ s.plan.pkg → ∀ n, s.route = some n → ∃ y ∈ (t.port' n).replay, y.dst = m.src ∧
          y.kind = .answer m.ref (BitVec.ofNat 64 (s.mem.num pa w)) false))) ∧
    (∀ va v k w, m.kind = .rred va v ∨ m.kind = .amoWin va v → m.held = false → s.behind m = false →
      s.windowOf (some j.holder) va = some (k, w) → s.fab.wins.find? k = some w →
      let elem := (va - rwBase w) / rwWidth w
      let wait := w.got.filter (fun x => decide (x.elem = elem))
      (wait.length + 1 < rwExpect w → Comes (.reductionContribution seq) s (fun t => gone t ∧ consumed t 0 ∧ (∀ pa, t.mem.rd pa = s.mem.rd pa) ∧
        (t.fab.wins.find? k).map RWin.got = some (w.got ++ [{ elem := elem, key := m.key, val := BitVec.ofNat 64 (v.toNat % 2 ^ (8 * rwWidth w))
                                                              job := m.job, src := m.src, op := m.op }]))) ∧
      (∀ e, rwExpect w = 1 → wait = [] → rwType w = 0 → s.jobPhys (rwJob w) (rwBase w + elem * 8) true = .inl e → e.attr = .C ∨ e.attr = .L → s.unlocked →
        let pa := e.phys (rwBase w + elem * 8)
        let old := s.mem.num pa 8
        let sg (n : Nat) : Int := (BitVec.ofNat 64 n).toInt
        Comes (.reductionContribution seq) s (fun t => gone t ∧ consumed t 1 ∧ others t pa 8 ∧ (t.fab.wins.find? k).map RWin.got = some w.got ∧
          t.mem.num pa 8 = match rwOp w with
            | 0 => (old + v.toNat) % 2 ^ 64
            | 1 => if sg v.toNat < sg old then v.toNat else old
            | _ => if sg old < sg v.toNat then v.toNat else old))) ∧
    (∀ c tmpl doff data k l r, m.kind = .msg c tmpl doff data → s.jobLaunch m.job c = some (k, l) → l.block = q.block → l.loops[tmpl]? = some r →
      r.valid l.bundles = true → (data = [] ∨ ∃ x ∈ l.allocs, x.shared = true ∧ x.covers doff data.length = true) → s.msgRoom k c = true → s.awakeAt (.spad c) →
      let lands (t : State) : Prop := gone t ∧ consumed t 0 ∧ (t.spad c).rdN doff data.length = data ∧
        (∀ o, (o < doff ∨ doff + data.length ≤ o) → (t.spad c).rd o = (s.spad c).rd o) ∧
        ∃ h, (t.usr c).deque = (s.usr c).deque ++ [h] ∧ h.w0 = r.w0 ∧ h.w1 = r.w1 ∧ h.w2 = r.w2 ∧ h.job = m.job ∧
          h.cv = [BitVec.ofNat 64 doff, BitVec.ofNat 64 data.length, BitVec.ofNat 64 m.key, BitVec.ofNat 64 m.job]
      (m.held = false → Comes (.msgArrival seq) s lands) ∧ (m.held = true → Comes (.heldMessageRetry seq) s lands)) ∧
    ∀ (s' : State), s'.fab.msgs.find? (fun x => decide (x.seq = seq)) = some m → s'.fab.jobs.find? m.job = some j → s'.holder m.job = none → m.kind.fetches = false →
      let lost (t : State) : Prop := (∀ x ∈ t.fab.msgs, x.seq ≠ seq) ∧ t.mem = s'.mem ∧
        t.fab.jobs.find? m.job = some { j with cons := j.cons + 1, loss := j.loss + 1, cause := cMESSAGE_UNDELIVERABLE }
      (∀ va data, m.kind = .rwr va data → Comes (.rwrArrival seq) s' lost) ∧
      (∀ va aop w32 b, m.kind = .ramo va aop w32 b false → Comes (.ramoArrival seq) s' lost) ∧
      (∀ va v, m.kind = .rred va v → Comes (.reductionContribution seq) s' lost) ∧
      (∀ c tmpl doff data, m.kind = .msg c tmpl doff data → m.held = false → Comes (.msgArrival seq) s' lost)

/-- R391, R392, R405, R406: a reply ends the wait of its RAMO; pass 1 of a wave takes the jobs whose sums agree to
CONFIRMING, pass 2 those whose sums are as they were to QUIET; a WQUIET whose limit has passed ends with TIMEOUT. -/
def Obligations.WaveResults : Prop :=
  ∀ (s : State),
    (∀ c c0 id v u q, s.askBy id = some (u, q) → q.op = .ramo → s.coreWaiting id = some c →
      let ends (t : State) : Prop := ∀ x ∈ (t.usr c).asks, x.id ≠ id
      Comes (.ramoReply c0 id v false) s (fun t => ends t ∧ Sent t c false id q.reg (.sc v) stOK s.cyc) ∧
      Comes (.ramoReply c0 id v true) s (fun t => ends t ∧ Sent t c false id q.reg (.sc 0) stDROPPED s.cyc)) ∧
    (s.fab.wave = none → Comes .waveStart s (fun t => t.fab.wave = some (1, s.cyc) ∧
      ∀ n j, s.fab.jobs.find? n = some j → t.fab.jobs.find? n = some { j with st := .probing })) ∧
    (∀ others pass w n j, s.fab.wave = some (pass, w) → s.fab.jobs.find? n = some j → pass = 1 ∨ pass = 2 →
      let i := BitVec.ofNat 64 (passSum others n j).1
      let k := BitVec.ofNat 64 (passSum others n j).2.1
      let now (t : State) (st : JobSt) : Prop := ∃ y, t.fab.jobs.find? n = some y ∧ y.st = st ∧ y.sumI = i ∧ y.sumC = k ∧ y.inj = j.inj ∧ y.cons = j.cons
      (pass = 1 → j.st = .probing → Comes (.wavePassEnd others) s (fun t => t.fab.wave = some (2, w) ∧ now t (if i = k then .confirming else .active))) ∧
      (pass = 2 → j.st = .confirming → Comes (.wavePassEnd others) s (fun t => t.fab.wave = none ∧
        now t (if i = k ∧ i = j.p1I ∧ k = j.p1C then .quiet else .active))) ∧
      (j.st = .active → Comes (.wavePassEnd others) s (fun t => now t .active))) ∧
    (∀ c q n, q ∈ (s.usr c).asks → q.op = .wquiet → q.limit = some n → n ≤ s.cyc → Comes (.wquietTimeout c) s (fun t => (∀ x ∈ (t.usr c).asks, x.id ≠ q.id) ∧
      ∃ d ∈ t.delivsOf c false, d.id = q.id ∧ d.reg = q.reg ∧ d.val = .sc 0 ∧ d.tag = stTIMEOUT ∧ d.due = s.cyc ∧
        d.trap = (if q.b = 1 then some cQUIET_TIMEOUT else none)))

/-- R395, R398 to R401: the descriptor of a window takes its word 0; turning it on, while EN reads 0, with fields in range and no
overlap starts its installation, at whose end it takes contributions; a landing window keeps its words and is enabled only over
memory of its partition; a peer's write or read reaches the bytes of its window and nothing else, and one outside it or to a
disabled window is an Unsupported Request, as is a doorbell write of another form; a doorbell adds to its
counter; a reset of the function closes its windows; a link is trained, contained, and released. -/
def Obligations.LandingResults : Prop :=
  ∀ (s : State),
    (∀ w v, Comes (.reductionWindowWrite w 0 v) s (fun t => t.rwin w = { s.rwin w with w0 := v &&& 0x00FFFFFFFFFFFFF8 })) ∧
    (∀ w v, (s.rwin w).en = true → v.getLsbD 0 = true → Comes (.reductionWindowWrite w 8 v) s (fun t => t = s)) ∧
    (∀ w v, (s.rwin w).en = false → v.getLsbD 0 = true →
      let y := { s.rwin w with w1 := v }
      y.ok = true → (w < 64 → (s.fab.jobs.find? (rwJob y)).isSome = true) →
      (∀ z ∈ s.fab.wins, z.1 ≠ w → z.1 / 64 = w / 64 → z.2.en = true ∨ z.2.installing = true → z.2.overlaps y = false) →
      Comes (.reductionWindowWrite w 8 v) s (fun t => t.rwin w = { y with installing := true, got := [] })) ∧
    (∀ w, (s.rwin w).installing = true → Comes (.windowInstalled w) s (fun t => t.rwin w = { s.rwin w with installing := false, en := true })) ∧
    (∀ p w v, p < 16 → w < 16 → 16 ≤ v.toNat % 64 → v.toNat % 64 ≤ 36 →
      Comes (.landingWindowWrite p w 0 v) s (fun t => (t.lwin p w).base = v.toNat / 2 ^ 16 % 2 ^ 40 * 2 ^ 16 ∧ (t.lwin p w).slog = v.toNat % 64 ∧ (t.lwin p w).w1 = (s.lwin p w).w1)) ∧
    (∀ p w v, p < 16 → w < 16 →
      let x := s.lwin p w
      let dbell := v.toNat / 8 % 2 ^ 53 * 8
      (v.getLsbD 0 = true → x.base % 2 ^ x.slog = 0 → s.granted p x.base (2 ^ x.slog) = true → s.granted p dbell 8 = true →
        Comes (.landingWindowWrite p w 8 v) s (fun t => (t.lwin p w).en = true ∧ (t.lwin p w).dbell = dbell ∧ (t.lwin p w).w0 = x.w0)) ∧
      (v.getLsbD 0 = true → s.granted p x.base (2 ^ x.slog) = false → Comes (.landingWindowWrite p w 8 v) s (fun t => t = s)) ∧
      (v.getLsbD 0 = false → Comes (.landingWindowWrite p w 8 v) s (fun t => (t.lwin p w).en = false))) ∧
    (∀ port fn w off bytes, (s.pcie port).up = true → (s.pcie port).dpc = false → fn < 16 → w < 16 → (s.part fn).closed = false →
      let refused (t : State) : Prop := t.mem = s.mem ∧ (t.pcie port).aer = true
      ((s.lwin fn w).en = false ∨ 2 ^ (s.lwin fn w).slog < off + bytes.length → Comes (.pciePeerWrite port fn w off bytes) s refused) ∧
      (bytes.length ≠ 8 ∨ off % 8 ≠ 0 → Comes (.pcieDoorbellWrite port fn off bytes) s refused)) ∧
    (∀ port fn w off bytes n, (s.pcie port).up = true → (s.pcie port).dpc = false → fn < 16 → w < 16 → (s.lwin fn w).en = true →
      let x := s.lwin fn w
      ((s.part fn).closed = false → off + bytes.length ≤ 2 ^ x.slog → s.unlocked → Comes (.pciePeerWrite port fn w off bytes) s (fun t =>
        t.mem.rdN (x.base + off) bytes.length = bytes ∧ ∀ a, (a < x.base + off ∨ x.base + off + bytes.length ≤ a) → t.mem.rd a = s.mem.rd a)) ∧
      ((s.part fn).closed = true → Comes (.pciePeerWrite port fn w off bytes) s (fun t => t = s)) ∧
      (off + n ≤ 2 ^ x.slog → Comes (.pcieWindowRead port fn w off n) s (fun t => t.answers = s.answers ++ [(port, s.mem.rdN (x.base + off) n)] ∧ t.mem = s.mem)) ∧
      (bytes.length = 8 → (s.part fn).closed = false → s.unlocked → Comes (.pcieDoorbellWrite port fn (8 * w) bytes) s (fun t =>
        t.mem.num x.dbell 8 = min (s.mem.num x.dbell 8 + ofBytesLE bytes) (2 ^ 64 - 1) ∧ (Place.glob .K, x.dbell) ∈ t.touched ∧
        ∀ a, (a < x.dbell ∨ x.dbell + 8 ≤ a) → t.mem.rd a = s.mem.rd a)) ∧
      Comes (.pcieDoorbellRead port fn w) s (fun t => t.answers = s.answers ++ [(port, s.mem.rdN x.dbell 8)] ∧ t.mem = s.mem) ∧
      (s.parts.length = 16 → Comes (.pcieFlr port fn) s (fun t => (t.part fn).closed = true))) ∧
    ∀ port, port < 4 → Comes (.pcieLinkTraining port) s (fun t => (t.pcie port).up = true ∧ (t.pcie port).dpc = (s.pcie port).dpc) ∧
      Comes (.pcieDpcContainment port) s (fun t => (t.pcie port).dpc = true) ∧ Comes (.pcieDpcRelease port) s (fun t => (t.pcie port).dpc = false)

/-! ### The matrix unit (R226 to R250) -/

/-- R69 to R71, R226 to R247: an array operation that passes its checks enters the array of the core's pair, with the accumulators and
the scratchpad bytes that are complete at the end of its last cycle: zeros, loaded elements, converted and stored elements,
sums, the transpose, scaled elements, and products of the rows of two tensors.
R233, R241: the next product of an MSEQ enters the array when it fits; an operation whose last cycle is over, and whose writes to
the scratchpad no earlier FENCE or acquire holds, leaves its accumulators and bytes in the core, and the array free; after the
last product its MSEQ has retired. R246: a mismatch that MCHK found traps SDC_MISMATCH then, or fails the open segment. -/
def Obligations.ArrayResults : Prop :=
  (∀ (s : State) (c : Nat) (lan : Bool) (g : BitVec 3) (e : Bool) (src : BitVec 10),
    Alone s c lan g src → (s.usr c).accs.length = 8 →
    let u := (s.ctx c lan).unit 5
    let n := (s.given c lan src).word.toNat
    let b := u.b.word.toNat
    let ctl := u.c.toNat
    let k := ctl % 8
    let k2 := ctl / 2 ^ 9 % 8
    let accs := (s.usr c).accs
    let el (x : Acc) (i : Nat) : Nat := x.bits.toNat / 2 ^ (32 * i) % 2 ^ 32
    let at' (l : List Acc) (j : Nat) : Acc := nth {} l j
    let v (wide : Bool) (l : List Acc) (j i : Nat) : Nat := el (at' l j) i + (if wide = true then 2 ^ 32 * el (at' l (j + 1)) i else 0)
    let tag := (at' accs k).tag
    let wide := tag.wide
    let wtag : AccTag := if wide = true then .f64l else tag
    let pitch (w : Nat) : Nat := if b % 2 ^ 16 = 0 then 4 * w else b % 2 ^ 16
    let gv := ((s.ctx c lan).vreg (u.g.toNat % 256)).v
    let starts (o : Op) (occ : Nat) (t : State) (p : ArrOp → Prop) : Prop := t.mem = s.mem ∧ (t.usr c).accs = accs ∧ (∀ i, (t.spad c).rd i = (s.spad c).rd i) ∧
      ∃ r, (t.pair (pairOf c)).run = some r ∧ r.core = c ∧ r.op = o ∧ r.id = s.nextOp ∧ r.endc = s.cyc + occ - 1 ∧ p r
    let puts (r : ArrOp) (a w x : Nat) : Prop := ∀ j, j < w / 8 → (a + j, BitVec.ofNat 8 (x / 256 ^ j)) ∈ r.bytes
    let num (o w : Nat) : Nat := s.spadNum (s.trigger c lan .mldc src) o w
    let rest (r : ArrOp) (w : Bool) : Prop := ∀ j, j < 8 → j ≠ k → (w = true → j ≠ k + 1) → at' r.accs j = at' accs j
    let named (j : Nat) : Bool := n.testBit j || (n / 2 ^ 8 % 4 == 2 && n.testBit (if j % 2 = 0 then j + 1 else j - 1))
    (Fit s c lan .mzero src → Comes (.mzero g e src) s (fun t => starts .mzero 1 t (fun r => ∀ j, j < 8 →
      if named j = true then (at' r.accs j).bits = 0 ∧ (at' r.accs j).tag = (match n / 2 ^ 8 % 4 with | 0 => .f32 | 1 => .i32 | _ => if j % 2 = 0 then .f64l else .f64h)
      else at' r.accs j = at' accs j))) ∧
    (Fit s c lan .mldc src → ∀ f w, mldcTag (ctl / 2 ^ 4 % 16) = some (f, w) → Comes (.mldc g e src) s (fun t => starts .mldc (w / 4) t (fun r =>
      (at' r.accs k).tag = f ∧ rest r f.wide ∧ ∀ i, i < 1024 → v f.wide r.accs k i = num (n + i / 32 * pitch w + i % 32 * (w / 8)) (w / 8)))) ∧
    (Fit s c lan .mstc src → ∀ w, mstcWidth wtag (ctl / 2 ^ 4 % 16) = some w → Comes (.mstc g e src) s (fun t => starts .mstc (w / 4) t (fun r =>
      ∀ i, i < 1024 → puts r (n + i / 32 * pitch w + i % 32 * w / 8) w (mstcElem wtag (ctl / 2 ^ 4 % 16) (v wide accs k i)).1))) ∧
    (Fit s c lan .mcvt src → let d := s.tid c (n % 64); Comes (.mcvt g e src) s (fun t => starts .mcvt (moveOcc (128 * d.fmt.width)) t (fun r =>
      ∀ i, i < 1024 → puts r (d.byteOf (n / 2 ^ 16 % 2 ^ 12 + i / 32) (n / 2 ^ 32 % 2 ^ 16 + i % 32)) d.fmt.width (mcvtElem wtag d.fmt (v wide accs k i)).1))) ∧
    (Fit s c lan .macc src → Comes (.macc g e src) s (fun t => starts .macc (if wide = true then 16 else 8) t (fun r => rest r wide ∧ (at' r.accs k).tag = tag ∧
      ∀ i, i < 1024 → v wide r.accs k i = (maccElem wtag (v wide accs k i) (v wide accs k2 i)).1))) ∧
    (Fit s c lan .mtrn src → Comes (.mtrn g e src) s (fun t => starts .mtrn (if wide = true then 16 else 8) t (fun r => rest r wide ∧
      ∀ i, i < 1024 → v wide r.accs k i = v wide accs k (i % 32 * 32 + i / 32)))) ∧
    (Fit s c lan .mscale src → Comes (.mscale g e src) s (fun t => starts .mscale (if wide = true then 16 else 8) t (fun r => rest r wide ∧
      ∀ i, i < 1024 → v wide r.accs k i = (if u.g.toNat % 256 = 0 then mscaleElem wtag (if wide = true then n else n % 2 ^ 32) (v wide accs k i)
        else mscaleVElem (v wide accs k i) (lane gv (i / 32)) (lane gv (32 + i % 32))).1))) ∧
    (∀ o, o = .mma ∨ o = .mmag → Fit s c lan o src → let a := s.tid c (n % 64); let y := s.tid c (b % 64)
      ∀ p, tidPairing a y = some p →
      let rd := s.ownSpad c s.nextOp
      let row (i : Nat) : Nat := if o = .mmag then lane gv i else n / 2 ^ 16 % 2 ^ 12 + i
      let rebuild := a.fmt = .cb4 ∧ (s.usr c).ptKey ≠ some (n % 64, a.cbgen.toNat, b % 64, y.cbgen.toNat)
      let w := p.tag.wide
      Comes (Instr.ofOp o g e src) s (fun t => starts o (p.occ + if rebuild then 8 else 0) t (fun r => rest r w ∧ (at' r.accs k).tag = p.tag ∧ ∀ i, i < 1024 →
        v w r.accs k i = (mmaElem p (a.fmt == .cb4) (if ctl.testBit 3 = true then 0 else v w accs k i)
          (a.vec rd (row (i / 32)) (n / 2 ^ 32 % 2 ^ 16) p.k) (y.vec rd (b / 2 ^ 16 % 2 ^ 12 + i % 32) (n / 2 ^ 32 % 2 ^ 16) p.k)).1)))) ∧
  ((∀ (s : State) (c : Nat) (q : Mseq), (s.usr c).mseq = some q → (s.usr c).goes = true →
    s.arrayFits c (s.prodOcc c (q.a.toNat % 64) (q.b.toNat % 64) q.ta q.tb) = true →
    Comes (.mseqStepStart c) s (fun t => (t.usr c).mseq = some { q with next := q.next + 1 } ∧
      ∃ r, (t.pair (pairOf c)).run = some r ∧ r.core = c ∧ r.op = .mseq ∧ r.id = q.id ∧
        r.endc = s.cyc + s.prodOcc c (q.a.toNat % 64) (q.b.toNat % 64) q.ta q.tb - 1)) ∧
  ∀ (s : State) (p : Nat) (r : ArrOp), (s.pair p).run = some r → r.endc ≤ s.cyc →
    (r.bytes = [] ∨ s.arrayKept r.core r.id = false) → s.awakeAt (.spad r.core) = true →
    (r.bad = none → Comes (.arrayOpComplete p) s (fun t => (t.pair p).run = none ∧ (t.usr r.core).accs = r.accs ∧ t.mem = s.mem ∧
      (∀ o, (∀ x ∈ r.bytes, x.1 ≠ o) → (t.spad r.core).rd o = (s.spad r.core).rd o) ∧
      (∀ q, (s.usr r.core).mseq = some q → r.op = .mseq → q.steps ≤ q.next → (t.usr r.core).mseq = none))) ∧
    (∀ k pc, r.bad = some (k, pc) → r.lan = false → (s.usr r.core).inSeg = false → (s.usr r.core).after = [] →
      Comes (.arrayOpComplete p) s (fun t => (t.pair p).run = none ∧ (t.usr r.core).accs = r.accs ∧
        ∃ x ∈ (t.usr r.core).after, x.cause = cSDC_MISMATCH ∧ x.slot = k ∧ x.pc = pc ∧ x.after = true)) ∧
    (∀ k pc, r.bad = some (k, pc) → r.lan = false → (s.usr r.core).inSeg = true →
      Comes (.arrayOpComplete p) s (fun t => (t.pair p).run = none ∧ (t.usr r.core).accs = r.accs ∧ (t.usr r.core).seg.fail = true)) ∧
    (∀ k pc, r.bad = some (k, pc) → r.lan = true → Comes (.arrayOpComplete p) s (fun t => t.mod.booted = false)))

/-- R235, R237, R241, R246 to R249: MCHK compares an element's row of sums with its check row; MSTAT delivers the flags and tags of the
accumulators, and clears the flags where its operand says so; TIDW writes a word of an identifier or clears it, and TIDR reads
one; CBLD loads a codebook of 16 finite entries; MWIN delivers the window; MSEQ waits to send its products. -/
def Obligations.MatrixUnitResults : Prop :=
  ∀ (s : State) (c : Nat) (lan : Bool) (g : BitVec 3) (e : Bool) (src : BitVec 10),
    Alone s c lan g src → (s.usr c).accs.length = 8 →
    let u := (s.ctx c lan).unit 5
    let n := (s.given c lan src).word.toNat
    let b := u.b.word.toNat
    let accs := (s.usr c).accs
    let x := nth {} accs (u.c.toNat % 8)
    let wtag : AccTag := if x.tag.wide = true then .f64l else x.tag
    let sums := BitVec.ofNat 2048 (packGo (if wtag.wide = true then 64 else 32) (rowOf ((s.accSet c (u.c.toNat % 8)).vals wtag) x.ckNo))
    let runs (t : State) (o : Op) (occ : Nat) (p : ArrOp → Prop) : Prop :=
      ∃ r, (t.pair (pairOf c)).run = some r ∧ r.core = c ∧ r.op = o ∧ r.endc = s.cyc + occ - 1 ∧ p r
    let says' (t : State) (lat : Nat) (w : Word) : Prop := Delivers t c lan 5 0 lat (.sc w)
    let y := s.tid c (n % 64)
    let others (t : State) (k : Nat) : Prop := ∀ j, j ≠ k → t.tid c j = s.tid c j
    let keeps (t : State) : Prop := Keeps s t c lan (fun _ => false)
    (Fit s c lan .mchk src →
      (x.ckValid = false → Comes (.mchk g e src) s (fun t => runs t .mchk 2 (fun r => r.accs = accs ∧ r.bad = none) ∧ says' t 2 0)) ∧
      (x.ckValid = true → sums = x.ckRow → Comes (.mchk g e src) s (fun t => runs t .mchk 2 (fun r => r.accs = accs ∧ r.bad = none) ∧ says' t 2 1)) ∧
      (x.ckValid = true → sums ≠ x.ckRow → Comes (.mchk g e src) s (fun t => runs t .mchk 2 (fun r => r.accs = accs ∧ r.bad = some (5, (s.ctx c lan).pc) ∧ r.lan = lan)))) ∧
    (Fit s c lan .mstat src → Comes (.mstat g e src) s (fun t =>
      (runs t .mstat 1 (fun r => r.accs = if n % 2 = 1 then accs.map (fun a => { a with nan := false, ov := false, sat := false }) else accs)) ∧
      ∃ w : Word, says' t 1 w ∧ ∀ j, j < 8 → let a := nth {} accs j
        w.getLsbD j = a.nan ∧ w.getLsbD (8 + j) = a.ov ∧ w.getLsbD (16 + j) = a.sat ∧ w.getLsbD (24 + j) = a.ckValid ∧
        w.toNat / 2 ^ (32 + 2 * j) % 4 = (match a.tag with | .f32 => 0 | .i32 => 1 | .f64l => 2 | .f64h => 3))) ∧
    (Fit s c lan .tidw src → n.testBit 10 = true → Comes (.tidw g e src) s (fun t => keeps t ∧ others t (n % 64) ∧ says' t 1 0 ∧
      t.tid c (n % 64) = { y with w0 := 0, w1 := 0, st := .empty, cb := none })) ∧
    (Fit s c lan .tidw src → n.testBit 10 = false →
      let z : Tid := if n / 2 ^ 8 % 4 = 0 then { y with w0 := u.b.word } else { y with w1 := u.b.word }
      (z.check = false → Comes (.tidw g e src) s (fun t => keeps t ∧ others t (n % 64) ∧ says' t 1 0 ∧ t.tid c (n % 64) = { z with st := .empty, cb := none })) ∧
      (z.check = true → z.fmt ≠ .cb4 → Comes (.tidw g e src) s (fun t => others t (n % 64) ∧ says' t 1 2 ∧ t.tid c (n % 64) = { z with st := .ready, cb := none })) ∧
      (z.check = true → z.fmt = .cb4 → y.fmt? = some .cb4 → y.cb.isSome = true → Comes (.tidw g e src) s (fun t => says' t 1 2 ∧ t.tid c (n % 64) = { z with st := .ready })) ∧
      (z.check = true → z.fmt = .cb4 → y.fmt? ≠ some .cb4 ∨ y.cb = none → Comes (.tidw g e src) s (fun t => says' t 1 1 ∧ t.tid c (n % 64) = { z with st := .declared, cb := none }))) ∧
    (Fit s c lan .tidr src → Comes (.tidr g e src) s (fun t => keeps t ∧ (∀ j, t.tid c j = s.tid c j) ∧ says' t 1
      (match n / 2 ^ 8 % 4 with | 0 => y.w0 &&& 0x000FFFFFFFFF0FFF | 1 => y.w1 &&& 0x000FFFFF0FFF010F | 2 => BitVec.ofNat 64 (y.cbgen.toNat * 2 ^ 16 + (match y.st with | .empty => 0 | .declared => 1 | .ready => 2)) | _ => 0))) ∧
    (Fit s c lan .cbld src → let z := s.tid c (b % 64); Comes (.cbld g e src) s (fun t => keeps t ∧ others t (b % 64) ∧ says' t 2 (BitVec.ofNat 64 (z.cbgen + 1).toNat) ∧
      t.tid c (b % 64) = { z with cb := some (BitVec.ofNat 256 (s.spadNum (s.trigger c lan .cbld src) n 32)), cbgen := z.cbgen + 1, st := .ready })) ∧
    (Fit s c lan .mwin src → (s.launchOf? c).isSome = true → Comes (.mwin g e src) s (fun t => keeps t ∧ ∃ w : Word, says' t 1 w ∧ let p := s.windows c
      w.toNat % 2 ^ 8 = s.cyc % p.len % 2 ^ 8 ∧ (0 < p.len → p.len < 256 → w.toNat / 2 ^ 8 % 2 ^ 8 = p.len) ∧ (0 < p.len → p.len < 256 → w.getLsbD 18 = p.solo))) ∧
    (Fit s c lan .mseq src → Comes (.mseq g e src) s (fun t => keeps t ∧ ∃ q, (t.usr c).mseq = some q ∧ q.a.toNat = n ∧ q.b.toNat = b ∧ q.c = u.c ∧
      q.ta = y ∧ q.tb = s.tid c (b % 64) ∧ q.next = 0 ∧ q.steps = u.c.toNat / 2 ^ 16 % 2 ^ 8 + 1 ∧ q.id = s.nextOp))

/-! ### The control unit (R121, R122, R128 to R149, R175) -/

/-- R138 to R140, R146, R147: BR and BRI go to their target, CALL keeps the next bundle's address on the return stack, RET goes back
to it, LOOP skips, drops or enters a body; TRAP and, where debugging is on, DBG trap after the bundle; WDOG arms the watchdog;
SLEEP counts IDLE cycles; PRIO sets the priority of the record that runs; HINT does nothing. -/
def Obligations.ControlTransferResults : Prop :=
  ∀ (s : State) (c : Nat) (lan : Bool) (g : BitVec 3) (e : Bool) (src : BitVec 10),
    Alone s c lan g src →
    let x := s.ctx c lan
    let a := (s.given c lan src).word
    let n := a.toNat
    let b := (x.unit 7).b.word
    let keeps (t : State) : Prop := Keeps s t c lan (fun _ => false)
    let at' (t : State) : Ctx := t.ctx c lan
    let stacks' (t : State) : Prop := (at' t).ret = x.ret ∧ keeps t
    let onward (t : State) : Prop := (at' t).pc = x.following ∧ keeps t
    let traps (t : State) (cause : Nat) (f : Word) : Prop := onward t ∧
      (lan = false → ∃ r ∈ (t.usr c).after, r.cause = cause ∧ r.slot = 7 ∧ r.pc = x.pc ∧ r.after = true ∧ r.addr = f) ∧
      (lan = true → t.mod.booted = false)
    let dbg := (s.part (((s.launchOf? c).map Launch.part).getD (s.partOf c))).dbg
    (Fit s c lan .br src → Comes (.br g e src) s (fun t => stacks' t ∧ (at' t).pc = x.pc + 32 * a)) ∧
    (Fit s c lan .bri src → Comes (.bri g e src) s (fun t => stacks' t ∧ (at' t).pc = a)) ∧
    (Fit s c lan .call src → Comes (.call g e src) s (fun t => keeps t ∧ (at' t).pc = x.pc + 32 * a ∧ (at' t).ret = .plain (x.pc + 32) :: x.ret)) ∧
    (∀ r rest, Fit s c lan .ret src → x.ret = .plain r :: rest → Comes (.ret g e src) s (fun t => keeps t ∧ (at' t).pc = r ∧ (at' t).ret = rest)) ∧
    (∀ f rest, Fit s c lan .ret src → x.ret = .rcd f :: rest → Comes (.ret g e src) s (fun t => (at' t).pc = f.ret.getD (x.pc + 32) ∧ (at' t).ret = rest)) ∧
    (Fit s c lan .loop src → n = 0 → Comes (.loop g e src) s (fun t => keeps t ∧ (at' t).loops = (loopNext x.pc 5 (x.loops.drop 1)).2)) ∧
    (Fit s c lan .loop src → n ≠ 0 → b = 0 → Comes (.loop g e src) s (fun t => keeps t ∧ (at' t).pc = x.pc + 32 * (a + 1) ∧ (at' t).loops = x.loops)) ∧
    (Fit s c lan .loop src → 0 < a.toInt → a.toNat < 2 ^ 58 → b ≠ 0 → Comes (.loop g e src) s (fun t => keeps t ∧ (at' t).pc = x.pc + 32 ∧
      (at' t).loops = { start := x.pc + 32, stop := x.pc + 32 * a, count := b } :: x.loops)) ∧
    (Fit s c lan .trap src → Comes (.trap g e src) s (fun t => traps t cUSER_TRAP a)) ∧
    (Fit s c lan .dbg src → dbg = true → Comes (.dbg g e src) s (fun t => traps t cBREAKPOINT (BitVec.ofNat 64 (n % 2 ^ 16)))) ∧
    (Fit s c lan .dbg src → dbg = false → Comes (.dbg g e src) s (fun t => onward t ∧ (at' t).ret = x.ret)) ∧
    (Fit s c lan .wdog src → Comes (.wdog g e src) s (fun t => onward t ∧
      (at' t).wdog = if n = 0 then none else some (x.sched.toNat + 1 + min n (2 ^ 40 - 1)))) ∧
    (Fit s c lan .sleep src → Comes (.sleep g e src) s (fun t => onward t ∧ (at' t).idle = n % 2 ^ 32)) ∧
    (Fit s c lan .prio src → ∀ f, innermost x.ret = some f → Comes (.prio g e src) s (fun t => onward t ∧
      ∃ y, innermost (at' t).ret = some y ∧ y.r.prio = min n 31 ∧ y.i = f.i ∧ y.ret = f.ret)) ∧
    (Fit s c lan .prio src → innermost x.ret = none → Comes (.prio g e src) s (fun t => onward t ∧ (at' t).ret = x.ret)) ∧
    (Fit s c lan .hint src → Comes (.hint g e src) s (fun t => onward t ∧ (at' t).ret = x.ret))

/-- R131, R136, R137, R142 to R145, R148: LPOST appends a record to the deque of its core, or delivers FULL; LRUN starts a record, or
the youngest of the deque, or delivers EMPTY; LSPLIT joins the splits that the record which runs owes, or delivers FAIL; TWAIT
and TEND drain; RDV delivers OK when its team has met, TIMEOUT when its limit has passed; CANCEL 0 and 1 wait for the end
of the cycle. -/
def Obligations.RecordResults : Prop :=
  ∀ (s : State) (c : Nat) (g : BitVec 3) (e : Bool) (src : BitVec 10),
    Alone s c false g src →
    let x := s.ctx c false
    let a := (s.given c false src).word
    let n := a.toNat
    let d := (x.unit 7).d.toNat % 256
    let dq (t : State) : List LRec := (t.usr c).deque
    let says' (t : State) (v : Word) (st : Status) : Prop := Answers t c false s.nextOp d v st s.cyc
    let sent (t : State) (v : Word) (st : Status) : Prop := Sent t c false s.nextOp d (.sc v) st s.cyc
    let drains (t : State) : List Drain := ((t.task? c).map Task.drains).getD []
    let rcd (o : Op) : LRec := { s.recOf (s.trigger c false o src) with own := s.callerTile c }
    let runs (t : State) (r : LRec) (counted : Bool) : Prop := sent t 1 stOK ∧ (t.ctx c false).pc = BitVec.ofNat 64 (s.codeBase c + r.poff) ∧
      (t.ctx c false).ret = .rcd { ret := some (x.pc + 32), r := r, counted := counted, cancelled := r.cancelled } :: x.ret ∧
      ((t.ctx c false).sreg 59).v = r.s59 0 ∧ ∀ k, k < 4 → r.cmask.testBit k = true → ((t.ctx c false).sreg (60 + k)).v = nth 0 r.cv k
    (Fit s c false .lpost src → (dq s).length < 32 → Comes (.lpost g e src) s (fun t => says' t 0 stOK ∧ dq t = dq s ++ [rcd .lpost] ∧
      ∀ k l, s.task? c = some k → s.launchOf? c = some l → s.callerTile c = k.tile l → (t.task? c).map Task.out = some (k.out + 1))) ∧
    (Fit s c false .lpost src → 32 ≤ (dq s).length → Comes (.lpost g e src) s (fun t => says' t 0 stFULL ∧ dq t = dq s)) ∧
    (Fit s c false .lrun src → a ≠ BitVec.allOnes 64 → (rcd .lrun).trip ≠ 0 → Comes (.lrun g e src) s (fun t => runs t (rcd .lrun) false ∧ dq t = dq s)) ∧
    (∀ r, Fit s c false .lrun src → a = BitVec.allOnes 64 → (dq s).getLast? = some r → r.trip ≠ 0 →
      Comes (.lrun g e src) s (fun t => runs t { r with disp := s.cyc + 1 } true ∧ dq t = (dq s).dropLast)) ∧
    (Fit s c false .lrun src → a = BitVec.allOnes 64 → dq s = [] → Comes (.lrun g e src) s (fun t => says' t 0 stEMPTY)) ∧
    (∀ f, Fit s c false .lsplit src → innermost x.ret = some f → f.r.split = true → Comes (.lsplit g e src) s (fun t => Marked t c false d ∧
      ∃ y, innermost (t.ctx c false).ret = some y ∧ y.splits = f.splits ++ [{ keep := a, reg := d, id := s.nextOp }] ∧ y.r = f.r)) ∧
    (Fit s c false .lsplit src → (∀ f, innermost x.ret = some f → f.r.split = false) → Comes (.lsplit g e src) s (fun t => says' t 0 stFAIL)) ∧
    (∀ k, s.task? c = some k →
      (Fit s c false .twait src → Comes (.twait g e src) s (fun t => Marked t c false d ∧ (t.ctx c false).pc = x.following ∧
        drains t = .twait (s.callerTile c) d s.nextOp (if n = 0 then none else some (s.cyc + n)) x.following false :: k.drains)) ∧
      (Fit s c false .tend src → k.st.over' = false → (s.usr c).member = none → Comes (.tend g e src) s (fun t =>
        drains t = .tend :: k.drains ∧ Keeps s t c false (fun _ => false))) ∧
      (Fit s c false .rdv src → k.st.over' = false → k.rdvGo = some (s.cyc, false) → Comes (.rdv g e src) s (fun t => says' t 0 stOK)) ∧
      (Fit s c false .rdv src → k.st.over' = false → k.rdvGo = some (s.cyc, true) → Comes (.rdv g e src) s (fun t => says' t 0 stTIMEOUT))) ∧
    (Fit s c false .cancel src → n = 0 → Comes (.cancel g e src) s (fun t => Marked t c false d ∧ Asked t c false s.nextOp .cancel d 0 (s.callerTile c) ∧
      Keeps s t c false (fun k => k == d))) ∧
    (Fit s c false .cancel src → n = 1 → Comes (.cancel g e src) s (fun t => Asked t c false s.nextOp .cancel 0xFF 1 0 ∧ Keeps s t c false (fun _ => false))) ∧
    (Fit s c false .cancel src → 1 < n → Comes (.cancel g e src) s (fun t => says' t 0 stERROR ∧ Keeps s t c false (fun k => k == d)))

/-- R121, R122, R144, R149, R175: TGRP delivers a core's group, rank and leader in its rectangle; SCHED the cycle's row or the lanes of a
row that the task may use; SYS that passes its checks waits to be published; LAUNCH keeps the words of its packet for the engine. -/
def Obligations.GroupAndCallResults : Prop :=
  ∀ (s : State) (c : Nat) (lan : Bool) (g : BitVec 3) (e : Bool) (src : BitVec 10),
    Alone s c lan g src →
    let x := s.ctx c lan
    let a := (s.given c lan src).word
    let n := a.toNat
    let d := (x.unit 7).d.toNat % 256
    let b := (x.unit 7).b.word.toNat
    let keeps (t : State) : Prop := Keeps s t c lan (fun k => k == d)
    let says' (t : State) (v : Word) (st : Status) : Prop := keeps t ∧ Answers t c lan s.nextOp d v st s.cyc
    let tr := s.trigger c lan .sys src
    let args := (List.range (n / 2 ^ 17 % 8)).map (fun i => (s.spadNum tr (b + 16 * i) 8, s.spadNum tr (b + 16 * i + 8) 8))
    (∀ k l, s.task? c = some k → s.launchOf? c = some l → Fit s c lan .tgrp src →
      let w := 2 ^ (n % 16)
      let h := 2 ^ (n / 16 % 16)
      let rx := k.tx % l.W
      let ry := k.ty % l.H
      (n < 256 → w ≤ l.W → h ≤ l.H → Comes (.tgrp g e src) s (fun t => says' t (BitVec.ofNat 64
        (coreAt (cx c - rx % w) (cy c - ry % h) * 2 ^ 32 + (ry % h * w + rx % w) % 2 ^ 16 * 2 ^ 16 + (ry / h * (l.W / w) + rx / w) % 2 ^ 16)) stOK)) ∧
      (256 ≤ n ∨ l.W < w ∨ l.H < h → Comes (.tgrp g e src) s (fun t => says' t 0 stERROR))) ∧
    (Fit s c lan .sched src → n < 256 → Comes (.sched g e src) s (fun t => says' t (BitVec.ofNat 64 (s.cyc % 256)) stOK)) ∧
    (Fit s c lan .sched src → 256 ≤ n → n < 512 → Comes (.sched g e src) s (fun t => ∃ w : Word, says' t w stOK ∧
      ∀ l k, lan = false → s.launchOf? c = some l → k < 64 → w.getLsbD k = (decide (s.cellOwner (dieOf c) (n % 256) k = l.part) || (l.free && decide (s.cellOwner (dieOf c) (n % 256) k = 0x1F))))) ∧
    (Fit s c lan .sched src → 512 ≤ n → Comes (.sched g e src) s (fun t => says' t 0 stERROR)) ∧
    (∀ q, s.contOf? c = some q → s.conts.find? q.block = some q → Fit s c lan .sys src →
      (n / 2 ^ 20 ≠ 0 ∨ n / 2 ^ 17 % 8 = 7 → Comes (.sys g e src) s (fun t => says' t 0 stERROR)) ∧
      (n / 2 ^ 20 = 0 → n / 2 ^ 17 % 8 ≠ 7 → (∀ y ∈ args, sysBadArg y = false) → Comes (.sys g e src) s (fun t => Marked t c lan d ∧
        Asked t c lan s.nextOp .sys d 0 0 ∧ ∃ q' y, t.conts.find? q.block = some q' ∧ q'.stream.calls = q.stream.calls ++ [y] ∧
          y.strong = n.testBit 16 ∧ y.core = c ∧ y.reg = d ∧ y.id = s.nextOp ∧ y.published = false)) ∧
      (n / 2 ^ 20 = 0 → n / 2 ^ 17 % 8 ≠ 7 → (∃ y rest, args = y :: rest ∧ sysBadArg y = true) → Comes (.sys g e src) s (fun t => says' t 0 stESPACE))) ∧
    (Fit s c lan .launch src → Comes (.launch g e src) s (fun t => keeps t ∧ Marked t c lan d ∧ Asked t c lan s.nextOp .launch d n 0 ∧
      ∃ q ∈ t.asksOn c lan, q.id = s.nextOp ∧ q.data.length ≤ 65 ∧ ∀ i, i < q.data.length → q.data[i]? = some (s.spadNum (s.trigger c lan .launch src) (n + 8 * i) 8)))

/-! ### Atomic regions and the estimating launch (R362 to R382, R411 to R424) -/

/-- R376 to R382, R420 to R424: ROPEN takes the lowest free slot of its die and delivers the new handle, FULL without one; RJOIN, RVOTE,
RABORT and RLEAVE ask the region's home; RSTAT delivers the region's word, 6 for a stale handle; a malformed handle delivers
ERROR. EPOP, EPUSH, ESTAT and ESTOP ask the estimate of the launch. -/
def Obligations.RegionAndEstimateTriggers : Prop :=
  ∀ (s : State) (c : Nat) (lan : Bool) (g : BitVec 3) (e : Bool) (src : BitVec 10),
    Alone s c lan g src →
    let x := s.ctx c lan
    let a := (s.given c lan src).word
    let n := a.toNat
    let d := (x.unit 7).d.toNat % 256
    let b := (x.unit 7).b.word.toNat
    let says' (t : State) (v : Word) (st : Status) : Prop := Answers t c lan s.nextOp d v st s.cyc
    let asks (o : Op) (p q : Nat) (t : State) : Prop := Marked t c lan d ∧ Asked t c lan s.nextOp o d p q ∧ t.rslots = s.rslots ∧ t.mem = s.mem
    let bad := n / 2 ^ 40 % 2 ^ 8 ≠ 0 ∨ s.plan.joined.contains (n / 2 ^ 58) = false
    let ours := n / 2 ^ 58 = s.plan.pkg
    let h (i : Nat) : Word := BitVec.ofNat 64 (s.plan.pkg * 2 ^ 58 + dieOf c * 2 ^ 56 + i * 2 ^ 48 + s.ropens % 2 ^ 40)
    let free (i : Nat) : Prop := ∀ r, s.rslots.find? (dieOf c * 256 + i) = some r → r.st = .freed
    let tile := s.callerTile c
    (Fit s c lan .ropen src → n ≠ 0 → Comes (.ropen g e src) s (fun t => says' t 0 stERROR ∧ t.rslots = s.rslots)) ∧
    (Fit s c lan .ropen src → n = 0 → (∀ i, i < 256 → ¬ free i) → Comes (.ropen g e src) s (fun t => says' t 0 stFULL ∧ t.rslots = s.rslots)) ∧
    (∀ i, Fit s c lan .ropen src → n = 0 → i < 256 → free i → (∀ j, j < i → ¬ free j) → Comes (.ropen g e src) s (fun t => says' t (h i) stOK ∧
      t.ropens = s.ropens + 1 ∧ ∃ r, t.rslots.find? (dieOf c * 256 + i) = some r ∧ r.handle = h i ∧ r.st = .open' ∧ r.members = [] ∧ r.votes = 0 ∧ r.job = s.jobOf c)) ∧
    (Fit s c lan .rjoin src → bad → Comes (.rjoin g e src) s (fun t => says' t 0 stERROR)) ∧
    (Fit s c lan .rjoin src → ¬ bad → Comes (.rjoin g e src) s (asks .rjoin n b)) ∧
    (Fit s c lan .rabort src → bad → Comes (.rabort g e src) s (fun t => says' t 0 stERROR)) ∧
    (Fit s c lan .rabort src → ¬ bad → Comes (.rabort g e src) s (asks .rabort n b)) ∧
    (Fit s c lan .rvote src → Comes (.rvote g e src) s (fun t => asks .rvote n 0 t ∧ (t.usr c).member = (s.usr c).member.map (fun m => { m with voted := true }))) ∧
    (Fit s c lan .rleave src → Comes (.rleave g e src) s (asks .rleave n 0)) ∧
    (Fit s c lan .rstat src → bad → Comes (.rstat g e src) s (fun t => says' t 0 stERROR)) ∧
    (Fit s c lan .rstat src → ¬ bad → ¬ ours → Comes (.rstat g e src) s (asks .rstat n 0)) ∧
    (Fit s c lan .rstat src → ¬ bad → ours → s.region? a = none → Comes (.rstat g e src) s (fun t => says' t 6 stOK)) ∧
    (∀ r, Fit s c lan .rstat src → ¬ bad → ours → s.region? a = some r → Comes (.rstat g e src) s (fun t => says' t (BitVec.ofNat 64
      (r.wset.length * 2 ^ 48 + r.votes * 2 ^ 32 + r.members.length * 2 ^ 16 + r.cause * 2 ^ 8 +
        (match r.st with | .open' => 0 | .voting => 1 | .committing => 2 | .committed => 3 | .aborting => 4 | .aborted => 5 | .freed => 6))) stOK)) ∧
    (Fit s c lan .epop src → n = 0 → Comes (.epop g e src) s (fun t => Marked t c lan d ∧ Marked t c lan (d + 1) ∧
      Asked t c lan s.nextOp .epop d tile 0 ∧ Asked t c lan (s.nextOp + 1) .epop (d + 1) tile 1)) ∧
    (Fit s c lan .epop src → n ≠ 0 → Comes (.epop g e src) s (fun t => says' t 0 stERROR ∧ Answers t c lan (s.nextOp + 1) (d + 1) 0 stERROR s.cyc)) ∧
    (Fit s c lan .epush src → Comes (.epush g e src) s (fun t => asks .epush n tile t ∧ ∃ q ∈ t.asksOn c lan, q.id = s.nextOp ∧ q.data = [b])) ∧
    (Fit s c lan .estat src → n ≤ 7 → Comes (.estat g e src) s (asks .estat n 0)) ∧
    (Fit s c lan .estat src → 7 < n → Comes (.estat g e src) s (fun t => says' t 0 stERROR)) ∧
    (Fit s c lan .estop src → n = 0 → Comes (.estop g e src) s (asks .estop 0 0)) ∧
    (Fit s c lan .estop src → n ≠ 0 → Comes (.estop g e src) s (fun t => says' t 0 stERROR))

/-- R369, R370, R377 to R381: at a region's home a join takes a task in and delivers the number of members, a leave takes it off, a
vote counts and the last vote locks the write set, and an abort by a member ends the region; each answer reaches the
core that asked.
R369, R371, R372: a region whose locks are held commits: its tentative bytes are in memory and nothing else of it changes; one
that aborts discards them; its outcome reaches a member that waits for its vote, with status OK or with the cause and
ABORTED; when every member has been told, the slot is free. -/
def Obligations.RegionEventResults : Prop :=
  (∀ (s : State) (c slot m : Nat) (q : Ask) (r : RSlot),
    s.askBy m = some (s.usr c, q) → q ∈ (s.usr c).asks → q.id = m → s.coreWaiting m = some c → s.rslots.find? slot = some r →
    let u := s.usr c
    let h := BitVec.ofNat 64 q.a
    let here := s.slotKey h = slot ∧ r.handle = h
    let job := ((s.launchOfUser u).bind (fun p => p.2.job)).getD 0
    let key := s.userKey u
    let loose := r.locking = false ∧ (r.st = .open' ∨ r.st = .voting)
    let told (t : State) (v : Nat) (st : Status) : Prop := Sent t c false m q.reg (.sc (BitVec.ofNat 64 v)) st s.cyc
    let mine (x : RMember) : Prop := x.pkg = s.plan.pkg ∧ x.launch = key.1 ∧ x.tile = key.2
    (q.op = .rjoin → u.member = none → here → r.st = .open' → r.job = job → r.members.length < 4096 → (∃ x ∈ r.members, x.pkg = s.plan.pkg) ∨ r.members.length < 64 →
      Comes (.regionJoin slot m) s (fun t => told t (r.members.length + 1) stOK ∧ (t.usr c).member = some { handle := h, target := BitVec.ofNat 64 q.b } ∧
        t.rslots.find? slot = some { r with members := r.members ++ [{ pkg := s.plan.pkg, launch := key.1, tile := key.2 }] })) ∧
    (q.op = .rjoin → u.member = none → here → r.st ≠ .open' → Comes (.regionJoin slot m) s (fun t => told t 0 stFAIL ∧ t.rslots = s.rslots)) ∧
    (q.op = .rleave → here → loose → Comes (.regionLeave slot m) s (fun t => told t (r.members.length - 1) stOK ∧ (t.usr c).member = none ∧
      ∃ y, t.rslots.find? slot = some y ∧ (∀ x ∈ y.members, ¬ mine x) ∧ ∀ x ∈ r.members, ¬ mine x → x ∈ y.members)) ∧
    (q.op = .rleave → here → ¬ loose → Comes (.regionLeave slot m) s (fun t => told t 0 stFAIL ∧ t.rslots = s.rslots)) ∧
    (q.op = .rvote → q.b = 0 → here → u.member.map Member.handle = some h → loose → r.votes + 1 < r.members.length → Comes (.regionVote slot m) s (fun t =>
      ∃ y, t.rslots.find? slot = some y ∧ y.st = .voting ∧ y.locking = false ∧ y.votes = r.votes + 1)) ∧
    (q.op = .rvote → q.b = 0 → here → u.member.map Member.handle = some h → loose → r.votes + 1 = r.members.length → Comes (.regionVote slot m) s (fun t =>
      .event (.regionLocksHeld slot) ∈ t.agenda ∧ ∃ y, t.rslots.find? slot = some y ∧ y.st = .voting ∧ y.locking = true)) ∧
    (q.op = .rabort → here → loose → r.job = job → (∀ x ∈ u.asks, x.id = m → x = q) → Comes (.regionAbort slot m) s (fun t => told t 4 stOK ∧ .event (.regionEntriesDiscarded slot) ∈ t.agenda ∧
      (u.member.map Member.handle = some h → (t.usr c).member = none ∧ ∀ x, u.asks.find? (fun x => x.op == .rvote) = some x → s.coreWaiting x.id = some c →
        Sent t c false x.id x.reg (.sc (BitVec.ofNat 64 cREGION_ABORT)) stABORTED s.cyc) ∧
      ∃ y, t.rslots.find? slot = some y ∧ y.st = .aborting ∧ y.cause = cREGION_ABORT ∧ y.tent = [] ∧ y.wset = [] ∧ y.rset = [])) ∧
    (q.op = .rabort → s.region? h = none → Comes (.regionAbort slot m) s (fun t => told t 6 stFAIL ∧ t.rslots = s.rslots))) ∧
  (∀ (s : State) (slot : Nat) (r : RSlot),
    s.rslots.find? slot = some r →
    let st (t : State) (x : RegSt) : Prop := (t.rslots.find? slot).map RSlot.st = some x
    (r.st = .voting → r.locking = true → Comes (.regionLocksHeld slot) s (fun t => st t .committing ∧ .event (.regionLinesWritten slot) ∈ t.agenda ∧ t.mem = s.mem)) ∧
    (r.st = .committing → r.tent.sorted = true → Comes (.regionLinesWritten slot) s (fun t => st t .committed ∧
      (∀ pa b, r.tent.find? pa = some b → t.mem.rd pa = b) ∧ ∀ pa, r.tent.find? pa = none → t.mem.rd pa = s.mem.rd pa)) ∧
    (r.st = .aborting → Comes (.regionEntriesDiscarded slot) s (fun t => st t .aborted ∧ t.mem = s.mem)) ∧
    (r.st = .committed ∨ r.st = .aborted → (∀ x ∈ r.members, x.told = true) → Comes (.regionFreed slot) s (fun t => st t .freed)) ∧
    (∀ i x c q, r.members[i]? = some x → x.told = false → x.pkg = s.plan.pkg → r.st = .committed ∨ (r.st = .aborted ∧ r.cause ≠ 0) →
      s.users.find? (fun u => decide (s.userKey u = (x.launch, x.tile)) && decide (u.member.map Member.handle = some r.handle)) = some (s.usr c) →
      (s.usr c).asks.find? (fun q => q.op == .rvote) = some q → s.coreWaiting q.id = some c →
      Comes (.regionOutcomeDelivery slot i) s (fun t => (t.usr c).member = none ∧ (∃ y, t.rslots.find? slot = some y ∧ y.members[i]? = some { x with told := true }) ∧
        Sent t c false q.id q.reg (.sc (if r.st = .committed then 0 else BitVec.ofNat 64 r.cause)) (if r.st = .committed then stOK else stABORTED) s.cyc)))

/-! ### The lantern context (R49, R174 to R180, R283, R437 to R443, R450) -/

/-- R434, R437 to R442: what firmware does with the trap that its core holds: ERET resumes, skips, goes on elsewhere, drops, puts aside or
has the access completed; SEGREW rewinds, drops or commits the segment; INJ arms and disarms units and delivers the mask that
stood; FCSR delivers the trap record and the registers, counters and ports of the core, and writes those that may be written; FAULTQ
hands the fault to the continuation; DUMP ends the package's run. -/
def Obligations.FirmwareTrapResults : Prop :=
  ∀ (s : State) (c : Nat) (g : BitVec 3) (e : Bool) (src : BitVec 10),
    Alone s c true g src →
    let u := (s.ctx c true).unit 7
    let a := (s.given c true src).word.toNat
    let b := u.b.word
    let d := u.d.toNat % 256
    let says' (t : State) (v : Word) (st : Status) : Prop := Answers t c true s.nextOp d v st s.cyc
    let w := s.core c
    let y := s.usr c
    let cut := w.injMask
    (∀ k r l, y.task = some k → k.st = .trapped → k.trap = some r → s.launchOf? c = some l →
      let goes (t : State) (pc : Word) : Prop := (t.ctx c false).pc = pc ∧ (t.ctx c false).idle = (if pc = y.ctx.pc then y.ctx.idle else 0) ∧ ∃ k', t.task? c = some k' ∧ k'.st = k.was ∧ k'.trap = none
      let same (t : State) : Prop := t.task? c = some k ∧ t.ctx c false = s.ctx c false
      let rd (v : Word) : Prop := Comes (.fcsr g e src) s (fun t => same t ∧ if a / 2 ^ 8 % 2 = 1 then says' t 0 stERROR else says' t v stOK)
      let field := a / 2 ^ 9 = 0 ∧ a / 2 ^ 4 % 2 ^ 4 = 0
      (Fit s c true .eret src → a = 0 → Comes (.eret g e src) s (fun t => goes t y.ctx.pc)) ∧
      (Fit s c true .eret src → a = 1 → Comes (.eret g e src) s (fun t => goes t (r.pc + 32))) ∧
      (Fit s c true .eret src → a = 2 → b.toNat % 32 = 0 → b.toNat < 32 * l.bundles → Comes (.eret g e src) s (fun t => goes t (BitVec.ofNat 64 (l.code + b.toNat)))) ∧
      (Fit s c true .eret src → a = 2 → b.toNat % 32 ≠ 0 ∨ 32 * l.bundles ≤ b.toNat → Comes (.eret g e src) s same) ∧
      (Fit s c true .eret src → a = 3 → Comes (.eret g e src) s (fun t => ∃ k', t.task? c = some k' ∧ k'.st = .dropped)) ∧
      (Fit s c true .eret src → a = 4 → Comes (.eret g e src) s (fun t => t.task? c = some { k with posted := true })) ∧
      (Fit s c true .eret src → a = 5 → r.emul = true → r.after = false → Comes (.eret g e src) s (fun t => goes t y.ctx.pc ∧ (t.usr c).waive = true)) ∧
      (Fit s c true .eret src → 5 < a → Comes (.eret g e src) s same) ∧
      (Fit s c true .segrew src → a ≤ 2 → y.seg.st ≠ .open' → y.seg.st ≠ .replaying → Comes (.segrew g e src) s (fun t => same t ∧ says' t 0 stFAIL)) ∧
      (Fit s c true .segrew src → 2 < a → Comes (.segrew g e src) s (fun t => same t ∧ says' t 0 stERROR)) ∧
      (∀ j, Fit s c true .segrew src → a = 0 → y.seg.st = .open' → y.seg.jr = some j → Comes (.segrew g e src) s (fun t =>
        Answers t c true s.nextOp d 0 stOK (s.cyc + 32) ∧ (t.usr c).seg.st = .rewinding ∧ (t.ctx c false).s = j.ctx.s ∧ (t.ctx c false).v = j.ctx.v ∧ (t.usr c).accs = j.accs)) ∧
      (Fit s c true .segrew src → a = 0 → y.seg.st = .replaying → Comes (.segrew g e src) s (fun t => says' t 0 stDROPPED ∧ ∃ k', t.task? c = some k' ∧ k'.st = .dropped)) ∧
      (Fit s c true .segrew src → a = 1 → y.seg.st = .open' ∨ y.seg.st = .replaying → Comes (.segrew g e src) s (fun t => says' t 0 stDROPPED ∧ ∃ k', t.task? c = some k' ∧ k'.st = .dropped)) ∧
      (Fit s c true .segrew src → a = 2 → y.seg.st = .open' ∨ y.seg.st = .replaying → Comes (.segrew g e src) s (fun t => says' t 0 stOK ∧ (t.usr c).seg.st = .committed ∧ (t.usr c).seg.buf = [])) ∧
      (Fit s c true .fcsr src → field →
        (a % 16 = 0 → rd (BitVec.ofNat 64 (r.cause % 64 + 2 ^ 6 * (r.slot % 8) + (if r.after = true then 2 ^ 9 else 0) + 2 ^ 10 * r.seg))) ∧
        (a % 16 = 1 → rd r.pc) ∧ (a % 16 = 2 → rd r.addr) ∧ (a % 16 = 5 → rd (BitVec.ofNat 64 w.lastDrop)) ∧ (a % 16 = 6 → rd (cut.setWidth 64)) ∧
        (∀ x v, y.latched = some x → x.u.b = .sc v → a % 16 = 10 → rd v) ∧
        (a % 16 = 9 → rd ((y.latched.map (fun x => x.u.a.word)).getD 0)) ∧ (a % 16 = 11 → rd ((y.latched.map (fun x => x.u.c)).getD 0)) ∧
        (a % 16 = 12 → rd ((y.latched.map (fun x => x.u.d)).getD 0)) ∧
        (a % 16 = 3 → Comes (.fcsr g e src) s (fun t => says' t w.corrected stOK ∧ (t.core c).corrected = if a / 2 ^ 8 = 1 then w.corrected &&& ~~~b else w.corrected)) ∧
        (a % 16 = 4 → Comes (.fcsr g e src) s (fun t => says' t w.uncorrectable stOK ∧ (t.core c).uncorrectable = if a / 2 ^ 8 = 1 then w.uncorrectable &&& ~~~b else w.uncorrectable)) ∧
        (a % 16 = 7 ∨ 12 < a % 16 → Comes (.fcsr g e src) s (fun t => same t ∧ says' t 0 stERROR))) ∧
      (∀ n, Fit s c true .fcsr src → isSReg n = true → a = 8 + 2 ^ 16 * n → Comes (.fcsr g e src) s (fun t => same t ∧ says' t (y.ctx.sreg n).v stOK)) ∧
      (∀ n, Fit s c true .fcsr src → isSReg n = true → a = 8 + 2 ^ 8 + 2 ^ 16 * n → Comes (.fcsr g e src) s (fun t => says' t (y.ctx.sreg n).v stOK ∧
        (t.ctx c false).sreg n = { v := b, full := true, pend := false, tag := stOK } ∧ ∀ m, isSReg m = true → m ≠ n → (t.ctx c false).sreg m = y.ctx.sreg m)) ∧
      (Fit s c true .faultq src → a < 2 ^ 8 → a / 2 ^ 6 = 1 ∨ a / 2 ^ 6 = 2 → s.takesFaults l.block → Comes (.faultq g e src) s (fun t =>
        t.holdsFault l.block (a / 2 ^ 6) (a % 2 ^ 6) b ∧ t.task? c = some { k with posted := true } ∧ says' t 0 stOK))) ∧
    (Fit s c true .inj src → a < 2 ^ 11 → b.toNat < 3 ∨ b.toNat = 3 ∧ Nat.land a 0x6E4 = 0 → Comes (.inj g e src) s (fun t => says' t (cut.setWidth 64) stOK ∧
      ∀ i, i < 11 → if a.testBit i = true then (t.core c).injMask.getLsbD i = decide (b ≠ 0) ∧ (b ≠ 0 → (t.core c).injOf i = b.toNat)
        else (t.core c).injMask.getLsbD i = cut.getLsbD i ∧ (t.core c).injOf i = w.injOf i)) ∧
    (Fit s c true .inj src → 2 ^ 11 ≤ a ∨ 3 < b.toNat ∨ b.toNat = 3 ∧ Nat.land a 0x6E4 ≠ 0 → Comes (.inj g e src) s (fun t => says' t 0 stERROR ∧ (t.core c).injMask = cut)) ∧
    (Fit s c true .dump src → Comes (.dump g e src) s (fun t => t.mod.booted = false ∧
      t.agenda = [] ∧
      ((s.ctx c true).pipe = [] → t.mod.dump = [0x4B473944, BitVec.ofNat 64 c, BitVec.ofNat 64 (a % 64), BitVec.ofNat 64 s.cyc])))

/-- R176 to R180, R264, R283, R450: SNAP stops a task or takes its snapshot, SNAPR waits to resume it, PARK waits to put its image away and
UNPARK brings one back; TLBI takes translations from the die's TLBs and waits for the accesses before it; FWSHARE and SLOTW
wait for the cycle at which they take effect; KEYOP reads, draws and discards keys; IDLE waits for work. -/
def Obligations.FirmwareServiceResults : Prop :=
  ∀ (s : State) (c : Nat) (g : BitVec 3) (e : Bool) (src : BitVec 10),
    Alone s c true g src →
    let u := (s.ctx c true).unit 7
    let aw := (s.given c true src).word
    let a := aw.toNat
    let bw := u.b.word
    let b := bw.toNat
    let d := u.d.toNat % 256
    let says' (t : State) (v : Word) (st : Status) : Prop := Answers t c true s.nextOp d v st s.cyc
    let st := (s.task? c).map Task.st
    let stop := (s.core c).stop
    let asks (o : Op) (p q : Nat) (t : State) : Prop := Marked t c true d ∧ Asked t c true s.nextOp o d p q
    let pipe := (s.usr c).ctx.pipe
    let die := dieOf c
    let old := s.cellOwner die (a / 2 ^ 8) (a % 2 ^ 6)
    let ours := s.keyValid bw = true ∧ bw.toNat / 2 ^ 60 = (s.corePart c).getD 16
    (Fit s c true .snap src → a % 16 ≠ 0 ∨ stop ≠ none ∨ (st ≠ some .preempted ∧ st ≠ some .running) → Comes (.snap g e src) s (fun t => says' t 0 stFAIL)) ∧
    (Fit s c true .snap src → a % 16 = 0 → stop = none → st = some .preempted → s.unlocked → Comes (.snap g e src) s (fun t => says' t (BitVec.ofNat 64 pipe.length) stOK ∧
      (a = 0 → t.mem = s.mem) ∧ (a ≠ 0 → t.mem.rdN a (pipe.flatMap Pipe.record).length = pipe.flatMap Pipe.record))) ∧
    (Fit s c true .snap src → a % 16 = 0 → stop = none → st = some .running → Comes (.snap g e src) s (fun t => asks .snap 0 0 t ∧
      ∃ p, (t.core c).stop = some p ∧ p.at' = s.cyc ∧ p.reached = false ∧ p.park = false ∧ p.forSnap = some (d, s.nextOp, aw))) ∧
    (Fit s c true .snapr src → st = some .preempted → stop = none → Comes (.snapr g e src) s (asks .snapr 0 0)) ∧
    (Fit s c true .snapr src → st ≠ some .preempted ∨ stop ≠ none → Comes (.snapr g e src) s (fun t => says' t 0 stFAIL)) ∧
    (Fit s c true .tlbi src → b / 2 ^ 19 = 0 → b / 2 ^ 16 % 4 ≠ 3 → die < s.dies.length → Comes (.tlbi g e src) s (fun t => asks .tlbi s.nextOp 0 t ∧
      (∀ x ∈ (t.die die).tlb, x ∈ (s.die die).tlb ∧ x.hit (b / 2 ^ 16 % 4) (b % 2 ^ 16) a = false) ∧
      (∀ c', dieOf c' = die → ∀ x ∈ (t.core c').tlb, x ∈ (s.core c').tlb ∧ x.hit (b / 2 ^ 16 % 4) (b % 2 ^ 16) a = false) ∧
      ∀ c', dieOf c' ≠ die → (t.core c').tlb = (s.core c').tlb)) ∧
    (Fit s c true .tlbi src → b / 2 ^ 19 ≠ 0 ∨ b / 2 ^ 16 % 4 = 3 → Comes (.tlbi g e src) s (fun t => says' t 0 stERROR ∧ t.dies = s.dies)) ∧
    (∀ l, s.launchOf? c = some l → st = some .preempted → stop = none → Fit s c true .park src →
      (∀ n, s.imagePlace c l.block aw = some (.inr n) → (∀ i ∈ l.saved, i.at' ≠ some n) → Comes (.park g e src) s (asks .park n 0)) ∧
      (∀ k, s.imagePlace c l.block aw = some (.inl k) → s.adverts k = true → Comes (.park g e src) s (asks .park k 1)) ∧
      (s.imagePlace c l.block aw = none → Comes (.park g e src) s (fun t => says' t 0 stFAIL))) ∧
    (∀ i, Fit s c true .unpark src → s.imageAt c aw = some i → (s.usr c).task = none → i.bad = false → Comes (.unpark g e src) s (fun t => says' t 0 stOK ∧
      (t.ctx c false).s = i.usr.ctx.s ∧ (t.usr c).deque = i.usr.deque ∧ (t.usr c).accs = i.usr.accs ∧
      (t.task? c).map Task.st = i.usr.task.map (fun k => if k.st = .swapped then .preempted else k.st))) ∧
    (Fit s c true .unpark src → s.imageAt c aw = none ∨ (s.usr c).task ≠ none → Comes (.unpark g e src) s (fun t => says' t 0 stFAIL)) ∧
    (∀ p, Fit s c true .fwshare src → s.corePart c = some p → 4 ≤ a → a ≤ 10 → Comes (.fwshare g e src) s (fun t => asks .fwshare 0 0 t ∧
      ∃ x, t.shareWrs = s.shareWrs ++ [x] ∧ x.part = p ∧ x.share = a ∧ x.core = c ∧ x.id = s.nextOp ∧ x.reg = d ∧ s.cyc < x.due ∧ x.due % 1024 = 0 ∧ x.due ≤ s.cyc + 1024)) ∧
    (Fit s c true .fwshare src → a < 4 ∨ 10 < a ∨ s.corePart c = none → Comes (.fwshare g e src) s (fun t => says' t 0 stERROR)) ∧
    (Fit s c true .slotw src → a < 2 ^ 16 → a / 2 ^ 6 % 4 = 0 → b < 16 ∨ b = 0x1F → (old < 16 → s.partBusy old = false) → (b < 16 → s.partBusy b = false) →
      Comes (.slotw g e src) s (fun t => asks .slotw 0 0 t ∧ ∃ x, t.slotWrs = s.slotWrs ++ [x] ∧ x.die = die ∧ x.cell = a / 2 ^ 8 * 64 + a % 2 ^ 6 ∧ x.owner = b ∧ x.core = c ∧
        x.id = s.nextOp ∧ x.reg = d ∧ s.cyc < x.due ∧ x.due % 256 = 0 ∧ x.due ≤ s.cyc + 256)) ∧
    (Fit s c true .slotw src → a < 2 ^ 16 → a / 2 ^ 6 % 4 = 0 → b < 16 ∨ b = 0x1F → (old < 16 ∧ s.partBusy old = true) ∨ (b < 16 ∧ s.partBusy b = true) →
      Comes (.slotw g e src) s (fun t => says' t 0 stBUSY)) ∧
    (Fit s c true .slotw src → 2 ^ 16 ≤ a ∨ a / 2 ^ 6 % 4 ≠ 0 ∨ (16 ≤ b ∧ b ≠ 0x1F) → Comes (.slotw g e src) s (fun t => says' t 0 stERROR)) ∧
    (Fit s c true .keyop src → a = 0 → s.keyValid bw = true → Comes (.keyop g e src) s (fun t => says' t (bw >>> 58) stOK)) ∧
    (Fit s c true .keyop src → a = 0 → s.keyValid bw = false → Comes (.keyop g e src) s (fun t => says' t 0 stFAIL)) ∧
    (Fit s c true .keyop src → a = 2 → ours → Comes (.keyop g e src) s (fun t => says' t 0 stOK ∧ t.keyValid bw = false ∧ ∀ h, h ≠ bw → t.keyValid h = s.keyValid h)) ∧
    (Fit s c true .keyop src → a = 1 ∨ a = 2 → ¬ ours → Comes (.keyop g e src) s (fun t => says' t 0 stFAIL)) ∧
    (Fit s c true .keyop src → a = 1 → ours → bw.toNat / 2 ^ 58 % 4 = 1 → (∀ p ∈ s.launches, p.2.part = (s.corePart c).getD 16 → p.2.st ≠ .active ∧ p.2.st ≠ .placing ∧ p.2.st ≠ .draining) →
      Comes (.keyop g e src) s (fun t => says' t 0 stOK ∧ t.fresh = s.fresh + 1)) ∧
    (Fit s c true .keyop src → a = 3 → Comes (.keyop g e src) s (fun t => (∃ n, says' t n stOK) ∧ t.fresh = s.fresh + 1 ∧
      ∀ h, h.toNat / 2 ^ 60 = (s.corePart c).getD 16 → t.keyValid h = false)) ∧
    (Fit s c true .keyop src → 3 < a → Comes (.keyop g e src) s (fun t => says' t 0 stERROR)) ∧
    (Fit s c true .idle src → Comes (.idle g e src) s (fun t => Marked t c true d ∧ ∃ q, (t.core c).lan.idle = some q ∧ q.id = s.nextOp ∧ q.reg = d ∧
      q.limit = (if a = 0 then none else some (s.cyc + a)) ∧ q.since = s.cyc))

/-- R49, R50, R434, R437: a trigger of the opcode that no instruction has, whatever its guard, traps ILLEGAL_OPCODE: the task is TRAPPED
with the cause, the slot and the bundle's address in its trap record, and goes on nowhere; in the lantern context it is FATAL. -/
def Obligations.IllegalOpcodeTraps : Prop :=
  ∀ (s : State) (c : Nat) (lan : Bool) (g : BitVec 3) (e : Bool) (src : BitVec 10),
    s.actor = side c lan → (s.ctx c lan).readable src = true → (srcOf src.toNat).vector = false →
    (lan = false → (s.usr c).inSeg = false → ∀ k, s.task? c = some k → Comes (.ill g e src) s (fun t => t.ctx c true = s.ctx c true ∧ (t.ctx c false).pc = (s.ctx c false).pc ∧
      ∃ k' r, t.task? c = some k' ∧ k'.st = .trapped ∧ k'.trap = some r ∧ r.cause = cILLEGAL_OPCODE ∧ r.slot = 7 ∧ r.pc = (s.ctx c false).pc ∧ r.after = false)) ∧
    (lan = true → Comes (.ill g e src) s (fun t => t.mod.booted = false ∧ t.agenda = [] ∧ t.cores = s.cores ∧
      t.mod.dump = [0x4B473944, BitVec.ofNat 64 c, BitVec.ofNat 64 cILLEGAL_OPCODE, BitVec.ofNat 64 s.cyc]))

/-! ### Events of a core (R39, R40, R46, R131 to R133, R143, R145, R146, R168, R173, R180, R429, R431, R436) -/

/-- R39, R43: an IDLE cycle of the user context brings its results one cycle nearer, and lands the one that is due. R40, R432: a delivery
that is due fills its register with value and status and raises the trap that it carries; one that was read from an uncorrectable
word leaves the register pending and fails. R46, R343: the arrivals that are due are sent as BARVs of count 1. R429: the commit
before a bundle sends the buffered stores. R431: 32 cycles after it began a rewind is over. R133: a scout steps, and takes
records from its victim's deque, which arrive later. -/
def Obligations.CoreLandingResults : Prop :=
  (∀ (s : State) (c n : Nat), (s.ctx c false).idle = n + 1 → Comes (.resultLanding c) s (fun t =>
    (t.ctx c false).idle = n ∧ (t.ctx c false).sched = (s.ctx c false).sched + 1 ∧ (t.ctx c false).pc = (s.ctx c false).pc ∧ t.mem = s.mem ∧
    (t.ctx c false).s = (s.ctx c false).s ∧ (t.ctx c false).v = (s.ctx c false).v ∧ (t.ctx c false).b = (s.ctx c false).b ∧
    (∀ x ∈ (s.ctx c false).pipe, 2 ≤ x.rem → { x with rem := x.rem - 1 } ∈ (t.ctx c false).pipe) ∧
    ∀ x, (s.ctx c false).pipe = [x] → x.rem = 1 → x.unit < 8 → x.port ≤ 1 ∨ (0x18 ≤ x.port ∧ x.port < 0x20 ∧ ∃ v, x.val = .sc v) →
      (t.ctx c false).out x.unit x.port = x.val ∧ (t.ctx c false).fps &&& x.fl.setWidth 64 = x.fl.setWidth 64 ∧ (t.ctx c false).pipe = [])) ∧
  (∀ (s : State) (c n : Nat) (k : Task), (s.ctx c false).idle = n + 1 → (s.core c).debugStep = true → s.task? c = some k →
    Comes (.resultLanding c) s (fun t => (t.core c).debugStep = false ∧ (t.ctx c false).idle = n ∧ ∃ k' r, t.task? c = some k' ∧ k'.st = .trapped ∧
      k'.trap = some r ∧ r.cause = cDEBUG_STEP ∧ r.pc = (s.ctx c false).pc ∧ r.after = true)) ∧
  (∀ (s : State) (c id : Nat) (d : Deliv), (s.dueDelivs c).find? (fun (d : Deliv) => decide (d.id = id)) = some d →
    (d.bad = false → Comes (.deliveryLanding c id) s (fun t => (∀ x ∈ t.delivsOf c d.lan, x.id ≠ id) ∧
      (∀ v, d.val = .sc v → isSReg d.reg = true → (t.ctx c d.lan).sreg d.reg = { v := v, full := true, pend := false, tag := d.tag }) ∧
      (∀ v, d.val = .vec v → isVReg d.reg = true → (t.ctx c d.lan).vreg d.reg = { v := v, full := true, pend := false }) ∧
      (∀ n, n ≠ d.reg → isSReg n = true → (t.ctx c d.lan).sreg n = (s.ctx c d.lan).sreg n) ∧
      (∀ n, n ≠ d.reg → isVReg n = true → (t.ctx c d.lan).vreg n = (s.ctx c d.lan).vreg n) ∧ (∀ pa, t.mem.rd pa = s.mem.rd pa) ∧
      (∀ k, d.trap = some k → d.lan = false → ∃ r ∈ (t.usr c).after, r.cause = k ∧ r.slot = d.slot ∧ r.pc = d.pc ∧ r.after = true))) ∧
    (d.bad = true → d.lan = false → (s.usr c).inSeg = false → (s.usr c).after = [] → Comes (.deliveryLanding c id) s (fun t =>
      (t.core c).uncorrectable = bump (s.core c).uncorrectable ∧ (∀ n, isSReg n = true → (t.ctx c false).sreg n = (s.ctx c false).sreg n) ∧
      ∃ r ∈ (t.usr c).after, r.cause = cUNCORRECTABLE_CONSUMED ∧ r.pc = d.pc))) ∧
  (∀ (s : State) (c : Nat), Comes (.arrivalOnRetire c) s (fun t => ∀ lan,
    (∀ a ∈ (s.ctx c lan).arvs, a.due s.cyc = true → ∃ m ∈ t.mops c lan, s.nextOp ≤ m.id ∧ m.op = .barv ∧ m.arv = true ∧ m.place = a.place ∧ m.pa = a.pa ∧ m.b = .sc 1 ∧ m.slot = a.slot) ∧
    (t.ctx c lan).arvs = (s.ctx c lan).arvs.filter (fun (a : Arv) => !a.due s.cyc) ∧ ∀ m ∈ s.mops c lan, m ∈ t.mops c lan)) ∧
  (∀ (s : State) (c : Nat) (b : Bundle), s.fetch c false = .bundle b → s.gate c b = .commit → Comes (.segmentCommit c) s (fun t =>
    (∃ h : MemOp → Bool, (t.usr c).mops = (s.usr c).mops ++ (s.usr c).seg.buf.map (fun (m : MemOp) => { m with issue := s.cyc, hold := h m })) ∧ (t.usr c).seg.st = .committed ∧ (t.usr c).seg.buf = [] ∧ (t.usr c).seg.jr = none ∧
    (∀ x ∈ (t.usr c).xfers, x.held = false) ∧ (∀ x ∈ (s.usr c).xfers, x.held = true → { x with held := false, point := s.nextOp } ∈ (t.usr c).xfers) ∧ (∀ a ∈ (t.ctx c false).arvs, a.seg = false) ∧ (t.ctx c false).s = (s.ctx c false).s ∧ (t.ctx c false).pc = (s.ctx c false).pc)) ∧
  (∀ (s : State) (c : Nat), (s.usr c).seg.st = .rewinding → (s.usr c).seg.began + 32 ≤ s.cyc → Comes (.rewindDone c) s (fun t =>
    (t.usr c).seg.st = .replaying ∧ (t.usr c).seg.count = 0 ∧ (t.usr c).ctx = (s.usr c).ctx)) ∧
  (∀ (s : State) (c : Nat), s.probes c = true →
    let l := lfsrStep (s.usr c).lfsr
    let v := nth 0 (s.candidates c) (l.toNat % (s.candidates c).length)
    let dq := (s.usr v).deque
    let ps := dq.filter LRec.port
    let n := (ps.length + 1) / 2
    (s.oneTeam c v = false ∨ ps = [] → Comes (.scoutProbe c) s (fun t => (t.usr c).lfsr = l ∧ (t.usr c).transit = (s.usr c).transit ∧ (t.usr v).deque = dq)) ∧
    (∀ r, s.oneTeam c v = true → ps = [r] → r.split = true → 2 ≤ r.trip → Comes (.scoutProbe c) s (fun t => (t.usr c).lfsr = l ∧
      (t.usr c).transit = (s.usr c).transit ++ [(s.cyc + stealTime, { r.setTrip (r.trip / 2) with disp := s.cyc + 1 })] ∧
      (t.usr v).deque.filter LRec.port = [{ (r.setBase (r.baseAt (r.trip / 2))).setTrip (r.trip - r.trip / 2) with disp := s.cyc + 1 }])) ∧
    (s.oneTeam c v = true → ps ≠ [] → (∀ r, ps = [r] → r.split = false ∨ r.trip < 2) → Comes (.scoutProbe c) s (fun t => (t.usr c).lfsr = l ∧
      (t.usr c).transit = (s.usr c).transit ++ (ps.take n).map (fun (r : LRec) => (s.cyc + stealTime, { r with disp := s.cyc + 1 })) ∧
      (t.usr v).deque.filter LRec.port = ps.drop n ∧ (t.usr v).deque.filter (fun (r : LRec) => !r.port) = dq.filter (fun (r : LRec) => !r.port)))) ∧
  ∀ (s : State) (c d : Nat) (r : LRec) (rest : List (Nat × LRec)), (s.usr c).transit = (d, r) :: rest → d ≤ s.cyc →
    ((s.usr c).deque.length < 32 → Comes (.stealArrival c) s (fun t => (t.usr c).deque = (s.usr c).deque ++ [r] ∧ (t.usr c).transit = rest)) ∧
    (32 ≤ (s.usr c).deque.length → Comes (.stealArrival c) s (fun t => (t.usr c).deque = (s.usr c).deque ∧ (t.usr c).transit = (d, r) :: rest))

/-- R143, R145, R146, R168, R173, R176, R180, R436: IDLE ends for its reason with a trap, a step, a stop or its limit; a core resumes; a TWAIT that has
waited too long gives OUT; the watchdog traps; a rendezvous lets its cores go, or goes on late; firmware that holds a trap too long
is fatal; a debugger stops, steps and releases a task. -/
def Obligations.CoreControlResults : Prop :=
  (∀ (s : State) (c : Nat) (q : Ask), (s.core c).lan.idle = some q →
    let ends (v : Word) (st : Status) : Prop := Comes (.idleWake c) s (fun t => (t.core c).lan.idle = none ∧ (t.core c).lan.called = false ∧ Sent t c true q.id q.reg (.sc v) st s.cyc ∧
      ((t.core c).lan.trapSeen = ((s.core c).lan.trapSeen || decide (v = 1))))
    let trap := s.held c = true ∧ (s.core c).lan.trapSeen = false
    let stop := (s.core c).lan.called = true
    (trap → ends 1 stOK) ∧ (¬ trap → s.servesStep c = true → ends 2 stOK) ∧ (¬ trap → s.servesStep c = false → stop → ends 3 stOK) ∧
    (∀ n, ¬ trap → s.servesStep c = false → ¬ stop → q.limit = some n → n ≤ s.cyc → ends 0 stTIMEOUT)) ∧
  (∀ (s : State) (c need seen : Nat) (k : Task), s.snaprDue c = none → (s.usr c).resume = some (need, seen) → need ≤ seen → s.task? c = some k → k.st = .preempted →
    Comes (.coreResume c) s (fun t => t.task? c = some { k with st := .running } ∧ (t.usr c).resume = none ∧ t.ctx c false = s.ctx c false)) ∧
  (∀ (s : State) (c : Nat) (q : Ask) (k : Task), s.snaprDue c = some q → s.task? c = some k → k.st = .preempted →
    Comes (.coreResume c) s (fun t => t.task? c = some { k with st := .running } ∧ Sent t c true q.id q.reg (.sc 0) stOK s.cyc)) ∧
  (∀ (s : State) (c own reg id n : Nat) (to' : Word) (k : Task) (ds : List Drain), s.task? c = some k → k.drains = .twait own reg id (some n) to' false :: ds → n ≤ s.cyc →
    Comes (.twaitTimeout c) s (fun t => Sent t c false id reg (.sc (BitVec.ofNat 64 (s.outOf (s.launchKey c) own))) stTIMEOUT s.cyc ∧
      ∃ k', t.task? c = some k' ∧ k'.drains.head? = some (.twait own reg id (some n) to' true))) ∧
  (∀ (s : State) (c n : Nat), (s.ctx c false).wdog = some n → n ≤ (s.ctx c false).sched.toNat → Comes (.watchdogExpiry c) s (fun t =>
    (t.ctx c false).wdog = none ∧ ∃ r ∈ (t.usr c).after, r.cause = cWATCHDOG ∧ r.pc = (s.ctx c false).pc)) ∧
  (∀ (s : State) (cl : Nat), Comes (.rendezvousRelease cl) s (fun t => (∀ c ∈ s.meetingDone cl, ∀ k, s.task? c = some k →
      ∃ k', t.task? c = some k' ∧ k'.rdvGo = some (s.cyc, false) ∧ k'.st = k.st ∧ (t.ctx c false).cons = 0) ∧ ∀ c, c ∉ s.meetingDone cl → t.core c = s.core c)) ∧
  (∀ (s : State) (c : Nat) (k : Task), s.meetingLate c = true → s.task? c = some k → Comes (.rendezvousTimeout c) s (fun t =>
    t.task? c = some { k with rdvGo := some (s.cyc, true) } ∧ (t.ctx c false).cons = 0)) ∧
  (∀ (s : State) (c : Nat), s.heldTooLong c = true → Comes (.shareViolation c) s (fun t => t.mod.booted = false ∧ t.agenda = [] ∧
    t.mod.dump = [0x4B473944, BitVec.ofNat 64 c, BitVec.ofNat 64 cSHARE_VIOLATION, BitVec.ofNat 64 s.cyc])) ∧
  (∀ (s : State) (c : Nat) (k : Task), s.mayDebug c = true → s.task? c = some k → k.st = .running → (s.core c).stop = none → Comes (.debugHold c) s (fun t =>
    (t.core c).debugHeld = true ∧ ((s.core c).lan.idle ≠ none → (t.core c).lan.called = true) ∧ ∃ p, (t.core c).stop = some p ∧ p.at' = s.cyc ∧ p.reached = false ∧ p.park = false)) ∧
  ∀ (s : State) (c : Nat) (k : Task), (s.core c).debugHeld = true → s.task? c = some k →
    (k.st = .preempted → (s.core c).stop = none → (s.mayDebug c = true → Comes (.debugStep c) s (fun t => t.task? c = some { k with st := .running } ∧ (t.core c).debugStep = true ∧ (t.core c).debugHeld = true)) ∧
      Comes (.debugRelease c) s (fun t => t.task? c = some { k with st := .running } ∧ (t.core c).debugStep = false ∧ (t.core c).debugHeld = false)) ∧
    (∀ r, k.st = .trapped → k.trap = some r → isDebug r.cause = true →
      (s.mayDebug c = true → Comes (.debugStep c) s (fun t => t.task? c = some { k with st := k.was, trap := none, posted := false } ∧ (t.core c).debugStep = true)) ∧
      Comes (.debugRelease c) s (fun t => t.task? c = some { k with st := k.was, trap := none, posted := false } ∧ (t.core c).debugHeld = false))

/-! ### Launches, teams and clusters (R151 to R163, R166 to R171) -/

/-- R153 to R155, R158, R160, R127: the arbiter places its head where it has found room, with fresh tasks on the cores, or stops the
launch that it displaces; a launch that has waited 10 ms gains in priority. A team starts on its cycle, its tasks running or
resuming by their stop offsets; its quantum ends in a stop of its cores, or begins anew. The image of a stopped core is
saved; the last one hands the rectangle on. A launch that has nothing left under way makes its DONE add and is DONE. -/
def Obligations.LaunchEventResults : Prop :=
  (∀ (s : State) (p k x y j : Nat) (l : Launch), s.head p = some (k, l) → s.launches.find? k = some l → (s.part p).en = true → l.est = none → s.candidate l = some (x, y) →
    let rect := { l with x0 := x, y0 := y }.rect
    rect.all (fun (c : Nat) => s.coreQuiet c && !s.expected c) = true → s.canEvict rect = true → l.nextTeam (l.teams.length + 1) l.cur = some j →
    Comes (.launchPlace p) s (fun t =>
      (∃ l', t.launches.find? k = some l' ∧ l'.st = .placing ∧ l'.x0 = x ∧ l'.y0 = y ∧ l'.cur = j ∧ l'.team j = .starting ∧ ∃ n, l'.startAt = some n ∧ s.cyc + 64 ≤ n ∧ n ≤ s.cyc + 65) ∧
      (l.team j ≠ .swapped → ∀ dx dy, dx < l.W → dy < l.H →
        let c := coreAt (x + dx) (y + dy)
        let tx := j % l.teamsX * l.W + dx
        let ty := j / l.teamsX * l.H + dy
        (t.ctx c false).pc = BitVec.ofNat 64 (l.code + l.entry) ∧ (∀ i, i < 64 → ((t.ctx c false).sreg i).v = nth 0 l.args i) ∧ (t.usr c).allocs = l.allocs ∧ (t.usr c).deque = [] ∧ (t.usr c).accs = ({} : User).accs ∧
        ∃ q, t.task? c = some q ∧ q.launch = k ∧ q.team = j ∧ q.tx = tx ∧ q.ty = ty ∧ q.out = 0 ∧ q.st = if tx < l.gx ∧ ty < l.gy then .placed else .ended))) ∧
  (∀ (s : State) (p k v x y : Nat) (l w : Launch) (r : List (Nat × Option Nat)), s.head p = some (k, l) → (s.part p).en = true → l.est = none → s.candidate l = none →
    s.victimRect l = some (x, y) → s.holders x y l.W l.H = [v] → s.launches.find? v = some w → w.holds = true → w.team w.cur = .running →
    reserve w.rect (s.advertising w.part) (s.unitsFree w.block) = some r →
    Comes (.launchPlace p) s (fun t => (∃ w', t.launches.find? v = some w' ∧ w'.leaving = true ∧ w'.team w.cur = .stopping ∧ w'.shifted = some s.cyc) ∧
      ∀ c d, (c, d) ∈ r → (r.map Prod.fst).Nodup → s.task? c ≠ none → ∃ q, (t.core c).stop = some q ∧ q.at' = s.cyc ∧ q.park = true ∧ q.dest = d)) ∧
  (∀ (s : State) (k : Nat) (l : Launch), s.launches.find? k = some l →
    (l.st = .ready → l.aged + 12000000 ≤ s.cyc → Comes (.priorityAging k) s (fun t =>
      t.launches.find? k = some { l with aged := l.aged + 12000000, eff := if l.eff < l.ceil then l.eff + 1 else l.eff })) ∧
    (l.st ≠ .ready ∨ s.cyc < l.aged + 12000000 → Comes (.priorityAging k) s (fun t => t.launches.find? k = some l))) ∧
  (∀ (s : State) (k n : Nat) (l : Launch), s.launches.find? k = some l → l.startAt = some n → n ≤ s.cyc → s.cyc % s.shareOf l.part ≠ s.shareOf l.part - 1 → l.rect.Nodup →
    let first := ((l.rect.filterMap (fun (c : Nat) => s.task? c)).filter (fun (q : Task) => !q.st.over')).foldl (fun (m : Nat) (q : Task) => min m q.stopOff) (2 ^ 64)
    Comes (.teamStart k) s (fun t => (∃ l', t.launches.find? k = some l' ∧ l'.st = .active ∧ l'.team l.cur = .running ∧ l'.startAt = none ∧ l'.quantumEnd = s.cyc + l.quantum) ∧
      ∀ c ∈ l.rect, ∀ q, s.task? c = some q → (q.st = .placed → t.task? c = some { q with st := .running }) ∧
        (q.st ≠ .placed → t.task? c = some q ∧ (t.usr c).resume = some (q.stopOff - first, 0)))) ∧
  (∀ (s : State) (k : Nat) (l : Launch), s.launches.find? k = some l → l.st = .active → l.team l.cur = .running → l.quantumEnd ≤ s.cyc + 1 → l.teamOver l.cur = false →
    let place := reserve l.rect (s.advertising l.part) (s.unitsFree l.block)
    (∀ r, l.otherTeam ≠ none → place = some r → Comes (.quantumExpiry k) s (fun t => (∃ l', t.launches.find? k = some l' ∧ l'.team l.cur = .stopping ∧ l'.leaving = l.leaving) ∧
      ∀ c d, (c, d) ∈ r → (r.map Prod.fst).Nodup → s.task? c ≠ none → ∃ q, (t.core c).stop = some q ∧ q.at' = s.cyc + 1 ∧ q.park = true ∧ q.dest = d)) ∧
    (l.otherTeam = none ∨ place = none → Comes (.quantumExpiry k) s (fun t => t.launches.find? k = some { l with quantumEnd := s.cyc + 1 + l.quantum }))) ∧
  (∀ (s : State) (c : Nat) (l : Launch) (p : Stop), s.canSave c = true → (s.core c).stop = some p → s.launchOf? c = some l →
    let k := s.launchKey c
    let isIt (i : Image) : Prop := i.launch = k ∧ i.usr.ctx = (s.usr c).ctx ∧ i.usr.spad = (s.usr c).spad ∧ i.usr.accs = (s.usr c).accs ∧ i.usr.deque = (s.usr c).deque ∧
      ∀ q, s.task? c = some q → q.st = .preempted → i.usr.task = some { q with st := .swapped }
    let l2 := l.setTeam l.cur (if l.teamOver l.cur then .ended else .swapped)
    (∀ c2 ∈ l.rect, c2 ≠ c → (s.core c2).stop ≠ none → Comes (.imageSaved c) s (fun t => t.task? c = none ∧ (t.core c).stop = none ∧
      (p.dest = none → ∃ l' i, t.launches.find? k = some l' ∧ l'.saved = l.saved ++ [i] ∧ isIt i) ∧ ∀ d, p.dest = some d → d ≠ c → ∃ i, (t.core d).biv = some i ∧ isIt i)) ∧
    ((∀ c2 ∈ l.rect, c2 ≠ c → (s.core c2).stop = none) → l.leaving = true → Comes (.imageSaved c) s (fun t => ∃ l', t.launches.find? k = some l' ∧ l'.st = .ready ∧
      l'.readyAt = s.cyc ∧ l'.eff = l.prio ∧ l'.leaving = false ∧ l'.team l.cur = if l.teamOver l.cur then .ended else .swapped)) ∧
    (∀ j, (∀ c2 ∈ l.rect, c2 ≠ c → (s.core c2).stop = none) → l.leaving = false → l2.nextTeam (l2.teams.length + 1) (l.cur + 1) = some j →
      Comes (.imageSaved c) s (fun t => ∃ l', t.launches.find? k = some l' ∧ l'.st = .active ∧ l'.cur = j ∧ l'.team j = .starting))) ∧
  ∀ (s : State) (k : Nat) (l : Launch), s.drained k = true → s.launches.find? k = some l →
    Comes (.launchDrained k) s (fun t => (∃ l', t.launches.find? k = some l' ∧ l'.st = .done ∧ l'.saved = []) ∧ (∀ c ∈ s.coresOf k, t.task? c = none ∧ (t.core c).stop = none) ∧
      t.ests.find? k = (if l.est = none then s.ests.find? k else none) ∧
      (∀ pa, l.donePa = some pa → l.noDone = false → (.glob .K, pa) ∈ t.touched) ∧
      (∀ pa, l.donePa = some pa → l.noDone = false → l.est = none → s.unlocked → (∀ d ∈ s.dies, d.blines = []) → pa + 8 ≤ l.block ∨ l.block + 0x100 ≤ pa →
        (∀ q, s.conts.find? l.block = some q → q.stream.started = []) → t.mem.num pa 8 = (ctrAdd (s.mem.num pa 8) l.amount).1) ∧
      ∀ q x, s.conts.find? l.block = some q → q.stream.started = [x] → x.launch = some k → x.done = false → q.stream.record = 0 →
        ∃ q', t.conts.find? l.block = some q' ∧ q'.progress = min (q.progress + 1) (2 ^ 64 - 1) ∧ q'.stream.started = [])

/-- R161 to R163, R171, R178, R179, R449: a cluster that its home needs is reclaimed, or asked for again after 10 ms, and goes home once it
is bare; a share and a slot-table cell change on their cycle, the highest core's write standing; a partition plan sets
partitions, homes and slot tables; the reset of a partition kills its continuations under a new memory key. -/
def Obligations.PartitionEventResults : Prop :=
  (∀ (s : State) (cl h b : Nat), (s.cluster cl).home = some h → (s.cluster cl).cur = some b → h ≠ b → (s.part b).rprio < (s.part h).rprio → s.anchored cl = false →
    let ls := s.holders (8 * (cl % 8)) (4 * (cl / 8)) 8 4
    let taken (t : State) : Prop := (t.cluster cl).reclaim = true ∧ (t.cluster cl).retryAt = none
    ((s.cluster cl).reclaim = false → ls = [] → Comes (.clusterReclaim cl) s taken) ∧
    (∀ n, (s.cluster cl).reclaim = false → ls = [] → (s.cluster cl).retryAt = some n → n ≤ s.cyc →
      let s1 := s.modCluster cl (fun x => { x with retryAt := none })
      (cl ∈ s1.wantsBack h → Comes (.reclaimRetry cl) s taken) ∧ (cl ∉ s1.wantsBack h → Comes (.reclaimRetry cl) s (fun t => (t.cluster cl).reclaim = false ∧ (t.cluster cl).retryAt = none))) ∧
    (∀ v w, (s.cluster cl).reclaim = false → ls = [v] → s.launches.find? v = some w → w.holds = true → w.team w.cur = .running → s.mayShift w = true →
      let s1 := s.modCluster cl (fun x => { x with reclaim := true, retryAt := none })
      let place := reserve w.rect (s1.advertising w.part) (s1.unitsFree w.block)
      (place = none → Comes (.clusterReclaim cl) s (fun t => (t.cluster cl).retryAt = some (s.cyc + 12000000) ∧ (t.cluster cl).reclaim = false ∧ t.launches.find? v = some w)) ∧
      (∀ r, place = some r → Comes (.clusterReclaim cl) s (fun t => taken t ∧ ∃ w', t.launches.find? v = some w' ∧ w'.leaving = true ∧ w'.team w.cur = .stopping ∧ w'.shifted = some s.cyc)))) ∧
  (∀ (s : State) (cl : Nat), (s.cluster cl).home ≠ (s.cluster cl).cur →
    let empty := s.holders (8 * (cl % 8)) (4 * (cl / 8)) 8 4 = [] ∧ s.anchored cl = false
    let images := ∃ c ∈ clusterCores cl, (s.core c).biv ≠ none
    let rests := empty ∧ (images → (s.cluster cl).reclaim = true ∧ s.canEvict (clusterCores cl) = true) ∧
      (clusterCores cl).all (fun (c : Nat) => s.coreQuiet c && !s.expected c) = true
    (rests → Comes (.clusterReturn cl) s (fun t => (t.cluster cl).cur = (s.cluster cl).home ∧ (t.cluster cl).home = (s.cluster cl).home ∧ (t.cluster cl).reclaim = false ∧
      ((t.cluster cl).gated = true ↔ (s.cluster cl).home = none) ∧ ∀ c ∈ clusterCores cl, (t.core c).biv = none ∧ (s.task? c = none → ∀ o, (t.spad c).rd o = 0))) ∧
    (¬ rests → Comes (.clusterReturn cl) s (fun t => t.clusters = s.clusters))) ∧
  (∀ (s : State) (p : Nat) (x : ShareWr), p < s.parts.length → x ∈ s.shareWrs → x.part = p → x.due ≤ s.cyc →
    Comes (.shareChangeEffect p) s (fun t => Sent t x.core true x.id x.reg (.sc 0) stOK s.cyc ∧ x ∉ t.shareWrs ∧
      ((∀ y ∈ s.shareWrs, y.part = p → y.due ≤ s.cyc → y ≠ x → y.core < x.core) → (t.part p).share = x.share))) ∧
  (∀ (s : State) (d cell : Nat) (x : SlotWr), d < s.dies.length → x ∈ s.slotWrs → x.die = d → x.cell = cell → x.due ≤ s.cyc →
    Comes (.slotCellEffect d cell) s (fun t => Sent t x.core true x.id x.reg (.sc 0) stOK s.cyc ∧ x ∉ t.slotWrs ∧
      ((∀ y ∈ s.slotWrs, y.die = d → y.cell = cell → y.due ≤ s.cyc → y ≠ x → y.core < x.core) → t.cellOwner d (cell / 64) (cell % 64) = x.owner))) ∧
  (∀ (s : State) (plan : Plan), s.parts.length = 16 → Comes (.partitionPlanApply plan) s (fun t => t.plan = plan ∧
    (∀ p y, p < 16 → plan.parts.find? (fun (y : PlanPart) => decide (y.part = p)) = some y →
      (t.part p).en = true ∧ (t.part p).hard = y.hard ∧ (t.part p).rprio = y.rprio ∧ (t.part p).share = y.share ∧ (t.part p).closed = false) ∧
    (∀ p, p < 16 → plan.parts.find? (fun (y : PlanPart) => decide (y.part = p)) = none → (t.part p).en = false) ∧
    (∀ k, k < 64 → (t.cluster k).home = (plan.parts.find? (fun (y : PlanPart) => y.clusters.contains k)).map PlanPart.part ∧
      (s.bare k = true → (t.cluster k).cur = (t.cluster k).home) ∧ (s.bare k = false → (t.cluster k).cur = (s.cluster k).cur)) ∧
    ∀ d, d < s.dies.length → (t.die d).cells = if s.cellsFree plan = true then nth [] plan.cells d else (s.die d).cells)) ∧
  ∀ (s : State) (p k : Nat) (q : Cont), p < 16 → s.conts.find? k = some q → q.part = p → q.st ≠ .free → q.st ≠ .killing → q.st ≠ .dead → q.st ≠ .orphaned →
    Comes (.partitionReset p) s (fun t => t.mod.memKeyGen.find? p = some s.fresh ∧
      ∃ q' f, t.conts.find? k = some q' ∧ q'.st = .killing ∧ q'.xp = true ∧ q'.fault = some f ∧ f.cls = 2 ∧ f.cause = cPARTITION_RESET)

/-! ### Host harts, continuations, registers (R5, R75 to R97, R121, R122, R161, R263, R453) -/

/-- R80, R82, R88, R91 to R97: the twelve instructions of a host hart: what rd receives, what they do to the continuation, when the hart waits
inside them, and the exceptions: an instruction that the hart may not execute is illegal, a block address that is not aligned or
does not translate takes the exception of its load, a pending continuation exception is taken by CPOST and CJOIN. -/
def Obligations.HostInstructionResults : Prop :=
  ∀ (s : State) (h : Nat) (rs1 rs2 rd : BitVec 5), s.actor = .hart h →
    let x := s.hart h
    let va := x.rd rs1.toNat
    let op := (x.rd rs2.toNat).toNat
    let ends (v : Word) (t : State) : Prop := (t.hart h).pc = x.pc + 4 ∧ (t.hart h).wait = .none ∧ (rd ≠ 0 → (t.hart h).rd rd.toNat = v) ∧
      ∀ r, r < 32 → r ≠ rd.toNat → (t.hart h).rd r = x.rd r
    let traps (cause : Nat) (tval : Word) (t : State) : Prop := (t.hart h).scause = BitVec.ofNat 64 cause ∧ (t.hart h).stval = tval ∧ (t.hart h).sepc = x.pc ∧
      (t.hart h).sup = true ∧ (t.hart h).spp = x.sup ∧ (t.hart h).spie = x.sie ∧ (t.hart h).sie = false ∧ (t.hart h).pc = BitVec.ofNat 64 (x.stvec.toNat / 4 * 4) ∧
      ∀ r, r < 32 → (t.hart h).rd r = x.rd r
    let users : List Instr := [.cpost rd rs1, .cjoin rs2 rs1 rd, .cquery rd rs1, .ckill rd]
    let supers : List Instr := [.ccreate rs2 rs1 rd, .cfree rd rs1, .csave rd rs1, .cload rd rs1, .cresume rs2 rs1 rd, .cadopt rd rs1, .cckpt rd rs1]
    let idle (b : Nat) : Prop := ∀ p ∈ s.launches, p.2.block = b → p.2.holds = false
    (x.binding = 0 ∨ s.cont? x.binding = none → ∀ i ∈ users, Comes i s (traps 2 0)) ∧
    (x.sup = false → ∀ i ∈ .cbind rd rs1 :: supers, Comes i s (traps 2 0)) ∧
    (x.sup = true → va.toNat % 256 ≠ 0 → ∀ i ∈ .cbind rd rs1 :: supers, Comes i s (traps 5 va)) ∧
    (∀ code, x.sup = true → va.toNat % 256 = 0 → s.hartPhys h .load va = .inr code → (∀ i ∈ supers, Comes i s (traps code va)) ∧ (va ≠ 0 → Comes (.cbind rd rs1) s (traps code va))) ∧
    (∀ q, x.binding ≠ 0 → s.cont? x.binding = some q → q.block = x.binding →
      let old := s.mem.num (q.block + 0x10) 8
      (q.xp = true → ∀ i ∈ ([.cpost rd rs1, .cjoin rs2 rs1 rd] : List Instr), Comes i s (fun t => traps 24 (BitVec.ofNat 64 q.block) t ∧ ∃ q', t.conts.find? q.block = some q' ∧ q'.xp = false ∧ q'.st = q.st)) ∧
      (q.xp = false → s.hostq ≠ [] → Comes (.cpost rd rs1) s (fun t => t.hart h = { x with wait := .stores } ∧ t.mem = s.mem)) ∧
      (q.xp = false → s.hostq = [] → s.unlocked → Comes (.cpost rd rs1) s (fun t => ends (BitVec.ofNat 64 (max old va.toNat)) t ∧ t.mem.num (q.block + 0x10) 8 = max old va.toNat)) ∧
      (q.xp = false → va.toNat ≤ q.progress ∨ q.st = .killing ∨ q.st = .dead ∨ op = 0 → Comes (.cjoin rs2 rs1 rd) s (ends (joinWord q va))) ∧
      (q.xp = false → q.progress < va.toNat → q.st ≠ .killing → q.st ≠ .dead → op ≠ 0 → Comes (.cjoin rs2 rs1 rd) s (fun t =>
        t.hart h = { x with wait := .join rd.toNat va (if op = 2 ^ 64 - 1 then none else some (s.cyc + (op * 6 + 4) / 5)) })) ∧
      (∀ n, n < 10 → va = BitVec.ofNat 64 n → Comes (.cquery rd rs1) s (ends (BitVec.ofNat 64 (s.cqueryVal q n)))) ∧ (10 ≤ va.toNat → Comes (.cquery rd rs1) s (ends (BitVec.ofNat 64 (2 ^ 64 - 1)))) ∧
      (q.st = .orphaned → Comes (.ckill rd) s (traps 2 0)) ∧ (q.st = .dead → Comes (.ckill rd) s (ends (BitVec.ofNat 64 q.progress))) ∧
      (q.st ≠ .orphaned → q.st ≠ .dead → Comes (.ckill rd) s (fun t => (t.hart h).wait = .kill rd.toNat q.block ∧ ∃ q', t.conts.find? q.block = some q' ∧ q'.st = .killing))) ∧
    (x.sup = true → va = 0 → s.hostq = [] → Comes (.cbind rd rs1) s (fun t => ends (BitVec.ofNat 64 x.binding) t ∧ (t.hart h).binding = 0)) ∧
    (∀ b, x.sup = true → va.toNat % 256 = 0 → s.hartPhys h .load va = .inl b → inHbm b = true → s.hostq ≠ [] →
      (∀ i ∈ supers, Comes i s (fun t => t.hart h = { x with wait := .stores } ∧ t.conts = s.conts)) ∧
      (va ≠ 0 → Comes (.cbind rd rs1) s (fun t => t.hart h = { x with wait := .stores }))) ∧
    (∀ b, x.sup = true → va.toNat % 256 = 0 → s.hartPhys h .load va = .inl b → inHbm b = false → ∀ i ∈ supers, Comes i s (traps 5 va)) ∧
    (∀ b, x.sup = true → va.toNat % 256 = 0 → s.hartPhys h .load va = .inl b → inHbm b = true → s.hostq = [] →
      let word (n : Nat) : Nat := s.mem.num (b + n) 8
      let part := fld (word 0) 16 4
      let anchor := fld (word 0) 32 11
      (va ≠ 0 → Comes (.cbind rd rs1) s (fun t => ends (BitVec.ofNat 64 x.binding) t ∧ (t.hart h).binding = b)) ∧
      (s.cont? b = none →
        (∀ i ∈ ([.cfree rd rs1, .csave rd rs1, .cload rd rs1, .cadopt rd rs1, .cckpt rd rs1] : List Instr), Comes i s (fun t => ends eSTATE t ∧ t.conts = s.conts)) ∧
        (s.badFields b = true → Comes (.ccreate rs2 rs1 rd) s (fun t => ends eFIELD t ∧ t.conts = s.conts)) ∧
        (s.badFields b = false → (s.part part).en = false → Comes (.ccreate rs2 rs1 rd) s (fun t => ends ePART t ∧ t.conts = s.conts)) ∧
        (s.badFields b = false → (s.part part).en = true → (s.cluster (clusterOf anchor)).cur ≠ some part → Comes (.ccreate rs2 rs1 rd) s (fun t => ends eFIELD t ∧ t.conts = s.conts)) ∧
        (s.badFields b = false → (s.part part).en = true → (s.cluster (clusterOf anchor)).cur = some part → s.conts.length < 2 ^ 32 → Comes (.ccreate rs2 rs1 rd) s (fun t =>
          ∃ q, t.conts.find? b = some q ∧ ends (BitVec.ofNat 64 q.cid) t ∧ (∀ p ∈ s.conts, p.2.cid ≠ q.cid) ∧ q.block = b ∧ q.part = part ∧ q.anchor = anchor ∧ q.prio = fld (word 0) 8 5 ∧
            q.sbase = fld (word 8) 12 44 * 2 ^ 12 ∧ q.slog = word 8 % 64 ∧ q.atp = BitVec.ofNat 64 (word 0x40) ∧ q.progress = 0 ∧ q.fetch = 0 ∧ q.drops = 0 ∧ q.fault = none ∧ q.ckgen = 0 ∧
            q.st = (if s.slotFree = true then .idle else .parked) ∧ q.resident = s.slotFree))) ∧
      (∀ q, s.cont? b = some q →
        (Comes (.ccreate rs2 rs1 rd) s (fun t => ends eSTATE t ∧ t.conts = s.conts)) ∧
        (q.st = .idle ∨ q.st = .dead ∨ q.st = .orphaned → Comes (.cfree rd rs1) s (fun t => ends 0 t ∧ t.conts.find? b = none ∧ ∀ k j, t.fab.jobs.find? k = some j → j.holder ≠ b)) ∧
        (q.st ≠ .idle → q.st ≠ .dead → q.st ≠ .orphaned → Comes (.cfree rd rs1) s (fun t => ends eSTATE t ∧ t.conts = s.conts)) ∧
        (q.st = .parked → Comes (.csave rd rs1) s (ends 0)) ∧
        (q.st = .idle ∨ q.st = .running ∨ q.st = .waiting ∨ q.st = .faulted →
          (s.beginPark b = none → Comes (.csave rd rs1) s (ends ePARK)) ∧
          (idle b → q.parking = false → Comes (.csave rd rs1) s (fun t => (t.hart h).wait = .save rd.toNat b ∧ (t.hart h).pc = x.pc ∧
            ∃ q', t.conts.find? b = some q' ∧ q'.st = .parked ∧ q'.pst = q.st ∧ q'.resident = false))) ∧
        (q.st = .killing ∨ q.st = .dead ∨ q.st = .orphaned → Comes (.csave rd rs1) s (ends eSTATE)) ∧
        (q.st ≠ .parked → Comes (.cload rd rs1) s (ends eSTATE)) ∧
        (q.st = .parked → q.ckpt = false → s.anchorReady q = false → Comes (.cload rd rs1) s (ends eNOSLOT)) ∧
        (q.st = .parked → q.ckpt = false → s.anchorReady q = true → s.engineFree = true → q.fate = none → Comes (.cload rd rs1) s (fun t => ends 0 t ∧ ∃ q', t.conts.find? b = some q' ∧ q'.resident = true ∧
          (q.pst = .faulted → q'.st = .faulted ∧ q'.fault = q.fault) ∧
          (q.pst = .idle ∨ q.pst = .running ∨ q.pst = .waiting → q.later = [] → q'.st = .idle ∨ q'.st = .running ∨ q'.st = .waiting))) ∧
        (q.st ≠ .orphaned → Comes (.cadopt rd rs1) s (ends eSTATE)) ∧
        (q.st = .orphaned → atpMode (BitVec.ofNat 64 (word 0x40)) ≠ 10 → Comes (.cadopt rd rs1) s (ends eFIELD)) ∧
        (q.st = .orphaned → atpMode (BitVec.ofNat 64 (word 0x40)) = 10 → Comes (.cadopt rd rs1) s (fun t => ends 0 t ∧ t.conts.find? b = some { q with st := .parked, atp := BitVec.ofNat 64 (word 0x40) })) ∧
        (q.saveable = false → Comes (.cckpt rd rs1) s (ends eSTATE)) ∧
        (q.saveable = true → s.mod.areaLost = true → Comes (.cckpt rd rs1) s (ends eFLASH)) ∧
        (q.saveable = true → s.mod.areaLost = false →
          let ks := s.mod.pending.getD []
          (b ∈ ks → Comes (.cckpt rd rs1) s (fun t => t.hart h = { x with wait := .ckpt rd.toNat } ∧ t.mod.pending = some ks)) ∧
          (b ∉ ks → s.beginPark b = none → Comes (.cckpt rd rs1) s (ends ePARK)) ∧
          (b ∉ ks → s.beginPark b ≠ none → Comes (.cckpt rd rs1) s (fun t => (t.hart h).wait = .ckpt rd.toNat ∧ t.mod.pending = some (ks ++ [b]) ∧
            ∃ q', t.conts.find? b = some q' ∧ q'.ckpt = true)))) ∧
      (2 < op → Comes (.cresume rs2 rs1 rd) s (ends eFIELD)) ∧ (op ≤ 2 → s.cont? b = none → Comes (.cresume rs2 rs1 rd) s (ends eSTATE)) ∧
      (∀ q, op ≤ 2 → s.cont? b = some q →
        (q.st ≠ .faulted → ¬ (q.st = .parked ∧ q.pst = .faulted) → Comes (.cresume rs2 rs1 rd) s (ends eSTATE)) ∧
        (∀ f, q.st = .faulted → q.fault = some f → op = 0 → f.cls = 2 → Comes (.cresume rs2 rs1 rd) s (ends eSTATE)) ∧
        (∀ f, q.st = .parked → q.pst = .faulted → q.fault = some f → op ≤ 1 → (op = 0 → f.cls ≠ 2) → Comes (.cresume rs2 rs1 rd) s (fun t => ends 0 t ∧
          ∃ q', t.conts.find? b = some q' ∧ q'.st = .parked ∧ q'.pst = .running ∧ q'.fate = some op ∧ q'.ap = false ∧ q'.fault = q.fault)) ∧
        (q.st = .faulted → op = 2 → Comes (.cresume rs2 rs1 rd) s (fun t => ∃ q', t.conts.find? b = some q' ∧ q'.st = .killing ∧ q'.ap = false)) ∧
        (∀ f k tile c l k1, q.st = .faulted → q.parking = false → q.later = [] → q.fault = some f → (op = 0 → f.cls ≠ 2) → op ≤ 1 → f.obj = .task k tile → s.launches.find? k = some l →
          s.coreOfTile k tile = some c → s.tileUser k tile = some (s.usr c) → s.task? c = some k1 → k1.st = .trapped → k1.launch = k → k1.tile l = tile → k1.posted = true → (∃ r, k1.trap = some r ∧ r.after = false) →
          Comes (.cresume rs2 rs1 rd) s (fun t => (∃ q', t.conts.find? b = some q' ∧ q'.ap = false ∧ (q'.st = .idle ∨ q'.st = .running ∨ q'.st = .waiting)) ∧
            ∃ k2, t.task? c = some k2 ∧ (op = 0 → k2.st = k1.was ∧ k2.trap = none) ∧ (op = 1 → k2.st = .dropped))) ∧
        (∀ f, q.st = .faulted → q.parking = false → q.later = [] → q.fault = some f → f.cls ≠ 2 → f.obj = .stream → q.stream.st = .fetchFault → op = 0 →
          Comes (.cresume rs2 rs1 rd) s (fun t => ends 0 t ∧ ∃ q', t.conts.find? b = some q' ∧ q'.stream.st ≠ .fetchFault ∧ (q'.st = .idle ∨ q'.st = .running ∨ q'.st = .waiting)))))

/-- R84 to R86, R89, R90, R94, R121, R122, R161, R453: a CJOIN gives up at its limit; a continuation is parked to make room, and unparked into a free
slot; a kill is done; checkpoints start at their interval and complete; attention entries are written as the ring has room; a
call that is complete is delivered, and one that found the ring full is issued again. R5, R260, R261, R263: a supervisor's register
writes, and the stores of the host: in memory at once where the region is the processor's, else when it is. -/
def Obligations.ContinuationEventResults : Prop :=
  (∀ (s : State) (h rd n : Nat) (target : Word) (q : Cont), (s.hart h).wait = .join rd target (some n) → n ≤ s.cyc → s.cont? (s.hart h).binding = some q →
    Comes (.cjoinTimeout h) s (fun t => (t.hart h).pc = (s.hart h).pc + 4 ∧ (t.hart h).wait = .none ∧ (0 < rd → rd < 32 → (t.hart h).rd rd = joinWord q target))) ∧
  (∀ (s : State) (k : Nat) (q : Cont), s.conts.find? k = some q → (∀ p ∈ s.launches, p.2.block = k → p.2.holds = false) → s.parkDue = some k → q.parking = false →
    q.st = .idle ∨ q.st = .running ∨ q.st = .waiting ∨ q.st = .faulted →
    Comes (.contPark k) s (fun t => ∃ q', t.conts.find? k = some q' ∧ q'.st = .parked ∧ q'.pst = q.st ∧ q'.resident = false)) ∧
  (∀ (s : State) (k : Nat) (q : Cont), s.nextWaiting = some q → q.block = k → s.conts.find? k = some q → s.engineFree = true → q.fate = none → Comes (.contUnpark k) s (fun t =>
    ∃ q', t.conts.find? k = some q' ∧ q'.resident = true ∧ (q.pst = .faulted → q'.st = .faulted ∧ q'.fault = q.fault) ∧
      (q.pst = .idle ∨ q.pst = .running ∨ q.pst = .waiting → q.later = [] → q'.st = .idle ∨ q'.st = .running ∨ q'.st = .waiting))) ∧
  (∀ (s : State) (k : Nat) (q : Cont), s.conts.find? k = some q → q.st = .killing → s.killComplete k = true → (s.harts.map Prod.fst).Nodup → Comes (.killDone k) s (fun t =>
    (∃ q', t.conts.find? k = some q' ∧ q'.st = .dead ∧ q'.ap = false ∧ q'.xp = false) ∧
    ∀ h rd, (s.hart h).wait = .kill rd k → (t.hart h).pc = (s.hart h).pc + 4 ∧ (t.hart h).wait = .none ∧ (0 < rd → rd < 32 → (t.hart h).rd rd = BitVec.ofNat 64 q.progress))) ∧
  (∀ (s : State) (n : Nat), s.mod.ckNext = some n → n ≤ s.cyc → s.mod.interval ≠ 0 → s.mod.pending = none → Comes .checkpointInterval s (fun t =>
    t.mod.ckNext = some (s.cyc + 1200000 * s.mod.interval) ∧ (∃ ks, t.mod.pending = some ks ∧ ∀ k ∈ ks, k ∈ s.conts.map Prod.fst) ∧
    ∀ k q, s.conts = [(k, q)] → q.saveable = true → s.beginPark k ≠ none → t.mod.pending = some [k])) ∧
  (∀ (s : State) (ks : List Nat), s.mod.pending = some ks → s.ckptReady = true → ks.Nodup → (s.harts.map Prod.fst).Nodup → (s.mod.areaLost = true → Comes .checkpointComplete s (fun t =>
    t.mod.gen = s.mod.gen ∧ t.mod.ckpt = s.mod.ckpt ∧ t.mod.pending = none ∧ ∀ h rd, (s.hart h).wait = .ckpt rd → 0 < rd → rd < 32 → (t.hart h).rd rd = eFLASH)) ∧
    (s.mod.areaLost = false → Comes .checkpointComplete s (fun t =>
    t.mod.gen = s.mod.gen + 1 ∧ t.mod.pending = none ∧ (∃ g, t.mod.ckpt = some g ∧ g.gen = s.mod.gen + 1 ∧
      ∀ k ∈ ks, ∀ q, s.conts.find? k = some q → q.st = .parked ∨ q.st = .orphaned → (∃ x ∈ g.conts, x.cont.block = q.block ∧ x.cont.ckgen = q.ckgen + 1) ∧
        ∃ q', t.conts.find? k = some q' ∧ q'.ckgen = q.ckgen + 1 ∧ q'.ckpt = false) ∧
    ∀ h rd, (s.hart h).wait = .ckpt rd → (t.hart h).pc = (s.hart h).pc + 4 ∧ (t.hart h).wait = .none ∧ (0 < rd → rd < 32 → (t.hart h).rd rd = 0)))) ∧
  (∀ (s : State) (p k cause : Nat), p < s.parts.length → (s.part p).waiting = [(k, cause)] → (s.part p).ring ≠ 0 → cause < 64 →
    let pa := (s.part p).ring + 8 * (s.part p).next
    (s.unlocked → s.mem.num pa 8 / 2 ^ 7 % 2 = 0 → Comes (.attentionRetry p) s (fun t => t.mem.num pa 8 = k / 256 * 256 % 2 ^ 56 + 2 ^ 7 + cause ∧
      (t.part p).next = ((s.part p).next + 1) % 256 ∧ (t.part p).waiting = [] ∧ ((s.part p).hart < 192 → (t.hart (s.part p).hart).sipBits.getLsbD 20 = true))) ∧
    (s.mem.num pa 8 / 2 ^ 7 % 2 = 1 → Comes (.attentionRetry p) s (fun t => t.parts = s.parts ∧ t.mem = s.mem ∧ t.harts = s.harts))) ∧
  (∀ (s : State) (p : Nat) (v : Word), p < 16 → s.parts.length = 16 → Comes (.faultSteeringWrite p v) s (fun t =>
    (t.part p).ring = fld v.toNat 11 45 * 2 ^ 11 ∧ (t.part p).hart = v.toNat % 256 ∧
    (192 ≤ (s.part p).hart → v.toNat % 256 < 192 → fld v.toNat 11 45 ≠ 0 → (∃ i, i < 256 ∧ (s.mem.num (fld v.toNat 11 45 * 2 ^ 11 + 8 * i) 8).testBit 7 = true) →
      (t.hart (v.toNat % 256)).sipBits.getLsbD 20 = true))) ∧
  (∀ (s : State) (k c : Nat) (q : Cont) (x : SysCall), s.conts.find? k = some q → q.stream.calls.filter (s.callDone q) = [x] → s.coreWaiting x.id = some c → Comes (.sysCompletion k) s (fun t =>
    Sent t c false x.id x.reg (.sc (BitVec.ofNat 64 (s.ringRd q (q.slotAt x.n + 0x18)))) (BitVec.ofNat 4 (s.ringRd q (q.slotAt x.n + 0x10))) s.cyc ∧
    ∃ q', t.conts.find? k = some q' ∧ q'.stream.calls = q.stream.calls.filter (fun (y : SysCall) => !s.callDone q y))) ∧
  (∀ (s : State) (c : Nat) (q : Cont) (k : Task) (r : TrapRec), s.contOf? c = some q → s.task? c = some k → k.st = .trapped → k.trap = some r → r.cause = cSYS_RING_FULL → s.ringFull q = false →
    Comes (.sysReissue c) s (fun t => t.task? c = some { k with st := k.was, trap := none, posted := false } ∧ (t.ctx c false).pc = (s.ctx c false).pc)) ∧
  (∀ (s : State) (v : Word), Comes (.registerWrite 0x100 v) s (fun t => t.shoot.va = v ∧ t.shoot.go = s.shoot.go) ∧
    (∀ p, p < s.parts.length → p < 16 → v.toNat / 2 ^ 16 = 0 → Comes (.registerWrite (0x408 + 0x40 * p) v) s (fun t => (t.part p).dbg = v.getLsbD 2 ∧ (t.part p).share = (s.part p).share)) ∧
    (∀ n, n < 96 → Comes (.registerWrite (0x2000 + 8 * n) v) s (fun t => (t.port' n).retry = Nat.land (s.port' n).retry (2 ^ 32 - 1 - v.toNat / 2 ^ 16 % 2 ^ 32))) ∧
    Comes (.registerWrite 0x4000 v) s (fun t => t.mod.interval = v.toNat % 2 ^ 32 ∧ t.mod.ckNext = if v.toNat % 2 ^ 32 = 0 then none else some (s.cyc + 1200000 * (v.toNat % 2 ^ 32)))) ∧
  ∀ (s : State) (pa : Nat) (bytes : List Byte), bytes ≠ [] →
    let last := pa + bytes.length - 1
    (inHbm pa = true → inHbm last = true → s.hostq = [] → s.unlocked → (∀ r ∈ regionsOf pa bytes.length, (s.region (r * 2 ^ 21)).st = .proc) → (∀ i, s.postByte (pa + i) = false) →
      Comes (.hostStore pa bytes) s (fun t => t.mem.rdN pa bytes.length = bytes ∧ (∀ a, a < pa ∨ pa + bytes.length ≤ a → t.mem.rd a = s.mem.rd a) ∧ t.hostq = [])) ∧
    (∀ r, inHbm pa = true → inHbm last = true → s.hostq = [] → regionsOf pa bytes.length = [r] → (s.region (r * 2 ^ 21)).st ≠ .proc →
      Comes (.hostStore pa bytes) s (fun t => t.mem = s.mem ∧ t.hostq = [(pa, bytes)] ∧ (t.region (r * 2 ^ 21)).wantP = true)) ∧
    (bytes.length = 8 → pa % 8 = 0 → ctlPage ≤ pa → pa + 8 ≤ ctlPage + 2 ^ 16 → Comes (.hostStore pa bytes) s (fun t =>
      t.agenda = .event (ctlWrite (pa - ctlPage) (BitVec.ofNat 64 (ofBytesLE bytes))) :: s.agenda ∧ t.mem = s.mem)) ∧
    ((inHbm pa = false ∨ inHbm last = false) → ¬ (ctlPage ≤ pa ∧ pa + bytes.length ≤ ctlPage + 2 ^ 16) → exec (.hostStore pa bytes) s = .fault (.noMemory pa))

/-! ### Streams (R98 to R122, R309, R310, R457) -/

/-- R101 to R117, R309, R310: what each packet does when it starts, or under P when the predicate is false; a packet that does not pass
the checks stops its stream as a bad packet, and one whose words do not translate as a fetch fault. -/
def Obligations.PacketResults : Prop :=
  (∀ (s : State) (k : Nat) (q : Cont) (h : Nat) (r : Scan), AtPacket s k q h r →
    let s1 := s.fill k
    let i := q.stream.next
    let n := i + pkLen h
    let ty := pkType h
    let x : Started := { ty := ty, tag := pkTag h, depth := q.stream.depth, off := i, hdr := BitVec.ofNat 64 h, over' := pkO h }
    let skip := pkP h = true ∧ q.stream.pred = false
    let apart (pa m : Nat) : Prop := pa + m ≤ k ∨ k + 0x100 ≤ pa
    let starts (y : Started) (t : State) (p : Stream → Prop) : Prop := ∃ q', t.conts.find? k = some q' ∧ q'.stream.next = (q.stream.advance n).next ∧ q'.progress = q.progress ∧
      q'.stream.started = q.stream.started ++ [y] ∧ p q'.stream
    let bad (cause : Nat) (t : State) : Prop := (∃ q', t.conts.find? k = some q' ∧ q'.stream.st = .bad ∧ q'.progress = q.progress) ∧ t.holdsFault k 2 cause 0
    (skip → ty ≠ 6 → Comes (pktEvent ty k) s (fun t => Passes t k q n (fun u => u.pred = false ∧ u.skpk = q.stream.skpk) ∧ t.launches = s.launches)) ∧
    (skip → ty = 6 → 1 ≤ r.get 2 → r.get 2 ≤ 128 → Comes (.pktLoop k) s (fun t => Passes t k q (n + r.get 2) (fun u => u.pred = false))) ∧
    (¬ skip → (q.stream.started.all (fun (y : Started) => !y.done)) = true →
      (ty = 1 → Comes (.pktNop k) s (fun t => Passes t k q n (fun u => u.pred = q.stream.pred))) ∧
      (∀ l, ty = 2 → s1.launchOf q r q.prio q.prio = .ok l → Comes (.pktLaunch k) s (fun t => starts { x with launch := some s.nextLaunch } t (fun _ => True) ∧
        t.nextLaunch = s.nextLaunch + 1 ∧ ∃ l', t.launches.find? s.nextLaunch = some l' ∧ l'.st = .ready ∧ l'.readyAt = s.cyc ∧ l'.block = l.block ∧ l'.image = l.image ∧ l'.args = l.args ∧ l'.prio = l.prio)) ∧
      (∀ pa, ty = 3 → s1.vCounter q.atp (r.get 1) false = .ok pa → Comes (.pktWait k) s (fun t =>
        starts { x with src := pa, dst := r.get 2, len := if r.get 3 = 0 then 0 else s.cyc + 1200 * r.get 3 } t (fun u => u.waiting = true ∧ u.pred = q.stream.pred))) ∧
      (∀ pa, ty = 4 → s1.vCounter q.atp (r.get 1) true = .ok pa → Comes (.pktSignal k) s (fun t => Passes t k q n (fun u => u.pred = q.stream.pred) ∧ (.glob .K, pa) ∈ t.touched ∧
        (s.unlocked → apart pa 8 → q.stream.record = 0 → t.mem.num pa 8 = (ctrAdd (s.mem.num pa 8) (r.get 2)).1))) ∧
      (∀ v, ty = 5 → r.get 1 % 8 = 0 → r.get 3 ≤ 5 → s1.vNum q.atp (r.get 1) 8 = .ok v → Comes (.pktPred k) s (fun t => Passes t k q n (fun u =>
        u.pred = predOp (r.get 3) (BitVec.ofNat 64 v &&& BitVec.ofNat 64 ((r.opt 4).getD (2 ^ 64 - 1))) (BitVec.ofNat 64 (r.get 2))))) ∧
      (ty = 6 → 1 ≤ r.get 1 → r.get 1 ≤ 65535 → 1 ≤ r.get 2 → r.get 2 ≤ 128 → q.stream.loops.length < 2 → (∀ e, q.stream.bound = some e → n + r.get 2 ≤ e) → Comes (.pktLoop k) s (fun t =>
        ∃ q' l ls, t.conts.find? k = some q' ∧ q'.stream.next = n ∧ q'.stream.loops = l :: ls ∧ l.depth = q.stream.depth ∧ l.start = n ∧ l.len = r.get 2 ∧ l.passes = r.get 1)) ∧
      (ty = 7 → q.stream.levels ≠ [] → r.get 1 % 8 = 0 → 1 ≤ r.get 2 → r.get 2 ≤ 2 ^ 24 → q.stream.depth < 4 → Comes (.pktCall k) s (fun t => ∃ q', t.conts.find? k = some q' ∧
        q'.stream.depth = q.stream.depth + 1 ∧ q'.stream.top.base = r.get 1 ∧ q'.stream.top.size = r.get 2 ∧ q'.stream.next = 0 ∧ (q'.stream.level q.stream.depth).next = n ∧ q'.progress = q.progress)) ∧
      (ty = 7 → r.get 1 % 8 = 0 → 1 ≤ r.get 2 → r.get 2 ≤ 2 ^ 24 → 4 ≤ q.stream.depth → q.parking = false → Comes (.pktCall k) s (bad cSTREAM_IB_DEPTH)) ∧
      (∀ y, ty = 8 → 1 ≤ q.stream.depth → q.stream.inner i = none → q.stream.top.call = some y → q.stream.started = [] → q.stream.record = 0 → Comes (.pktReturn k) s (fun t => ∃ q', t.conts.find? k = some q' ∧
        q'.stream.depth = q.stream.depth - 1 ∧ q'.progress = min (q.progress + 2) (2 ^ 64 - 1) ∧ q'.stream.started = [])) ∧
      (ty = 8 → q.stream.depth = 0 → q.parking = false → Comes (.pktReturn k) s (bad cSTREAM_BADPKT)) ∧
      (ty = 9 → Comes (.pktFfence k) s (fun t => Passes t k q n (fun u => u.refill = true ∧ ∀ j, n ≤ j → u.window.find? j = none))) ∧
      (ty = 0xA → r.get 1 % 32 = 0 →
        let record := (r.opt 1).getD q.stream.record
        Comes (.pktMark k) s (fun t => Passes t k q n (fun u => u.record = record) ∧
          ∀ pa y, record ≠ 0 → q.stream.started = [] → record < 2 ^ 56 → s1.walk none q.atp record true true = .ok y → y.attr ≠ .K → y.phys record = pa → s.unlocked → apart pa 32 → q.progress + 1 < 2 ^ 64 → q.stream.depth ≤ 4 →
            t.mem.num pa 8 = q.progress + 1 ∧ t.mem.num (pa + 8) 8 = i % 2 ^ 26 + 2 ^ 26 * q.stream.st.code + 2 ^ 29 * q.stream.depth + 2 ^ 32 * pkTag h)) ∧
      (ty = 0xB → r.get 1 % 8 = 0 → r.get 2 % 8 = 0 → 1 ≤ r.get 3 → r.get 3 ≤ 2 ^ 40 →
        (r.has 4 = false → Comes (.pktCopy k) s (fun t => starts { x with src := r.get 1, dst := r.get 2, len := r.get 3, amount := nth 0 (r.data 4) 1 } t (fun _ => True))) ∧
        (∀ pa, r.has 4 = true → s1.vCounter q.atp (nth 0 (r.data 4) 0) true = .ok pa → Comes (.pktCopy k) s (fun t =>
          starts { x with src := r.get 1, dst := r.get 2, len := r.get 3, donePa := some pa, amount := nth 0 (r.data 4) 1 } t (fun _ => True)))) ∧
      (∀ b, ty = 0xC → q.binds.length = 64 → r.get 1 < 64 → r.get 3 < 256 → r.get 4 / 2 ^ 56 = 0 → bindOf (r.get 2) (r.get 4 + 2 ^ 56 * r.get 3) = some b → Comes (.pktBind k) s (fun t =>
        Passes t k q n (fun _ => True) ∧ ∃ q', t.conts.find? k = some q' ∧ nth {} q'.binds (r.get 1) = (if r.get 3 = 0 then {} else b) ∧ ∀ j, j ≠ r.get 1 → nth {} q'.binds j = nth {} q.binds j)) ∧
      (ty = 0 ∨ 12 < ty → Comes (.pktUnknown k) s (fun t => Passes t k q n (fun u => u.skpk = q.stream.skpk + 1 ∧ u.pred = q.stream.pred))))) ∧
  ∀ (s : State) (k : Nat) (q0 q : Cont) (h : Nat), s.conts.find? k = some q0 → q0.streaming = true → q0.stream.headReady = true → q0.stream.live < 16 → q0.parking = false → (s.fill k).conts.find? k = some q →
    (∀ ok, (s.fill k).look q = .bad h ok → Comes (pktEvent (pkType h) k) s (fun t => (∃ q', t.conts.find? k = some q' ∧ q'.stream.st = .bad) ∧ t.holdsFault k 2 cSTREAM_BADPKT 0)) ∧
    (∀ a, (s.fill k).look q = .fault a (some h) → Comes (pktEvent (pkType h) k) s (fun t => (∃ q', t.conts.find? k = some q' ∧ q'.stream.st = .fetchFault) ∧
      t.holdsFault k 3 cSTREAM_FETCH_FAULT (BitVec.ofNat 64 a)))

/-- R107, R110, R114 to R116, R309, R457: the steps of a stream that are no packet: the return at the end of a buffer, reading ahead with the fault of a
header that is needed, the refill after an FFENCE, the end of a WAIT by its counter or its limit, the bytes of a COPY, its end
with its DONE add, and its fault. -/
def Obligations.StreamEventResults : Prop :=
  (∀ (s : State) (k : Nat) (q : Cont) (y : Started), s.conts.find? k = some q → q.streaming = true → q.stream.headReady = true → s.look q = .ret → q.stream.top.call = some y →
    q.stream.started = [] → q.stream.record = 0 → Comes (.implicitReturn k) s (fun t => ∃ q', t.conts.find? k = some q' ∧ q'.stream.depth = q.stream.depth - 1 ∧
      q'.progress = min (q.progress + 1) (2 ^ 64 - 1) ∧ q'.stream.started = [])) ∧
  (∀ (s : State) (k : Nat) (q : Cont), s.conts.find? k = some q → q.streaming = true → q.stream.loops = [] → q.stream.capturing = false →
    Comes (.streamWindowRefill k) s (fun t => ∃ q', t.conts.find? k = some q' ∧ q'.progress = q.progress ∧
      ∀ i w, q.stream.next ≤ i → i < q.stream.next + 128 → i < s.fetchEnd q → (∀ j, q.stream.next ≤ j → j ≤ i → ∃ v, s.pktWord q j = .ok v) → s.pktWord q i = .ok w → q'.stream.window.find? i = some w)) ∧
  (∀ (s : State) (k a : Nat) (q : Cont), s.conts.find? k = some q → q.streaming = true → q.stream.loops = [] → q.stream.capturing = false → q.stream.headReady = true → q.parking = false →
    q.stream.next < s.fetchEnd q → q.stream.window.find? q.stream.next = none → s.pktWord q q.stream.next = .fault a →
    Comes (.streamWindowRefill k) s (fun t => (∃ q', t.conts.find? k = some q' ∧ q'.stream.st = .fetchFault) ∧ t.holdsFault k 3 cSTREAM_FETCH_FAULT (BitVec.ofNat 64 a))) ∧
  (∀ (s : State) (k : Nat) (q : Cont), s.conts.find? k = some q → q.streaming = true → q.stream.refill = true → Comes (.ffenceRefill k) s (fun t => ∃ q', t.conts.find? k = some q' ∧
    q'.stream.refill = false ∧ q'.progress = q.progress)) ∧
  (∀ (s : State) (k : Nat) (q : Cont) (x : Started), s.conts.find? k = some q → q.streaming = true → q.stream.wait? = some x →
    let ends (v : Bool) (t : State) : Prop := ∃ q', t.conts.find? k = some q' ∧ q'.stream.waiting = false ∧ q'.stream.pred = v ∧
      (q.stream.started = [x] → q.stream.record = 0 → q'.progress = min (q.progress + 1) (2 ^ 64 - 1) ∧ q'.stream.started = [])
    (x.dst ≤ s.mem.num x.src 8 → Comes (.waitSatisfied k) s (ends true)) ∧
    (s.mem.num x.src 8 < x.dst → x.len ≠ 0 → x.len ≤ s.cyc → Comes (.waitPacketTimeout k) s (ends false))) ∧
  (∀ (s : State) (k : Nat) (q : Cont) (x : Started) (rest : List Turn), s.agenda = .hubCopy k :: rest → s.conts.find? k = some q → q.stream.started.find? Started.moving = some x →
    (∀ off n pa pb, s.copyNext q x = .move off n pa pb → overlapOf (x.dst + off) n x.src x.len = none → s.unlocked → ∃ t, step s = .next t ∧ t.mem.rdN pb n = s.mem.rdN pa n ∧
      (∀ a, a < pb ∨ pb + n ≤ a → t.mem.rd a = s.mem.rd a) ∧ ∃ q', t.conts.find? k = some q' ∧ { x with pos := x.pos + n, since := none } ∈ q'.stream.started) ∧
    (∀ pa va, s.copyNext q x = .wait pa va → ∃ t, step s = .next t ∧ t.mem = s.mem ∧ ∃ q' y, t.conts.find? k = some q' ∧ y ∈ q'.stream.started ∧ y.pos = x.pos ∧ y.since ≠ none)) ∧
  (∀ (s : State) (k : Nat) (q : Cont) (x : Started), s.conts.find? k = some q → q.st ≠ .killing → q.st ≠ .dead → q.stream.started = [x] → x.full = true → q.stream.record = 0 →
    Comes (.copyPacketComplete k) s (fun t => (∃ q', t.conts.find? k = some q' ∧ q'.progress = min (q.progress + 1) (2 ^ 64 - 1) ∧ q'.stream.started = []) ∧
      ∀ pa, x.donePa = some pa → (.glob .K, pa) ∈ t.touched ∧ (s.unlocked → pa + 8 ≤ k ∨ k + 0x100 ≤ pa → t.mem.num pa 8 = (ctrAdd (s.mem.num pa 8) x.amount).1))) ∧
  ∀ (s : State) (k cause a : Nat) (q : Cont) (x : Started), s.conts.find? k = some q → s.takesFaults k → q.stream.started.find? Started.moving = some x → s.copyNext q x = .fault cause a →
    Comes (.copyPacketFault k) s (fun t => t.holdsFault k (classOf cause) cause (BitVec.ofNat 64 a) ∧ ∃ q', t.conts.find? k = some q' ∧ { x with paused := true, since := none } ∈ q'.stream.started)

/-! ### The module (R165, R443 to R455) -/

/-- R444 to R446: an update takes an image into the slot that is not active, checks it, marks it, and activates it as every lantern
context switches. R448, R451: a tenant's key gets its handle, and the four measurements are answered. R452, R453: after power-on
no core has a task, the image of a slot that passes the check runs, the plan is applied, and the continuations of the newest
checkpoint are ORPHANED; with no such image only the update service runs. R454: the throttle follows the power windows. R455: a
thermal trip takes the power away, and nothing runs. -/
def Obligations.ModuleEventResults : Prop :=
  (∀ s : State, s.mod.slots.length = 2 → s.mod.activeSlot < 2 → s.mod.updSlot < 2 →
    let m := s.mod
    let same (t : State) : Prop := t.mod = m
    (m.upd = .none ∨ m.upd = .active ∨ m.upd = .rejected → Comes .pldmRequestUpdate s (fun t => t.mod.upd = .receiving ∧ t.mod.updSlot = 1 - m.activeSlot ∧
      t.mod.slot (1 - m.activeSlot) = {} ∧ t.mod.slot m.activeSlot = m.slot m.activeSlot)) ∧
    (m.upd = .receiving ∨ m.upd = .verified ∨ m.upd = .staged ∨ m.upd = .activating → Comes .pldmRequestUpdate s same) ∧
    (∀ bs, m.upd = .receiving → Comes (.imageTransferComplete bs) s (fun t =>
      (imageOk m.minSvn bs = true → t.mod.upd = .verified ∧
        t.mod.slot m.updSlot = { bytes := bs, valid := true, svn := ofBytesLE ((bs.drop 4).take 4), digest := (bs.drop 0x10).take 32 }) ∧
      (imageOk m.minSvn bs = false → t.mod.upd = .rejected ∧ (t.mod.slot m.updSlot).valid = false))) ∧
    (∀ bs, m.upd = .receiving → bs.length < 256 ∨ ofBytesLE (bs.take 4) ≠ 0x4B473946 ∨ ofBytesLE ((bs.drop 4).take 4) < m.minSvn ∨
        bs.length ≠ 256 + ofBytesLE ((bs.drop 8).take 8) ∨ nats ((bs.drop 0x10).take 32) ≠ sha256 (nats (bs.drop 256)) →
      Comes (.imageTransferComplete bs) s (fun t => t.mod.upd = .rejected ∧ (t.mod.slot m.updSlot).valid = false)) ∧
    (m.upd = .receiving → Comes .imageTransferAborted s (fun t => t.mod.upd = .rejected ∧ t.mod.slot m.updSlot = {})) ∧
    (m.upd = .verified → Comes .pldmApplyComplete s (fun t => t.mod.upd = .staged ∧ t.mod.slot m.updSlot = { m.slot m.updSlot with pending := true })) ∧
    (m.upd = .staged → Comes .pldmActivateFirmware s (fun t => t.mod.upd = .activating ∧ t.mod.imageGen = m.imageGen + 1 ∧ t.mod.slots = m.slots)) ∧
    (m.upd = .receiving ∨ m.upd = .verified ∨ m.upd = .staged → Comes .pldmCancelUpdate s (fun t => t.mod.upd = .none ∧ t.mod.slot m.updSlot = {})) ∧
    (∀ c, s.switchDue c = true → Comes (.lanternImageSwitch c) s (fun t => (t.core c).lan.image = m.imageGen ∧
      let all := ∀ k, k < 64 → (s.cluster k).cur ≠ none → ∀ c2 ∈ clusterCores k, c2 ≠ c → (s.core c2).lan.image = m.imageGen
      (all → t.mod.upd = .active ∧ t.mod.activeSlot = m.updSlot ∧ t.mod.minSvn = max m.minSvn (m.slot m.updSlot).svn ∧ (t.mod.slot m.updSlot).pending = false) ∧ (¬ all → t.mod = m)))) ∧
  (∀ s : State, s.mod.slots.length = 2 → Comes .powerOn s (fun t => t.mod.booted = true ∧ t.mod.powered = true ∧ t.cyc = 0 ∧ (∀ c, t.task? c = none) ∧ t.mod.dump = s.mod.dump ∧ t.mod.keys = [] ∧
    t.mod.interval = 0 ∧ t.mod.throttle = none ∧
    (s.mod.restart.bootSlot = none → t.mod.onlyPldm = true ∧ t.conts = [] ∧ t.cores = []) ∧
    ∀ n, s.mod.restart.bootSlot = some n → t.mod.onlyPldm = false ∧ t.mod.activeSlot = n ∧ (∀ p, p < 16 → t.mod.memKeyGen.find? p ≠ none) ∧ (∀ p, p < 96 → (t.port' p).st = .training) ∧
      (∀ p y, p < 16 → s.plan.parts.find? (fun (y : PlanPart) => decide (y.part = p)) = some y → (t.part p).en = true ∧ (t.part p).rprio = y.rprio) ∧
      (s.mod.ckpt = none → t.conts = [] ∧ t.launches = [] ∧ t.mod.gen = 0) ∧
      ∀ g, s.mod.ckpt = some g → t.mod.gen = g.gen ∧ ∀ x ∈ g.conts, ∃ q, t.conts.find? x.cont.block = some q ∧ q.st = .orphaned ∧ q.resident = false)) ∧
  (∀ s : State, Comes .spdmGetMeasurements s (fun t => t.mod = s.mod ∧ ∃ a b c d, t.answers = s.answers ++ [(1, a), (2, b), (3, c), (4, d)] ∧ a = Config.romDigest ∧
    ((s.mod.slot s.mod.activeSlot).digest ≠ [] → b = (s.mod.slot s.mod.activeSlot).digest) ∧ d = toBytesLE 4 (s.mod.slot s.mod.activeSlot).svn)) ∧
  (∀ (s : State) (p cls : Nat) (bits : BitVec 256),
    let handle := BitVec.ofNat 64 (p * 2 ^ 60 + cls * 2 ^ 58 + s.mod.serial)
    (p < 16 → cls < 2 → s.mod.serial < 2 ^ 32 → Comes (.spdmKeyInstall p cls bits) s (fun t => t.keyValid handle = true ∧ t.mod.serial = s.mod.serial + 1 ∧
      t.mod.keys = s.mod.keys ++ [{ handle := handle, bits := bits }] ∧ t.answers = s.answers ++ [(p, toBytesLE 8 handle.toNat)])) ∧
    (16 ≤ p ∨ 2 ≤ cls → Comes (.spdmKeyInstall p cls bits) s (fun t => t.mod = s.mod))) ∧
  (∀ (s : State) (watts : Nat),
    let m := s.mod
    (m.cap < watts → Comes (.throttleWindow watts) s (fun t => t.mod.throttle = some (match m.throttle with | none => 6 | some n => max 1 (n - 1)) ∧ t.mod.below = 0)) ∧
    (watts < m.cap → m.below < 9 → Comes (.throttleWindow watts) s (fun t => t.mod.throttle = m.throttle ∧ t.mod.below = m.below + 1)) ∧
    (watts < m.cap → 9 ≤ m.below → Comes (.throttleWindow watts) s (fun t => t.mod.below = 0 ∧ (m.throttle = none → t.mod.throttle = none) ∧
      ∀ n, m.throttle = some n → t.mod.throttle = if 6 ≤ n then none else some (n + 1))) ∧
    (watts = m.cap → Comes (.throttleWindow watts) s (fun t => t.mod = m))) ∧
  ∀ (s : State) (d : Nat), (d < 4 → Comes (.thermalTrip d) s (fun t => t.mod.powered = false ∧ t.mod.booted = false ∧ t.agenda = [] ∧ t.mod.dump = s.mod.dump ∧ step t = .fault .noPower)) ∧
    (4 ≤ d → Comes (.thermalTrip d) s (fun t => t.mod = s.mod))

/-- R165, R161, R260, R452 with the model's own choices (log 1, log 3): at module reset no cell of a slot table is owned, every region of memory is
the processor's, SHARE is 6 and no hart is named; no byte of memory is determined; and the next step is POWER_ON. -/
def Obligations.ResetState : Prop :=
  (∀ d row lane, State.reset.cellOwner d row lane = 0x1F) ∧ (∀ pa, (State.reset.region pa).st = .proc) ∧
  (∀ p, p < 16 → (State.reset.part p).share = 6 ∧ (State.reset.part p).hart = 0xFF ∧ (State.reset.part p).ring = 0 ∧ (State.reset.part p).next = 0 ∧ (State.reset.part p).en = false ∧ (State.reset.part p).dbg = false) ∧
  State.reset.cyc = 0 ∧ State.reset.conts = [] ∧ State.reset.launches = [] ∧ State.reset.mod.booted = false ∧ State.reset.mod.interval = 0 ∧ State.reset.mod.gen = 0 ∧
  (∀ c, State.reset.task? c = none) ∧ State.reset.memWf = true ∧ (∀ pa, pa < 2 ^ 64 → State.reset.mem.rd pa = Config.freeByte 0 pa) ∧ step State.reset = exec .powerOn State.reset

/-- The canonical form of every memory of the package is kept by the operations through which agents write (log 1): a write of any agent,
of a core at a place, of a counter, of a die cache, a fresh memory key, and the steps that perform accesses. -/
def Obligations.MemoryKeepsItsForm : Prop :=
  ∀ s : State, s.memWf = true →
    (∀ pa bs, (s.storeMem pa bs).memWf = true) ∧ (∀ c p pa bs, (s.wrPlace c p pa bs).memWf = true) ∧ (∀ p pa v, (s.putWord p pa v).memWf = true) ∧
    (∀ pa n, (s.counterAdd pa n).2.2.memWf = true) ∧ (∀ d line, (s.writeBack d line).memWf = true) ∧ (∀ p, (s.newMemKey p).memWf = true) ∧
    (∀ c id, Comes (.storePerform c id) s (fun t => t.memWf = true) ∧ Comes (.loadPerform c id) s (fun t => t.memWf = true) ∧ Comes (.regionDirectoryAccess c id) s (fun t => t.memWf = true)) ∧
    ∀ c, Comes (.barrierBankService c) s (fun t => t.memWf = true) ∧ Comes (.gatedUnitWake c) s (fun t => t.memWf = true)

end
end

