-- ==== Sys2Proof/Laws/Tables.lean ====
section
/-! SUPPORT. The laws of the plain containers: tables by number, lists by position. -/
namespace Sys2Proof

namespace Tab

variable {α : Type}

/-- A put entry is found. -/
@[simp] theorem find?_put_same (t : Tab α) (n : Nat) (x : α) : find? (put t n x) n = some x := by
  induction t with
  | nil => simp [put, find?]
  | cons h t ih =>
    obtain ⟨k, v⟩ := h
    simp only [put]
    split
    · simp [find?]
    · split
      · simp [find?]
      · next h1 h2 => simp [find?, Ne.symm h2, ih]

/-- A put entry leaves the others. -/
theorem find?_put_other (t : Tab α) {n m : Nat} (x : α) (h : n ≠ m) : find? (put t n x) m = find? t m := by
  induction t with
  | nil => simp [put, find?, h]
  | cons e t ih =>
    obtain ⟨k, v⟩ := e
    simp only [put]
    split
    · simp [find?, h]
    · split
      · next h2 => subst h2; simp [find?, h]
      · simp [find?, ih]

@[simp] theorem getD_put_same (t : Tab α) (n : Nat) (x d : α) : getD (put t n x) n d = x := by simp [getD]

theorem getD_put_other (t : Tab α) {n m : Nat} (x d : α) (h : n ≠ m) : getD (put t n x) m d = getD t m d := by
  simp [getD, find?_put_other t x h]

@[simp] theorem find?_upd_same (t : Tab α) (n : Nat) (f : α → α) : find? (upd t n f) n = (find? t n).map f := by
  induction t with
  | nil => simp [upd, find?]
  | cons e t ih =>
    obtain ⟨k, v⟩ := e
    simp only [upd, find?]
    split
    · next h => simp [find?, h]
    · next h => simp [find?, h, ih]

theorem find?_upd_other (t : Tab α) {n m : Nat} (f : α → α) (h : n ≠ m) : find? (upd t n f) m = find? t m := by
  induction t with
  | nil => simp [upd, find?]
  | cons e t ih =>
    obtain ⟨k, v⟩ := e
    simp only [upd]
    split
    · next h2 => subst h2; simp [find?, h]
    · simp [find?, ih]

end Tab

@[simp] theorem length_setAt {α : Type} (l : List α) (n : Nat) (x : α) : (setAt l n x).length = l.length := by
  induction l generalizing n with
  | nil => rfl
  | cons a t ih => cases n <;> simp [setAt, ih]

theorem nth_setAt_same {α : Type} (d : α) (l : List α) (n : Nat) (x : α) (h : n < l.length) : nth d (setAt l n x) n = x := by
  induction l generalizing n with
  | nil => simp at h
  | cons a t ih =>
    cases n with
    | zero => rfl
    | succ n => simpa [setAt, nth] using ih n (by simpa using h)

theorem nth_setAt_other {α : Type} (d : α) (l : List α) {n m : Nat} (x : α) (h : n ≠ m) : nth d (setAt l n x) m = nth d l m := by
  induction l generalizing n m with
  | nil => rfl
  | cons a t ih =>
    cases n with
    | zero => cases m with
      | zero => exact absurd rfl h
      | succ m => rfl
    | succ n => cases m with
      | zero => rfl
      | succ m => exact ih (by omega)

theorem mem_upto {a n k : Nat} : k ∈ upto a n ↔ a ≤ k ∧ k < a + n := by
  induction n generalizing a with
  | zero => simp [upto]
  | succ n ih => simp [upto, ih]; omega

@[simp] theorem length_upto (a n : Nat) : (upto a n).length = n := by
  induction n generalizing a with
  | zero => rfl
  | succ n ih => simp [upto, ih]

end Sys2Proof
end

