-- ==== Sys2Proof/Laws/State.lean ====
section
/-! SUPPORT. What each update of the state leaves and sets: one lemma for each field of each update, and what the
accessors read after the updates of cores, contexts, continuations, launches and the other tables. -/
namespace Sys2Proof.Machine

/-! ### setCore -/

@[simp] theorem State.setCore_cyc (s : State) (c : Nat) (w : WCore) : (s.setCore c w).cyc = s.cyc := rfl
@[simp] theorem State.setCore_actor (s : State) (c : Nat) (w : WCore) : (s.setCore c w).actor = s.actor := rfl
@[simp] theorem State.setCore_agenda (s : State) (c : Nat) (w : WCore) : (s.setCore c w).agenda = s.agenda := rfl
@[simp] theorem State.setCore_fresh (s : State) (c : Nat) (w : WCore) : (s.setCore c w).fresh = s.fresh := rfl
@[simp] theorem State.setCore_nextOp (s : State) (c : Nat) (w : WCore) : (s.setCore c w).nextOp = s.nextOp := rfl
@[simp] theorem State.setCore_mem (s : State) (c : Nat) (w : WCore) : (s.setCore c w).mem = s.mem := rfl
@[simp] theorem State.setCore_unc (s : State) (c : Nat) (w : WCore) : (s.setCore c w).unc = s.unc := rfl
@[simp] theorem State.setCore_dies (s : State) (c : Nat) (w : WCore) : (s.setCore c w).dies = s.dies := rfl
@[simp] theorem State.setCore_regions (s : State) (c : Nat) (w : WCore) : (s.setCore c w).regions = s.regions := rfl
@[simp] theorem State.setCore_cores (s : State) (c : Nat) (w : WCore) : (s.setCore c w).cores = s.cores.put c w := rfl
@[simp] theorem State.setCore_pairs (s : State) (c : Nat) (w : WCore) : (s.setCore c w).pairs = s.pairs := rfl
@[simp] theorem State.setCore_clusters (s : State) (c : Nat) (w : WCore) : (s.setCore c w).clusters = s.clusters := rfl
@[simp] theorem State.setCore_parts (s : State) (c : Nat) (w : WCore) : (s.setCore c w).parts = s.parts := rfl
@[simp] theorem State.setCore_harts (s : State) (c : Nat) (w : WCore) : (s.setCore c w).harts = s.harts := rfl
@[simp] theorem State.setCore_conts (s : State) (c : Nat) (w : WCore) : (s.setCore c w).conts = s.conts := rfl
@[simp] theorem State.setCore_launches (s : State) (c : Nat) (w : WCore) : (s.setCore c w).launches = s.launches := rfl
@[simp] theorem State.setCore_nextLaunch (s : State) (c : Nat) (w : WCore) : (s.setCore c w).nextLaunch = s.nextLaunch := rfl
@[simp] theorem State.setCore_rslots (s : State) (c : Nat) (w : WCore) : (s.setCore c w).rslots = s.rslots := rfl
@[simp] theorem State.setCore_ropens (s : State) (c : Nat) (w : WCore) : (s.setCore c w).ropens = s.ropens := rfl
@[simp] theorem State.setCore_ests (s : State) (c : Nat) (w : WCore) : (s.setCore c w).ests = s.ests := rfl
@[simp] theorem State.setCore_fab (s : State) (c : Nat) (w : WCore) : (s.setCore c w).fab = s.fab := rfl
@[simp] theorem State.setCore_mod (s : State) (c : Nat) (w : WCore) : (s.setCore c w).mod = s.mod := rfl
@[simp] theorem State.setCore_shoot (s : State) (c : Nat) (w : WCore) : (s.setCore c w).shoot = s.shoot := rfl
@[simp] theorem State.setCore_slotWrs (s : State) (c : Nat) (w : WCore) : (s.setCore c w).slotWrs = s.slotWrs := rfl
@[simp] theorem State.setCore_shareWrs (s : State) (c : Nat) (w : WCore) : (s.setCore c w).shareWrs = s.shareWrs := rfl
@[simp] theorem State.setCore_plan (s : State) (c : Nat) (w : WCore) : (s.setCore c w).plan = s.plan := rfl
@[simp] theorem State.setCore_hostq (s : State) (c : Nat) (w : WCore) : (s.setCore c w).hostq = s.hostq := rfl
@[simp] theorem State.setCore_engine (s : State) (c : Nat) (w : WCore) : (s.setCore c w).engine = s.engine := rfl
@[simp] theorem State.setCore_answers (s : State) (c : Nat) (w : WCore) : (s.setCore c w).answers = s.answers := rfl
@[simp] theorem State.setCore_touched (s : State) (c : Nat) (w : WCore) : (s.setCore c w).touched = s.touched := rfl
@[simp] theorem State.setCore_ended (s : State) (c : Nat) (w : WCore) : (s.setCore c w).ended = s.ended := rfl

/-! ### modCore -/

@[simp] theorem State.modCore_cyc (s : State) (c : Nat) (f : WCore → WCore) : (s.modCore c f).cyc = s.cyc := rfl
@[simp] theorem State.modCore_actor (s : State) (c : Nat) (f : WCore → WCore) : (s.modCore c f).actor = s.actor := rfl
@[simp] theorem State.modCore_agenda (s : State) (c : Nat) (f : WCore → WCore) : (s.modCore c f).agenda = s.agenda := rfl
@[simp] theorem State.modCore_fresh (s : State) (c : Nat) (f : WCore → WCore) : (s.modCore c f).fresh = s.fresh := rfl
@[simp] theorem State.modCore_nextOp (s : State) (c : Nat) (f : WCore → WCore) : (s.modCore c f).nextOp = s.nextOp := rfl
@[simp] theorem State.modCore_mem (s : State) (c : Nat) (f : WCore → WCore) : (s.modCore c f).mem = s.mem := rfl
@[simp] theorem State.modCore_unc (s : State) (c : Nat) (f : WCore → WCore) : (s.modCore c f).unc = s.unc := rfl
@[simp] theorem State.modCore_dies (s : State) (c : Nat) (f : WCore → WCore) : (s.modCore c f).dies = s.dies := rfl
@[simp] theorem State.modCore_regions (s : State) (c : Nat) (f : WCore → WCore) : (s.modCore c f).regions = s.regions := rfl
@[simp] theorem State.modCore_cores (s : State) (c : Nat) (f : WCore → WCore) : (s.modCore c f).cores = s.cores.put c (f (s.core c)) := rfl
@[simp] theorem State.modCore_pairs (s : State) (c : Nat) (f : WCore → WCore) : (s.modCore c f).pairs = s.pairs := rfl
@[simp] theorem State.modCore_clusters (s : State) (c : Nat) (f : WCore → WCore) : (s.modCore c f).clusters = s.clusters := rfl
@[simp] theorem State.modCore_parts (s : State) (c : Nat) (f : WCore → WCore) : (s.modCore c f).parts = s.parts := rfl
@[simp] theorem State.modCore_harts (s : State) (c : Nat) (f : WCore → WCore) : (s.modCore c f).harts = s.harts := rfl
@[simp] theorem State.modCore_conts (s : State) (c : Nat) (f : WCore → WCore) : (s.modCore c f).conts = s.conts := rfl
@[simp] theorem State.modCore_launches (s : State) (c : Nat) (f : WCore → WCore) : (s.modCore c f).launches = s.launches := rfl
@[simp] theorem State.modCore_nextLaunch (s : State) (c : Nat) (f : WCore → WCore) : (s.modCore c f).nextLaunch = s.nextLaunch := rfl
@[simp] theorem State.modCore_rslots (s : State) (c : Nat) (f : WCore → WCore) : (s.modCore c f).rslots = s.rslots := rfl
@[simp] theorem State.modCore_ropens (s : State) (c : Nat) (f : WCore → WCore) : (s.modCore c f).ropens = s.ropens := rfl
@[simp] theorem State.modCore_ests (s : State) (c : Nat) (f : WCore → WCore) : (s.modCore c f).ests = s.ests := rfl
@[simp] theorem State.modCore_fab (s : State) (c : Nat) (f : WCore → WCore) : (s.modCore c f).fab = s.fab := rfl
@[simp] theorem State.modCore_mod (s : State) (c : Nat) (f : WCore → WCore) : (s.modCore c f).mod = s.mod := rfl
@[simp] theorem State.modCore_shoot (s : State) (c : Nat) (f : WCore → WCore) : (s.modCore c f).shoot = s.shoot := rfl
@[simp] theorem State.modCore_slotWrs (s : State) (c : Nat) (f : WCore → WCore) : (s.modCore c f).slotWrs = s.slotWrs := rfl
@[simp] theorem State.modCore_shareWrs (s : State) (c : Nat) (f : WCore → WCore) : (s.modCore c f).shareWrs = s.shareWrs := rfl
@[simp] theorem State.modCore_plan (s : State) (c : Nat) (f : WCore → WCore) : (s.modCore c f).plan = s.plan := rfl
@[simp] theorem State.modCore_hostq (s : State) (c : Nat) (f : WCore → WCore) : (s.modCore c f).hostq = s.hostq := rfl
@[simp] theorem State.modCore_engine (s : State) (c : Nat) (f : WCore → WCore) : (s.modCore c f).engine = s.engine := rfl
@[simp] theorem State.modCore_answers (s : State) (c : Nat) (f : WCore → WCore) : (s.modCore c f).answers = s.answers := rfl
@[simp] theorem State.modCore_touched (s : State) (c : Nat) (f : WCore → WCore) : (s.modCore c f).touched = s.touched := rfl
@[simp] theorem State.modCore_ended (s : State) (c : Nat) (f : WCore → WCore) : (s.modCore c f).ended = s.ended := rfl

/-! ### modUsr -/

@[simp] theorem State.modUsr_cyc (s : State) (c : Nat) (f : User → User) : (s.modUsr c f).cyc = s.cyc := rfl
@[simp] theorem State.modUsr_actor (s : State) (c : Nat) (f : User → User) : (s.modUsr c f).actor = s.actor := rfl
@[simp] theorem State.modUsr_agenda (s : State) (c : Nat) (f : User → User) : (s.modUsr c f).agenda = s.agenda := rfl
@[simp] theorem State.modUsr_fresh (s : State) (c : Nat) (f : User → User) : (s.modUsr c f).fresh = s.fresh := rfl
@[simp] theorem State.modUsr_nextOp (s : State) (c : Nat) (f : User → User) : (s.modUsr c f).nextOp = s.nextOp := rfl
@[simp] theorem State.modUsr_mem (s : State) (c : Nat) (f : User → User) : (s.modUsr c f).mem = s.mem := rfl
@[simp] theorem State.modUsr_unc (s : State) (c : Nat) (f : User → User) : (s.modUsr c f).unc = s.unc := rfl
@[simp] theorem State.modUsr_dies (s : State) (c : Nat) (f : User → User) : (s.modUsr c f).dies = s.dies := rfl
@[simp] theorem State.modUsr_regions (s : State) (c : Nat) (f : User → User) : (s.modUsr c f).regions = s.regions := rfl
@[simp] theorem State.modUsr_cores (s : State) (c : Nat) (f : User → User) : (s.modUsr c f).cores = s.cores.put c { s.core c with usr := f (s.usr c) } := rfl
@[simp] theorem State.modUsr_pairs (s : State) (c : Nat) (f : User → User) : (s.modUsr c f).pairs = s.pairs := rfl
@[simp] theorem State.modUsr_clusters (s : State) (c : Nat) (f : User → User) : (s.modUsr c f).clusters = s.clusters := rfl
@[simp] theorem State.modUsr_parts (s : State) (c : Nat) (f : User → User) : (s.modUsr c f).parts = s.parts := rfl
@[simp] theorem State.modUsr_harts (s : State) (c : Nat) (f : User → User) : (s.modUsr c f).harts = s.harts := rfl
@[simp] theorem State.modUsr_conts (s : State) (c : Nat) (f : User → User) : (s.modUsr c f).conts = s.conts := rfl
@[simp] theorem State.modUsr_launches (s : State) (c : Nat) (f : User → User) : (s.modUsr c f).launches = s.launches := rfl
@[simp] theorem State.modUsr_nextLaunch (s : State) (c : Nat) (f : User → User) : (s.modUsr c f).nextLaunch = s.nextLaunch := rfl
@[simp] theorem State.modUsr_rslots (s : State) (c : Nat) (f : User → User) : (s.modUsr c f).rslots = s.rslots := rfl
@[simp] theorem State.modUsr_ropens (s : State) (c : Nat) (f : User → User) : (s.modUsr c f).ropens = s.ropens := rfl
@[simp] theorem State.modUsr_ests (s : State) (c : Nat) (f : User → User) : (s.modUsr c f).ests = s.ests := rfl
@[simp] theorem State.modUsr_fab (s : State) (c : Nat) (f : User → User) : (s.modUsr c f).fab = s.fab := rfl
@[simp] theorem State.modUsr_mod (s : State) (c : Nat) (f : User → User) : (s.modUsr c f).mod = s.mod := rfl
@[simp] theorem State.modUsr_shoot (s : State) (c : Nat) (f : User → User) : (s.modUsr c f).shoot = s.shoot := rfl
@[simp] theorem State.modUsr_slotWrs (s : State) (c : Nat) (f : User → User) : (s.modUsr c f).slotWrs = s.slotWrs := rfl
@[simp] theorem State.modUsr_shareWrs (s : State) (c : Nat) (f : User → User) : (s.modUsr c f).shareWrs = s.shareWrs := rfl
@[simp] theorem State.modUsr_plan (s : State) (c : Nat) (f : User → User) : (s.modUsr c f).plan = s.plan := rfl
@[simp] theorem State.modUsr_hostq (s : State) (c : Nat) (f : User → User) : (s.modUsr c f).hostq = s.hostq := rfl
@[simp] theorem State.modUsr_engine (s : State) (c : Nat) (f : User → User) : (s.modUsr c f).engine = s.engine := rfl
@[simp] theorem State.modUsr_answers (s : State) (c : Nat) (f : User → User) : (s.modUsr c f).answers = s.answers := rfl
@[simp] theorem State.modUsr_touched (s : State) (c : Nat) (f : User → User) : (s.modUsr c f).touched = s.touched := rfl
@[simp] theorem State.modUsr_ended (s : State) (c : Nat) (f : User → User) : (s.modUsr c f).ended = s.ended := rfl

/-! ### modLan -/

@[simp] theorem State.modLan_cyc (s : State) (c : Nat) (f : Lantern → Lantern) : (s.modLan c f).cyc = s.cyc := rfl
@[simp] theorem State.modLan_actor (s : State) (c : Nat) (f : Lantern → Lantern) : (s.modLan c f).actor = s.actor := rfl
@[simp] theorem State.modLan_agenda (s : State) (c : Nat) (f : Lantern → Lantern) : (s.modLan c f).agenda = s.agenda := rfl
@[simp] theorem State.modLan_fresh (s : State) (c : Nat) (f : Lantern → Lantern) : (s.modLan c f).fresh = s.fresh := rfl
@[simp] theorem State.modLan_nextOp (s : State) (c : Nat) (f : Lantern → Lantern) : (s.modLan c f).nextOp = s.nextOp := rfl
@[simp] theorem State.modLan_mem (s : State) (c : Nat) (f : Lantern → Lantern) : (s.modLan c f).mem = s.mem := rfl
@[simp] theorem State.modLan_unc (s : State) (c : Nat) (f : Lantern → Lantern) : (s.modLan c f).unc = s.unc := rfl
@[simp] theorem State.modLan_dies (s : State) (c : Nat) (f : Lantern → Lantern) : (s.modLan c f).dies = s.dies := rfl
@[simp] theorem State.modLan_regions (s : State) (c : Nat) (f : Lantern → Lantern) : (s.modLan c f).regions = s.regions := rfl
@[simp] theorem State.modLan_cores (s : State) (c : Nat) (f : Lantern → Lantern) : (s.modLan c f).cores = s.cores.put c { s.core c with lan := f (s.core c).lan } := rfl
@[simp] theorem State.modLan_pairs (s : State) (c : Nat) (f : Lantern → Lantern) : (s.modLan c f).pairs = s.pairs := rfl
@[simp] theorem State.modLan_clusters (s : State) (c : Nat) (f : Lantern → Lantern) : (s.modLan c f).clusters = s.clusters := rfl
@[simp] theorem State.modLan_parts (s : State) (c : Nat) (f : Lantern → Lantern) : (s.modLan c f).parts = s.parts := rfl
@[simp] theorem State.modLan_harts (s : State) (c : Nat) (f : Lantern → Lantern) : (s.modLan c f).harts = s.harts := rfl
@[simp] theorem State.modLan_conts (s : State) (c : Nat) (f : Lantern → Lantern) : (s.modLan c f).conts = s.conts := rfl
@[simp] theorem State.modLan_launches (s : State) (c : Nat) (f : Lantern → Lantern) : (s.modLan c f).launches = s.launches := rfl
@[simp] theorem State.modLan_nextLaunch (s : State) (c : Nat) (f : Lantern → Lantern) : (s.modLan c f).nextLaunch = s.nextLaunch := rfl
@[simp] theorem State.modLan_rslots (s : State) (c : Nat) (f : Lantern → Lantern) : (s.modLan c f).rslots = s.rslots := rfl
@[simp] theorem State.modLan_ropens (s : State) (c : Nat) (f : Lantern → Lantern) : (s.modLan c f).ropens = s.ropens := rfl
@[simp] theorem State.modLan_ests (s : State) (c : Nat) (f : Lantern → Lantern) : (s.modLan c f).ests = s.ests := rfl
@[simp] theorem State.modLan_fab (s : State) (c : Nat) (f : Lantern → Lantern) : (s.modLan c f).fab = s.fab := rfl
@[simp] theorem State.modLan_mod (s : State) (c : Nat) (f : Lantern → Lantern) : (s.modLan c f).mod = s.mod := rfl
@[simp] theorem State.modLan_shoot (s : State) (c : Nat) (f : Lantern → Lantern) : (s.modLan c f).shoot = s.shoot := rfl
@[simp] theorem State.modLan_slotWrs (s : State) (c : Nat) (f : Lantern → Lantern) : (s.modLan c f).slotWrs = s.slotWrs := rfl
@[simp] theorem State.modLan_shareWrs (s : State) (c : Nat) (f : Lantern → Lantern) : (s.modLan c f).shareWrs = s.shareWrs := rfl
@[simp] theorem State.modLan_plan (s : State) (c : Nat) (f : Lantern → Lantern) : (s.modLan c f).plan = s.plan := rfl
@[simp] theorem State.modLan_hostq (s : State) (c : Nat) (f : Lantern → Lantern) : (s.modLan c f).hostq = s.hostq := rfl
@[simp] theorem State.modLan_engine (s : State) (c : Nat) (f : Lantern → Lantern) : (s.modLan c f).engine = s.engine := rfl
@[simp] theorem State.modLan_answers (s : State) (c : Nat) (f : Lantern → Lantern) : (s.modLan c f).answers = s.answers := rfl
@[simp] theorem State.modLan_touched (s : State) (c : Nat) (f : Lantern → Lantern) : (s.modLan c f).touched = s.touched := rfl
@[simp] theorem State.modLan_ended (s : State) (c : Nat) (f : Lantern → Lantern) : (s.modLan c f).ended = s.ended := rfl

/-! ### modTask -/

@[simp] theorem State.modTask_cyc (s : State) (c : Nat) (f : Task → Task) : (s.modTask c f).cyc = s.cyc := rfl
@[simp] theorem State.modTask_actor (s : State) (c : Nat) (f : Task → Task) : (s.modTask c f).actor = s.actor := rfl
@[simp] theorem State.modTask_agenda (s : State) (c : Nat) (f : Task → Task) : (s.modTask c f).agenda = s.agenda := rfl
@[simp] theorem State.modTask_fresh (s : State) (c : Nat) (f : Task → Task) : (s.modTask c f).fresh = s.fresh := rfl
@[simp] theorem State.modTask_nextOp (s : State) (c : Nat) (f : Task → Task) : (s.modTask c f).nextOp = s.nextOp := rfl
@[simp] theorem State.modTask_mem (s : State) (c : Nat) (f : Task → Task) : (s.modTask c f).mem = s.mem := rfl
@[simp] theorem State.modTask_unc (s : State) (c : Nat) (f : Task → Task) : (s.modTask c f).unc = s.unc := rfl
@[simp] theorem State.modTask_dies (s : State) (c : Nat) (f : Task → Task) : (s.modTask c f).dies = s.dies := rfl
@[simp] theorem State.modTask_regions (s : State) (c : Nat) (f : Task → Task) : (s.modTask c f).regions = s.regions := rfl
@[simp] theorem State.modTask_pairs (s : State) (c : Nat) (f : Task → Task) : (s.modTask c f).pairs = s.pairs := rfl
@[simp] theorem State.modTask_clusters (s : State) (c : Nat) (f : Task → Task) : (s.modTask c f).clusters = s.clusters := rfl
@[simp] theorem State.modTask_parts (s : State) (c : Nat) (f : Task → Task) : (s.modTask c f).parts = s.parts := rfl
@[simp] theorem State.modTask_harts (s : State) (c : Nat) (f : Task → Task) : (s.modTask c f).harts = s.harts := rfl
@[simp] theorem State.modTask_conts (s : State) (c : Nat) (f : Task → Task) : (s.modTask c f).conts = s.conts := rfl
@[simp] theorem State.modTask_launches (s : State) (c : Nat) (f : Task → Task) : (s.modTask c f).launches = s.launches := rfl
@[simp] theorem State.modTask_nextLaunch (s : State) (c : Nat) (f : Task → Task) : (s.modTask c f).nextLaunch = s.nextLaunch := rfl
@[simp] theorem State.modTask_rslots (s : State) (c : Nat) (f : Task → Task) : (s.modTask c f).rslots = s.rslots := rfl
@[simp] theorem State.modTask_ropens (s : State) (c : Nat) (f : Task → Task) : (s.modTask c f).ropens = s.ropens := rfl
@[simp] theorem State.modTask_ests (s : State) (c : Nat) (f : Task → Task) : (s.modTask c f).ests = s.ests := rfl
@[simp] theorem State.modTask_fab (s : State) (c : Nat) (f : Task → Task) : (s.modTask c f).fab = s.fab := rfl
@[simp] theorem State.modTask_mod (s : State) (c : Nat) (f : Task → Task) : (s.modTask c f).mod = s.mod := rfl
@[simp] theorem State.modTask_shoot (s : State) (c : Nat) (f : Task → Task) : (s.modTask c f).shoot = s.shoot := rfl
@[simp] theorem State.modTask_slotWrs (s : State) (c : Nat) (f : Task → Task) : (s.modTask c f).slotWrs = s.slotWrs := rfl
@[simp] theorem State.modTask_shareWrs (s : State) (c : Nat) (f : Task → Task) : (s.modTask c f).shareWrs = s.shareWrs := rfl
@[simp] theorem State.modTask_plan (s : State) (c : Nat) (f : Task → Task) : (s.modTask c f).plan = s.plan := rfl
@[simp] theorem State.modTask_hostq (s : State) (c : Nat) (f : Task → Task) : (s.modTask c f).hostq = s.hostq := rfl
@[simp] theorem State.modTask_engine (s : State) (c : Nat) (f : Task → Task) : (s.modTask c f).engine = s.engine := rfl
@[simp] theorem State.modTask_answers (s : State) (c : Nat) (f : Task → Task) : (s.modTask c f).answers = s.answers := rfl
@[simp] theorem State.modTask_touched (s : State) (c : Nat) (f : Task → Task) : (s.modTask c f).touched = s.touched := rfl
@[simp] theorem State.modTask_ended (s : State) (c : Nat) (f : Task → Task) : (s.modTask c f).ended = s.ended := rfl

/-! ### modSpad -/

@[simp] theorem State.modSpad_cyc (s : State) (c : Nat) (f : Mem → Mem) : (s.modSpad c f).cyc = s.cyc := rfl
@[simp] theorem State.modSpad_actor (s : State) (c : Nat) (f : Mem → Mem) : (s.modSpad c f).actor = s.actor := rfl
@[simp] theorem State.modSpad_agenda (s : State) (c : Nat) (f : Mem → Mem) : (s.modSpad c f).agenda = s.agenda := rfl
@[simp] theorem State.modSpad_fresh (s : State) (c : Nat) (f : Mem → Mem) : (s.modSpad c f).fresh = s.fresh := rfl
@[simp] theorem State.modSpad_nextOp (s : State) (c : Nat) (f : Mem → Mem) : (s.modSpad c f).nextOp = s.nextOp := rfl
@[simp] theorem State.modSpad_mem (s : State) (c : Nat) (f : Mem → Mem) : (s.modSpad c f).mem = s.mem := rfl
@[simp] theorem State.modSpad_unc (s : State) (c : Nat) (f : Mem → Mem) : (s.modSpad c f).unc = s.unc := rfl
@[simp] theorem State.modSpad_dies (s : State) (c : Nat) (f : Mem → Mem) : (s.modSpad c f).dies = s.dies := rfl
@[simp] theorem State.modSpad_regions (s : State) (c : Nat) (f : Mem → Mem) : (s.modSpad c f).regions = s.regions := rfl
@[simp] theorem State.modSpad_pairs (s : State) (c : Nat) (f : Mem → Mem) : (s.modSpad c f).pairs = s.pairs := rfl
@[simp] theorem State.modSpad_clusters (s : State) (c : Nat) (f : Mem → Mem) : (s.modSpad c f).clusters = s.clusters := rfl
@[simp] theorem State.modSpad_parts (s : State) (c : Nat) (f : Mem → Mem) : (s.modSpad c f).parts = s.parts := rfl
@[simp] theorem State.modSpad_harts (s : State) (c : Nat) (f : Mem → Mem) : (s.modSpad c f).harts = s.harts := rfl
@[simp] theorem State.modSpad_conts (s : State) (c : Nat) (f : Mem → Mem) : (s.modSpad c f).conts = s.conts := rfl
@[simp] theorem State.modSpad_launches (s : State) (c : Nat) (f : Mem → Mem) : (s.modSpad c f).launches = s.launches := rfl
@[simp] theorem State.modSpad_nextLaunch (s : State) (c : Nat) (f : Mem → Mem) : (s.modSpad c f).nextLaunch = s.nextLaunch := rfl
@[simp] theorem State.modSpad_rslots (s : State) (c : Nat) (f : Mem → Mem) : (s.modSpad c f).rslots = s.rslots := rfl
@[simp] theorem State.modSpad_ropens (s : State) (c : Nat) (f : Mem → Mem) : (s.modSpad c f).ropens = s.ropens := rfl
@[simp] theorem State.modSpad_ests (s : State) (c : Nat) (f : Mem → Mem) : (s.modSpad c f).ests = s.ests := rfl
@[simp] theorem State.modSpad_fab (s : State) (c : Nat) (f : Mem → Mem) : (s.modSpad c f).fab = s.fab := rfl
@[simp] theorem State.modSpad_mod (s : State) (c : Nat) (f : Mem → Mem) : (s.modSpad c f).mod = s.mod := rfl
@[simp] theorem State.modSpad_shoot (s : State) (c : Nat) (f : Mem → Mem) : (s.modSpad c f).shoot = s.shoot := rfl
@[simp] theorem State.modSpad_slotWrs (s : State) (c : Nat) (f : Mem → Mem) : (s.modSpad c f).slotWrs = s.slotWrs := rfl
@[simp] theorem State.modSpad_shareWrs (s : State) (c : Nat) (f : Mem → Mem) : (s.modSpad c f).shareWrs = s.shareWrs := rfl
@[simp] theorem State.modSpad_plan (s : State) (c : Nat) (f : Mem → Mem) : (s.modSpad c f).plan = s.plan := rfl
@[simp] theorem State.modSpad_hostq (s : State) (c : Nat) (f : Mem → Mem) : (s.modSpad c f).hostq = s.hostq := rfl
@[simp] theorem State.modSpad_engine (s : State) (c : Nat) (f : Mem → Mem) : (s.modSpad c f).engine = s.engine := rfl
@[simp] theorem State.modSpad_answers (s : State) (c : Nat) (f : Mem → Mem) : (s.modSpad c f).answers = s.answers := rfl
@[simp] theorem State.modSpad_touched (s : State) (c : Nat) (f : Mem → Mem) : (s.modSpad c f).touched = s.touched := rfl
@[simp] theorem State.modSpad_ended (s : State) (c : Nat) (f : Mem → Mem) : (s.modSpad c f).ended = s.ended := rfl

/-! ### modCtx -/

@[simp] theorem State.modCtx_cyc (s : State) (c : Nat) (lan : Bool) (f : Ctx → Ctx) : (s.modCtx c lan f).cyc = s.cyc := by cases lan <;> rfl
@[simp] theorem State.modCtx_actor (s : State) (c : Nat) (lan : Bool) (f : Ctx → Ctx) : (s.modCtx c lan f).actor = s.actor := by cases lan <;> rfl
@[simp] theorem State.modCtx_agenda (s : State) (c : Nat) (lan : Bool) (f : Ctx → Ctx) : (s.modCtx c lan f).agenda = s.agenda := by cases lan <;> rfl
@[simp] theorem State.modCtx_fresh (s : State) (c : Nat) (lan : Bool) (f : Ctx → Ctx) : (s.modCtx c lan f).fresh = s.fresh := by cases lan <;> rfl
@[simp] theorem State.modCtx_nextOp (s : State) (c : Nat) (lan : Bool) (f : Ctx → Ctx) : (s.modCtx c lan f).nextOp = s.nextOp := by cases lan <;> rfl
@[simp] theorem State.modCtx_mem (s : State) (c : Nat) (lan : Bool) (f : Ctx → Ctx) : (s.modCtx c lan f).mem = s.mem := by cases lan <;> rfl
@[simp] theorem State.modCtx_unc (s : State) (c : Nat) (lan : Bool) (f : Ctx → Ctx) : (s.modCtx c lan f).unc = s.unc := by cases lan <;> rfl
@[simp] theorem State.modCtx_dies (s : State) (c : Nat) (lan : Bool) (f : Ctx → Ctx) : (s.modCtx c lan f).dies = s.dies := by cases lan <;> rfl
@[simp] theorem State.modCtx_regions (s : State) (c : Nat) (lan : Bool) (f : Ctx → Ctx) : (s.modCtx c lan f).regions = s.regions := by cases lan <;> rfl
@[simp] theorem State.modCtx_pairs (s : State) (c : Nat) (lan : Bool) (f : Ctx → Ctx) : (s.modCtx c lan f).pairs = s.pairs := by cases lan <;> rfl
@[simp] theorem State.modCtx_clusters (s : State) (c : Nat) (lan : Bool) (f : Ctx → Ctx) : (s.modCtx c lan f).clusters = s.clusters := by cases lan <;> rfl
@[simp] theorem State.modCtx_parts (s : State) (c : Nat) (lan : Bool) (f : Ctx → Ctx) : (s.modCtx c lan f).parts = s.parts := by cases lan <;> rfl
@[simp] theorem State.modCtx_harts (s : State) (c : Nat) (lan : Bool) (f : Ctx → Ctx) : (s.modCtx c lan f).harts = s.harts := by cases lan <;> rfl
@[simp] theorem State.modCtx_conts (s : State) (c : Nat) (lan : Bool) (f : Ctx → Ctx) : (s.modCtx c lan f).conts = s.conts := by cases lan <;> rfl
@[simp] theorem State.modCtx_launches (s : State) (c : Nat) (lan : Bool) (f : Ctx → Ctx) : (s.modCtx c lan f).launches = s.launches := by cases lan <;> rfl
@[simp] theorem State.modCtx_nextLaunch (s : State) (c : Nat) (lan : Bool) (f : Ctx → Ctx) : (s.modCtx c lan f).nextLaunch = s.nextLaunch := by cases lan <;> rfl
@[simp] theorem State.modCtx_rslots (s : State) (c : Nat) (lan : Bool) (f : Ctx → Ctx) : (s.modCtx c lan f).rslots = s.rslots := by cases lan <;> rfl
@[simp] theorem State.modCtx_ropens (s : State) (c : Nat) (lan : Bool) (f : Ctx → Ctx) : (s.modCtx c lan f).ropens = s.ropens := by cases lan <;> rfl
@[simp] theorem State.modCtx_ests (s : State) (c : Nat) (lan : Bool) (f : Ctx → Ctx) : (s.modCtx c lan f).ests = s.ests := by cases lan <;> rfl
@[simp] theorem State.modCtx_fab (s : State) (c : Nat) (lan : Bool) (f : Ctx → Ctx) : (s.modCtx c lan f).fab = s.fab := by cases lan <;> rfl
@[simp] theorem State.modCtx_mod (s : State) (c : Nat) (lan : Bool) (f : Ctx → Ctx) : (s.modCtx c lan f).mod = s.mod := by cases lan <;> rfl
@[simp] theorem State.modCtx_shoot (s : State) (c : Nat) (lan : Bool) (f : Ctx → Ctx) : (s.modCtx c lan f).shoot = s.shoot := by cases lan <;> rfl
@[simp] theorem State.modCtx_slotWrs (s : State) (c : Nat) (lan : Bool) (f : Ctx → Ctx) : (s.modCtx c lan f).slotWrs = s.slotWrs := by cases lan <;> rfl
@[simp] theorem State.modCtx_shareWrs (s : State) (c : Nat) (lan : Bool) (f : Ctx → Ctx) : (s.modCtx c lan f).shareWrs = s.shareWrs := by cases lan <;> rfl
@[simp] theorem State.modCtx_plan (s : State) (c : Nat) (lan : Bool) (f : Ctx → Ctx) : (s.modCtx c lan f).plan = s.plan := by cases lan <;> rfl
@[simp] theorem State.modCtx_hostq (s : State) (c : Nat) (lan : Bool) (f : Ctx → Ctx) : (s.modCtx c lan f).hostq = s.hostq := by cases lan <;> rfl
@[simp] theorem State.modCtx_engine (s : State) (c : Nat) (lan : Bool) (f : Ctx → Ctx) : (s.modCtx c lan f).engine = s.engine := by cases lan <;> rfl
@[simp] theorem State.modCtx_answers (s : State) (c : Nat) (lan : Bool) (f : Ctx → Ctx) : (s.modCtx c lan f).answers = s.answers := by cases lan <;> rfl
@[simp] theorem State.modCtx_touched (s : State) (c : Nat) (lan : Bool) (f : Ctx → Ctx) : (s.modCtx c lan f).touched = s.touched := by cases lan <;> rfl
@[simp] theorem State.modCtx_ended (s : State) (c : Nat) (lan : Bool) (f : Ctx → Ctx) : (s.modCtx c lan f).ended = s.ended := by cases lan <;> rfl

/-! ### modLaunch -/

@[simp] theorem State.modLaunch_cyc (s : State) (k : Nat) (f : Launch → Launch) : (s.modLaunch k f).cyc = s.cyc := rfl
@[simp] theorem State.modLaunch_actor (s : State) (k : Nat) (f : Launch → Launch) : (s.modLaunch k f).actor = s.actor := rfl
@[simp] theorem State.modLaunch_agenda (s : State) (k : Nat) (f : Launch → Launch) : (s.modLaunch k f).agenda = s.agenda := rfl
@[simp] theorem State.modLaunch_fresh (s : State) (k : Nat) (f : Launch → Launch) : (s.modLaunch k f).fresh = s.fresh := rfl
@[simp] theorem State.modLaunch_nextOp (s : State) (k : Nat) (f : Launch → Launch) : (s.modLaunch k f).nextOp = s.nextOp := rfl
@[simp] theorem State.modLaunch_mem (s : State) (k : Nat) (f : Launch → Launch) : (s.modLaunch k f).mem = s.mem := rfl
@[simp] theorem State.modLaunch_unc (s : State) (k : Nat) (f : Launch → Launch) : (s.modLaunch k f).unc = s.unc := rfl
@[simp] theorem State.modLaunch_dies (s : State) (k : Nat) (f : Launch → Launch) : (s.modLaunch k f).dies = s.dies := rfl
@[simp] theorem State.modLaunch_regions (s : State) (k : Nat) (f : Launch → Launch) : (s.modLaunch k f).regions = s.regions := rfl
@[simp] theorem State.modLaunch_cores (s : State) (k : Nat) (f : Launch → Launch) : (s.modLaunch k f).cores = s.cores := rfl
@[simp] theorem State.modLaunch_pairs (s : State) (k : Nat) (f : Launch → Launch) : (s.modLaunch k f).pairs = s.pairs := rfl
@[simp] theorem State.modLaunch_clusters (s : State) (k : Nat) (f : Launch → Launch) : (s.modLaunch k f).clusters = s.clusters := rfl
@[simp] theorem State.modLaunch_parts (s : State) (k : Nat) (f : Launch → Launch) : (s.modLaunch k f).parts = s.parts := rfl
@[simp] theorem State.modLaunch_harts (s : State) (k : Nat) (f : Launch → Launch) : (s.modLaunch k f).harts = s.harts := rfl
@[simp] theorem State.modLaunch_conts (s : State) (k : Nat) (f : Launch → Launch) : (s.modLaunch k f).conts = s.conts := rfl
@[simp] theorem State.modLaunch_launches (s : State) (k : Nat) (f : Launch → Launch) : (s.modLaunch k f).launches = s.launches.upd k f := rfl
@[simp] theorem State.modLaunch_nextLaunch (s : State) (k : Nat) (f : Launch → Launch) : (s.modLaunch k f).nextLaunch = s.nextLaunch := rfl
@[simp] theorem State.modLaunch_rslots (s : State) (k : Nat) (f : Launch → Launch) : (s.modLaunch k f).rslots = s.rslots := rfl
@[simp] theorem State.modLaunch_ropens (s : State) (k : Nat) (f : Launch → Launch) : (s.modLaunch k f).ropens = s.ropens := rfl
@[simp] theorem State.modLaunch_ests (s : State) (k : Nat) (f : Launch → Launch) : (s.modLaunch k f).ests = s.ests := rfl
@[simp] theorem State.modLaunch_fab (s : State) (k : Nat) (f : Launch → Launch) : (s.modLaunch k f).fab = s.fab := rfl
@[simp] theorem State.modLaunch_mod (s : State) (k : Nat) (f : Launch → Launch) : (s.modLaunch k f).mod = s.mod := rfl
@[simp] theorem State.modLaunch_shoot (s : State) (k : Nat) (f : Launch → Launch) : (s.modLaunch k f).shoot = s.shoot := rfl
@[simp] theorem State.modLaunch_slotWrs (s : State) (k : Nat) (f : Launch → Launch) : (s.modLaunch k f).slotWrs = s.slotWrs := rfl
@[simp] theorem State.modLaunch_shareWrs (s : State) (k : Nat) (f : Launch → Launch) : (s.modLaunch k f).shareWrs = s.shareWrs := rfl
@[simp] theorem State.modLaunch_plan (s : State) (k : Nat) (f : Launch → Launch) : (s.modLaunch k f).plan = s.plan := rfl
@[simp] theorem State.modLaunch_hostq (s : State) (k : Nat) (f : Launch → Launch) : (s.modLaunch k f).hostq = s.hostq := rfl
@[simp] theorem State.modLaunch_engine (s : State) (k : Nat) (f : Launch → Launch) : (s.modLaunch k f).engine = s.engine := rfl
@[simp] theorem State.modLaunch_answers (s : State) (k : Nat) (f : Launch → Launch) : (s.modLaunch k f).answers = s.answers := rfl
@[simp] theorem State.modLaunch_touched (s : State) (k : Nat) (f : Launch → Launch) : (s.modLaunch k f).touched = s.touched := rfl
@[simp] theorem State.modLaunch_ended (s : State) (k : Nat) (f : Launch → Launch) : (s.modLaunch k f).ended = s.ended := rfl

/-! ### modCont -/

@[simp] theorem State.modCont_cyc (s : State) (k : Nat) (f : Cont → Cont) : (s.modCont k f).cyc = s.cyc := rfl
@[simp] theorem State.modCont_actor (s : State) (k : Nat) (f : Cont → Cont) : (s.modCont k f).actor = s.actor := rfl
@[simp] theorem State.modCont_agenda (s : State) (k : Nat) (f : Cont → Cont) : (s.modCont k f).agenda = s.agenda := rfl
@[simp] theorem State.modCont_fresh (s : State) (k : Nat) (f : Cont → Cont) : (s.modCont k f).fresh = s.fresh := rfl
@[simp] theorem State.modCont_nextOp (s : State) (k : Nat) (f : Cont → Cont) : (s.modCont k f).nextOp = s.nextOp := rfl
@[simp] theorem State.modCont_mem (s : State) (k : Nat) (f : Cont → Cont) : (s.modCont k f).mem = s.mem := rfl
@[simp] theorem State.modCont_unc (s : State) (k : Nat) (f : Cont → Cont) : (s.modCont k f).unc = s.unc := rfl
@[simp] theorem State.modCont_dies (s : State) (k : Nat) (f : Cont → Cont) : (s.modCont k f).dies = s.dies := rfl
@[simp] theorem State.modCont_regions (s : State) (k : Nat) (f : Cont → Cont) : (s.modCont k f).regions = s.regions := rfl
@[simp] theorem State.modCont_cores (s : State) (k : Nat) (f : Cont → Cont) : (s.modCont k f).cores = s.cores := rfl
@[simp] theorem State.modCont_pairs (s : State) (k : Nat) (f : Cont → Cont) : (s.modCont k f).pairs = s.pairs := rfl
@[simp] theorem State.modCont_clusters (s : State) (k : Nat) (f : Cont → Cont) : (s.modCont k f).clusters = s.clusters := rfl
@[simp] theorem State.modCont_parts (s : State) (k : Nat) (f : Cont → Cont) : (s.modCont k f).parts = s.parts := rfl
@[simp] theorem State.modCont_harts (s : State) (k : Nat) (f : Cont → Cont) : (s.modCont k f).harts = s.harts := rfl
@[simp] theorem State.modCont_conts (s : State) (k : Nat) (f : Cont → Cont) : (s.modCont k f).conts = s.conts.upd k f := rfl
@[simp] theorem State.modCont_launches (s : State) (k : Nat) (f : Cont → Cont) : (s.modCont k f).launches = s.launches := rfl
@[simp] theorem State.modCont_nextLaunch (s : State) (k : Nat) (f : Cont → Cont) : (s.modCont k f).nextLaunch = s.nextLaunch := rfl
@[simp] theorem State.modCont_rslots (s : State) (k : Nat) (f : Cont → Cont) : (s.modCont k f).rslots = s.rslots := rfl
@[simp] theorem State.modCont_ropens (s : State) (k : Nat) (f : Cont → Cont) : (s.modCont k f).ropens = s.ropens := rfl
@[simp] theorem State.modCont_ests (s : State) (k : Nat) (f : Cont → Cont) : (s.modCont k f).ests = s.ests := rfl
@[simp] theorem State.modCont_fab (s : State) (k : Nat) (f : Cont → Cont) : (s.modCont k f).fab = s.fab := rfl
@[simp] theorem State.modCont_mod (s : State) (k : Nat) (f : Cont → Cont) : (s.modCont k f).mod = s.mod := rfl
@[simp] theorem State.modCont_shoot (s : State) (k : Nat) (f : Cont → Cont) : (s.modCont k f).shoot = s.shoot := rfl
@[simp] theorem State.modCont_slotWrs (s : State) (k : Nat) (f : Cont → Cont) : (s.modCont k f).slotWrs = s.slotWrs := rfl
@[simp] theorem State.modCont_shareWrs (s : State) (k : Nat) (f : Cont → Cont) : (s.modCont k f).shareWrs = s.shareWrs := rfl
@[simp] theorem State.modCont_plan (s : State) (k : Nat) (f : Cont → Cont) : (s.modCont k f).plan = s.plan := rfl
@[simp] theorem State.modCont_hostq (s : State) (k : Nat) (f : Cont → Cont) : (s.modCont k f).hostq = s.hostq := rfl
@[simp] theorem State.modCont_engine (s : State) (k : Nat) (f : Cont → Cont) : (s.modCont k f).engine = s.engine := rfl
@[simp] theorem State.modCont_answers (s : State) (k : Nat) (f : Cont → Cont) : (s.modCont k f).answers = s.answers := rfl
@[simp] theorem State.modCont_touched (s : State) (k : Nat) (f : Cont → Cont) : (s.modCont k f).touched = s.touched := rfl
@[simp] theorem State.modCont_ended (s : State) (k : Nat) (f : Cont → Cont) : (s.modCont k f).ended = s.ended := rfl

/-! ### modStream -/

@[simp] theorem State.modStream_cyc (s : State) (k : Nat) (f : Stream → Stream) : (s.modStream k f).cyc = s.cyc := rfl
@[simp] theorem State.modStream_actor (s : State) (k : Nat) (f : Stream → Stream) : (s.modStream k f).actor = s.actor := rfl
@[simp] theorem State.modStream_agenda (s : State) (k : Nat) (f : Stream → Stream) : (s.modStream k f).agenda = s.agenda := rfl
@[simp] theorem State.modStream_fresh (s : State) (k : Nat) (f : Stream → Stream) : (s.modStream k f).fresh = s.fresh := rfl
@[simp] theorem State.modStream_nextOp (s : State) (k : Nat) (f : Stream → Stream) : (s.modStream k f).nextOp = s.nextOp := rfl
@[simp] theorem State.modStream_mem (s : State) (k : Nat) (f : Stream → Stream) : (s.modStream k f).mem = s.mem := rfl
@[simp] theorem State.modStream_unc (s : State) (k : Nat) (f : Stream → Stream) : (s.modStream k f).unc = s.unc := rfl
@[simp] theorem State.modStream_dies (s : State) (k : Nat) (f : Stream → Stream) : (s.modStream k f).dies = s.dies := rfl
@[simp] theorem State.modStream_regions (s : State) (k : Nat) (f : Stream → Stream) : (s.modStream k f).regions = s.regions := rfl
@[simp] theorem State.modStream_cores (s : State) (k : Nat) (f : Stream → Stream) : (s.modStream k f).cores = s.cores := rfl
@[simp] theorem State.modStream_pairs (s : State) (k : Nat) (f : Stream → Stream) : (s.modStream k f).pairs = s.pairs := rfl
@[simp] theorem State.modStream_clusters (s : State) (k : Nat) (f : Stream → Stream) : (s.modStream k f).clusters = s.clusters := rfl
@[simp] theorem State.modStream_parts (s : State) (k : Nat) (f : Stream → Stream) : (s.modStream k f).parts = s.parts := rfl
@[simp] theorem State.modStream_harts (s : State) (k : Nat) (f : Stream → Stream) : (s.modStream k f).harts = s.harts := rfl
@[simp] theorem State.modStream_conts (s : State) (k : Nat) (f : Stream → Stream) : (s.modStream k f).conts = s.conts.upd k (fun q => { q with stream := f q.stream }) := rfl
@[simp] theorem State.modStream_launches (s : State) (k : Nat) (f : Stream → Stream) : (s.modStream k f).launches = s.launches := rfl
@[simp] theorem State.modStream_nextLaunch (s : State) (k : Nat) (f : Stream → Stream) : (s.modStream k f).nextLaunch = s.nextLaunch := rfl
@[simp] theorem State.modStream_rslots (s : State) (k : Nat) (f : Stream → Stream) : (s.modStream k f).rslots = s.rslots := rfl
@[simp] theorem State.modStream_ropens (s : State) (k : Nat) (f : Stream → Stream) : (s.modStream k f).ropens = s.ropens := rfl
@[simp] theorem State.modStream_ests (s : State) (k : Nat) (f : Stream → Stream) : (s.modStream k f).ests = s.ests := rfl
@[simp] theorem State.modStream_fab (s : State) (k : Nat) (f : Stream → Stream) : (s.modStream k f).fab = s.fab := rfl
@[simp] theorem State.modStream_mod (s : State) (k : Nat) (f : Stream → Stream) : (s.modStream k f).mod = s.mod := rfl
@[simp] theorem State.modStream_shoot (s : State) (k : Nat) (f : Stream → Stream) : (s.modStream k f).shoot = s.shoot := rfl
@[simp] theorem State.modStream_slotWrs (s : State) (k : Nat) (f : Stream → Stream) : (s.modStream k f).slotWrs = s.slotWrs := rfl
@[simp] theorem State.modStream_shareWrs (s : State) (k : Nat) (f : Stream → Stream) : (s.modStream k f).shareWrs = s.shareWrs := rfl
@[simp] theorem State.modStream_plan (s : State) (k : Nat) (f : Stream → Stream) : (s.modStream k f).plan = s.plan := rfl
@[simp] theorem State.modStream_hostq (s : State) (k : Nat) (f : Stream → Stream) : (s.modStream k f).hostq = s.hostq := rfl
@[simp] theorem State.modStream_engine (s : State) (k : Nat) (f : Stream → Stream) : (s.modStream k f).engine = s.engine := rfl
@[simp] theorem State.modStream_answers (s : State) (k : Nat) (f : Stream → Stream) : (s.modStream k f).answers = s.answers := rfl
@[simp] theorem State.modStream_touched (s : State) (k : Nat) (f : Stream → Stream) : (s.modStream k f).touched = s.touched := rfl
@[simp] theorem State.modStream_ended (s : State) (k : Nat) (f : Stream → Stream) : (s.modStream k f).ended = s.ended := rfl

/-! ### modDie -/

@[simp] theorem State.modDie_cyc (s : State) (d : Nat) (f : Die → Die) : (s.modDie d f).cyc = s.cyc := rfl
@[simp] theorem State.modDie_actor (s : State) (d : Nat) (f : Die → Die) : (s.modDie d f).actor = s.actor := rfl
@[simp] theorem State.modDie_agenda (s : State) (d : Nat) (f : Die → Die) : (s.modDie d f).agenda = s.agenda := rfl
@[simp] theorem State.modDie_fresh (s : State) (d : Nat) (f : Die → Die) : (s.modDie d f).fresh = s.fresh := rfl
@[simp] theorem State.modDie_nextOp (s : State) (d : Nat) (f : Die → Die) : (s.modDie d f).nextOp = s.nextOp := rfl
@[simp] theorem State.modDie_mem (s : State) (d : Nat) (f : Die → Die) : (s.modDie d f).mem = s.mem := rfl
@[simp] theorem State.modDie_unc (s : State) (d : Nat) (f : Die → Die) : (s.modDie d f).unc = s.unc := rfl
@[simp] theorem State.modDie_dies (s : State) (d : Nat) (f : Die → Die) : (s.modDie d f).dies = setAt s.dies d (f (s.die d)) := rfl
@[simp] theorem State.modDie_regions (s : State) (d : Nat) (f : Die → Die) : (s.modDie d f).regions = s.regions := rfl
@[simp] theorem State.modDie_cores (s : State) (d : Nat) (f : Die → Die) : (s.modDie d f).cores = s.cores := rfl
@[simp] theorem State.modDie_pairs (s : State) (d : Nat) (f : Die → Die) : (s.modDie d f).pairs = s.pairs := rfl
@[simp] theorem State.modDie_clusters (s : State) (d : Nat) (f : Die → Die) : (s.modDie d f).clusters = s.clusters := rfl
@[simp] theorem State.modDie_parts (s : State) (d : Nat) (f : Die → Die) : (s.modDie d f).parts = s.parts := rfl
@[simp] theorem State.modDie_harts (s : State) (d : Nat) (f : Die → Die) : (s.modDie d f).harts = s.harts := rfl
@[simp] theorem State.modDie_conts (s : State) (d : Nat) (f : Die → Die) : (s.modDie d f).conts = s.conts := rfl
@[simp] theorem State.modDie_launches (s : State) (d : Nat) (f : Die → Die) : (s.modDie d f).launches = s.launches := rfl
@[simp] theorem State.modDie_nextLaunch (s : State) (d : Nat) (f : Die → Die) : (s.modDie d f).nextLaunch = s.nextLaunch := rfl
@[simp] theorem State.modDie_rslots (s : State) (d : Nat) (f : Die → Die) : (s.modDie d f).rslots = s.rslots := rfl
@[simp] theorem State.modDie_ropens (s : State) (d : Nat) (f : Die → Die) : (s.modDie d f).ropens = s.ropens := rfl
@[simp] theorem State.modDie_ests (s : State) (d : Nat) (f : Die → Die) : (s.modDie d f).ests = s.ests := rfl
@[simp] theorem State.modDie_fab (s : State) (d : Nat) (f : Die → Die) : (s.modDie d f).fab = s.fab := rfl
@[simp] theorem State.modDie_mod (s : State) (d : Nat) (f : Die → Die) : (s.modDie d f).mod = s.mod := rfl
@[simp] theorem State.modDie_shoot (s : State) (d : Nat) (f : Die → Die) : (s.modDie d f).shoot = s.shoot := rfl
@[simp] theorem State.modDie_slotWrs (s : State) (d : Nat) (f : Die → Die) : (s.modDie d f).slotWrs = s.slotWrs := rfl
@[simp] theorem State.modDie_shareWrs (s : State) (d : Nat) (f : Die → Die) : (s.modDie d f).shareWrs = s.shareWrs := rfl
@[simp] theorem State.modDie_plan (s : State) (d : Nat) (f : Die → Die) : (s.modDie d f).plan = s.plan := rfl
@[simp] theorem State.modDie_hostq (s : State) (d : Nat) (f : Die → Die) : (s.modDie d f).hostq = s.hostq := rfl
@[simp] theorem State.modDie_engine (s : State) (d : Nat) (f : Die → Die) : (s.modDie d f).engine = s.engine := rfl
@[simp] theorem State.modDie_answers (s : State) (d : Nat) (f : Die → Die) : (s.modDie d f).answers = s.answers := rfl
@[simp] theorem State.modDie_touched (s : State) (d : Nat) (f : Die → Die) : (s.modDie d f).touched = s.touched := rfl
@[simp] theorem State.modDie_ended (s : State) (d : Nat) (f : Die → Die) : (s.modDie d f).ended = s.ended := rfl

/-! ### modPart -/

@[simp] theorem State.modPart_cyc (s : State) (p : Nat) (f : Part → Part) : (s.modPart p f).cyc = s.cyc := rfl
@[simp] theorem State.modPart_actor (s : State) (p : Nat) (f : Part → Part) : (s.modPart p f).actor = s.actor := rfl
@[simp] theorem State.modPart_agenda (s : State) (p : Nat) (f : Part → Part) : (s.modPart p f).agenda = s.agenda := rfl
@[simp] theorem State.modPart_fresh (s : State) (p : Nat) (f : Part → Part) : (s.modPart p f).fresh = s.fresh := rfl
@[simp] theorem State.modPart_nextOp (s : State) (p : Nat) (f : Part → Part) : (s.modPart p f).nextOp = s.nextOp := rfl
@[simp] theorem State.modPart_mem (s : State) (p : Nat) (f : Part → Part) : (s.modPart p f).mem = s.mem := rfl
@[simp] theorem State.modPart_unc (s : State) (p : Nat) (f : Part → Part) : (s.modPart p f).unc = s.unc := rfl
@[simp] theorem State.modPart_dies (s : State) (p : Nat) (f : Part → Part) : (s.modPart p f).dies = s.dies := rfl
@[simp] theorem State.modPart_regions (s : State) (p : Nat) (f : Part → Part) : (s.modPart p f).regions = s.regions := rfl
@[simp] theorem State.modPart_cores (s : State) (p : Nat) (f : Part → Part) : (s.modPart p f).cores = s.cores := rfl
@[simp] theorem State.modPart_pairs (s : State) (p : Nat) (f : Part → Part) : (s.modPart p f).pairs = s.pairs := rfl
@[simp] theorem State.modPart_clusters (s : State) (p : Nat) (f : Part → Part) : (s.modPart p f).clusters = s.clusters := rfl
@[simp] theorem State.modPart_parts (s : State) (p : Nat) (f : Part → Part) : (s.modPart p f).parts = setAt s.parts p (f (s.part p)) := rfl
@[simp] theorem State.modPart_harts (s : State) (p : Nat) (f : Part → Part) : (s.modPart p f).harts = s.harts := rfl
@[simp] theorem State.modPart_conts (s : State) (p : Nat) (f : Part → Part) : (s.modPart p f).conts = s.conts := rfl
@[simp] theorem State.modPart_launches (s : State) (p : Nat) (f : Part → Part) : (s.modPart p f).launches = s.launches := rfl
@[simp] theorem State.modPart_nextLaunch (s : State) (p : Nat) (f : Part → Part) : (s.modPart p f).nextLaunch = s.nextLaunch := rfl
@[simp] theorem State.modPart_rslots (s : State) (p : Nat) (f : Part → Part) : (s.modPart p f).rslots = s.rslots := rfl
@[simp] theorem State.modPart_ropens (s : State) (p : Nat) (f : Part → Part) : (s.modPart p f).ropens = s.ropens := rfl
@[simp] theorem State.modPart_ests (s : State) (p : Nat) (f : Part → Part) : (s.modPart p f).ests = s.ests := rfl
@[simp] theorem State.modPart_fab (s : State) (p : Nat) (f : Part → Part) : (s.modPart p f).fab = s.fab := rfl
@[simp] theorem State.modPart_mod (s : State) (p : Nat) (f : Part → Part) : (s.modPart p f).mod = s.mod := rfl
@[simp] theorem State.modPart_shoot (s : State) (p : Nat) (f : Part → Part) : (s.modPart p f).shoot = s.shoot := rfl
@[simp] theorem State.modPart_slotWrs (s : State) (p : Nat) (f : Part → Part) : (s.modPart p f).slotWrs = s.slotWrs := rfl
@[simp] theorem State.modPart_shareWrs (s : State) (p : Nat) (f : Part → Part) : (s.modPart p f).shareWrs = s.shareWrs := rfl
@[simp] theorem State.modPart_plan (s : State) (p : Nat) (f : Part → Part) : (s.modPart p f).plan = s.plan := rfl
@[simp] theorem State.modPart_hostq (s : State) (p : Nat) (f : Part → Part) : (s.modPart p f).hostq = s.hostq := rfl
@[simp] theorem State.modPart_engine (s : State) (p : Nat) (f : Part → Part) : (s.modPart p f).engine = s.engine := rfl
@[simp] theorem State.modPart_answers (s : State) (p : Nat) (f : Part → Part) : (s.modPart p f).answers = s.answers := rfl
@[simp] theorem State.modPart_touched (s : State) (p : Nat) (f : Part → Part) : (s.modPart p f).touched = s.touched := rfl
@[simp] theorem State.modPart_ended (s : State) (p : Nat) (f : Part → Part) : (s.modPart p f).ended = s.ended := rfl

/-! ### modCluster -/

@[simp] theorem State.modCluster_cyc (s : State) (k : Nat) (f : Cluster → Cluster) : (s.modCluster k f).cyc = s.cyc := rfl
@[simp] theorem State.modCluster_actor (s : State) (k : Nat) (f : Cluster → Cluster) : (s.modCluster k f).actor = s.actor := rfl
@[simp] theorem State.modCluster_agenda (s : State) (k : Nat) (f : Cluster → Cluster) : (s.modCluster k f).agenda = s.agenda := rfl
@[simp] theorem State.modCluster_fresh (s : State) (k : Nat) (f : Cluster → Cluster) : (s.modCluster k f).fresh = s.fresh := rfl
@[simp] theorem State.modCluster_nextOp (s : State) (k : Nat) (f : Cluster → Cluster) : (s.modCluster k f).nextOp = s.nextOp := rfl
@[simp] theorem State.modCluster_mem (s : State) (k : Nat) (f : Cluster → Cluster) : (s.modCluster k f).mem = s.mem := rfl
@[simp] theorem State.modCluster_unc (s : State) (k : Nat) (f : Cluster → Cluster) : (s.modCluster k f).unc = s.unc := rfl
@[simp] theorem State.modCluster_dies (s : State) (k : Nat) (f : Cluster → Cluster) : (s.modCluster k f).dies = s.dies := rfl
@[simp] theorem State.modCluster_regions (s : State) (k : Nat) (f : Cluster → Cluster) : (s.modCluster k f).regions = s.regions := rfl
@[simp] theorem State.modCluster_cores (s : State) (k : Nat) (f : Cluster → Cluster) : (s.modCluster k f).cores = s.cores := rfl
@[simp] theorem State.modCluster_pairs (s : State) (k : Nat) (f : Cluster → Cluster) : (s.modCluster k f).pairs = s.pairs := rfl
@[simp] theorem State.modCluster_clusters (s : State) (k : Nat) (f : Cluster → Cluster) : (s.modCluster k f).clusters = s.clusters.put k (f (s.cluster k)) := rfl
@[simp] theorem State.modCluster_parts (s : State) (k : Nat) (f : Cluster → Cluster) : (s.modCluster k f).parts = s.parts := rfl
@[simp] theorem State.modCluster_harts (s : State) (k : Nat) (f : Cluster → Cluster) : (s.modCluster k f).harts = s.harts := rfl
@[simp] theorem State.modCluster_conts (s : State) (k : Nat) (f : Cluster → Cluster) : (s.modCluster k f).conts = s.conts := rfl
@[simp] theorem State.modCluster_launches (s : State) (k : Nat) (f : Cluster → Cluster) : (s.modCluster k f).launches = s.launches := rfl
@[simp] theorem State.modCluster_nextLaunch (s : State) (k : Nat) (f : Cluster → Cluster) : (s.modCluster k f).nextLaunch = s.nextLaunch := rfl
@[simp] theorem State.modCluster_rslots (s : State) (k : Nat) (f : Cluster → Cluster) : (s.modCluster k f).rslots = s.rslots := rfl
@[simp] theorem State.modCluster_ropens (s : State) (k : Nat) (f : Cluster → Cluster) : (s.modCluster k f).ropens = s.ropens := rfl
@[simp] theorem State.modCluster_ests (s : State) (k : Nat) (f : Cluster → Cluster) : (s.modCluster k f).ests = s.ests := rfl
@[simp] theorem State.modCluster_fab (s : State) (k : Nat) (f : Cluster → Cluster) : (s.modCluster k f).fab = s.fab := rfl
@[simp] theorem State.modCluster_mod (s : State) (k : Nat) (f : Cluster → Cluster) : (s.modCluster k f).mod = s.mod := rfl
@[simp] theorem State.modCluster_shoot (s : State) (k : Nat) (f : Cluster → Cluster) : (s.modCluster k f).shoot = s.shoot := rfl
@[simp] theorem State.modCluster_slotWrs (s : State) (k : Nat) (f : Cluster → Cluster) : (s.modCluster k f).slotWrs = s.slotWrs := rfl
@[simp] theorem State.modCluster_shareWrs (s : State) (k : Nat) (f : Cluster → Cluster) : (s.modCluster k f).shareWrs = s.shareWrs := rfl
@[simp] theorem State.modCluster_plan (s : State) (k : Nat) (f : Cluster → Cluster) : (s.modCluster k f).plan = s.plan := rfl
@[simp] theorem State.modCluster_hostq (s : State) (k : Nat) (f : Cluster → Cluster) : (s.modCluster k f).hostq = s.hostq := rfl
@[simp] theorem State.modCluster_engine (s : State) (k : Nat) (f : Cluster → Cluster) : (s.modCluster k f).engine = s.engine := rfl
@[simp] theorem State.modCluster_answers (s : State) (k : Nat) (f : Cluster → Cluster) : (s.modCluster k f).answers = s.answers := rfl
@[simp] theorem State.modCluster_touched (s : State) (k : Nat) (f : Cluster → Cluster) : (s.modCluster k f).touched = s.touched := rfl
@[simp] theorem State.modCluster_ended (s : State) (k : Nat) (f : Cluster → Cluster) : (s.modCluster k f).ended = s.ended := rfl

/-! ### setPair -/

@[simp] theorem State.setPair_cyc (s : State) (p : Nat) (x : Pair) : (s.setPair p x).cyc = s.cyc := rfl
@[simp] theorem State.setPair_actor (s : State) (p : Nat) (x : Pair) : (s.setPair p x).actor = s.actor := rfl
@[simp] theorem State.setPair_agenda (s : State) (p : Nat) (x : Pair) : (s.setPair p x).agenda = s.agenda := rfl
@[simp] theorem State.setPair_fresh (s : State) (p : Nat) (x : Pair) : (s.setPair p x).fresh = s.fresh := rfl
@[simp] theorem State.setPair_nextOp (s : State) (p : Nat) (x : Pair) : (s.setPair p x).nextOp = s.nextOp := rfl
@[simp] theorem State.setPair_mem (s : State) (p : Nat) (x : Pair) : (s.setPair p x).mem = s.mem := rfl
@[simp] theorem State.setPair_unc (s : State) (p : Nat) (x : Pair) : (s.setPair p x).unc = s.unc := rfl
@[simp] theorem State.setPair_dies (s : State) (p : Nat) (x : Pair) : (s.setPair p x).dies = s.dies := rfl
@[simp] theorem State.setPair_regions (s : State) (p : Nat) (x : Pair) : (s.setPair p x).regions = s.regions := rfl
@[simp] theorem State.setPair_cores (s : State) (p : Nat) (x : Pair) : (s.setPair p x).cores = s.cores := rfl
@[simp] theorem State.setPair_pairs (s : State) (p : Nat) (x : Pair) : (s.setPair p x).pairs = s.pairs.put p x := rfl
@[simp] theorem State.setPair_clusters (s : State) (p : Nat) (x : Pair) : (s.setPair p x).clusters = s.clusters := rfl
@[simp] theorem State.setPair_parts (s : State) (p : Nat) (x : Pair) : (s.setPair p x).parts = s.parts := rfl
@[simp] theorem State.setPair_harts (s : State) (p : Nat) (x : Pair) : (s.setPair p x).harts = s.harts := rfl
@[simp] theorem State.setPair_conts (s : State) (p : Nat) (x : Pair) : (s.setPair p x).conts = s.conts := rfl
@[simp] theorem State.setPair_launches (s : State) (p : Nat) (x : Pair) : (s.setPair p x).launches = s.launches := rfl
@[simp] theorem State.setPair_nextLaunch (s : State) (p : Nat) (x : Pair) : (s.setPair p x).nextLaunch = s.nextLaunch := rfl
@[simp] theorem State.setPair_rslots (s : State) (p : Nat) (x : Pair) : (s.setPair p x).rslots = s.rslots := rfl
@[simp] theorem State.setPair_ropens (s : State) (p : Nat) (x : Pair) : (s.setPair p x).ropens = s.ropens := rfl
@[simp] theorem State.setPair_ests (s : State) (p : Nat) (x : Pair) : (s.setPair p x).ests = s.ests := rfl
@[simp] theorem State.setPair_fab (s : State) (p : Nat) (x : Pair) : (s.setPair p x).fab = s.fab := rfl
@[simp] theorem State.setPair_mod (s : State) (p : Nat) (x : Pair) : (s.setPair p x).mod = s.mod := rfl
@[simp] theorem State.setPair_shoot (s : State) (p : Nat) (x : Pair) : (s.setPair p x).shoot = s.shoot := rfl
@[simp] theorem State.setPair_slotWrs (s : State) (p : Nat) (x : Pair) : (s.setPair p x).slotWrs = s.slotWrs := rfl
@[simp] theorem State.setPair_shareWrs (s : State) (p : Nat) (x : Pair) : (s.setPair p x).shareWrs = s.shareWrs := rfl
@[simp] theorem State.setPair_plan (s : State) (p : Nat) (x : Pair) : (s.setPair p x).plan = s.plan := rfl
@[simp] theorem State.setPair_hostq (s : State) (p : Nat) (x : Pair) : (s.setPair p x).hostq = s.hostq := rfl
@[simp] theorem State.setPair_engine (s : State) (p : Nat) (x : Pair) : (s.setPair p x).engine = s.engine := rfl
@[simp] theorem State.setPair_answers (s : State) (p : Nat) (x : Pair) : (s.setPair p x).answers = s.answers := rfl
@[simp] theorem State.setPair_touched (s : State) (p : Nat) (x : Pair) : (s.setPair p x).touched = s.touched := rfl
@[simp] theorem State.setPair_ended (s : State) (p : Nat) (x : Pair) : (s.setPair p x).ended = s.ended := rfl

/-! ### setHart -/

@[simp] theorem State.setHart_cyc (s : State) (h : Nat) (x : Hart) : (s.setHart h x).cyc = s.cyc := rfl
@[simp] theorem State.setHart_actor (s : State) (h : Nat) (x : Hart) : (s.setHart h x).actor = s.actor := rfl
@[simp] theorem State.setHart_agenda (s : State) (h : Nat) (x : Hart) : (s.setHart h x).agenda = s.agenda := rfl
@[simp] theorem State.setHart_fresh (s : State) (h : Nat) (x : Hart) : (s.setHart h x).fresh = s.fresh := rfl
@[simp] theorem State.setHart_nextOp (s : State) (h : Nat) (x : Hart) : (s.setHart h x).nextOp = s.nextOp := rfl
@[simp] theorem State.setHart_mem (s : State) (h : Nat) (x : Hart) : (s.setHart h x).mem = s.mem := rfl
@[simp] theorem State.setHart_unc (s : State) (h : Nat) (x : Hart) : (s.setHart h x).unc = s.unc := rfl
@[simp] theorem State.setHart_dies (s : State) (h : Nat) (x : Hart) : (s.setHart h x).dies = s.dies := rfl
@[simp] theorem State.setHart_regions (s : State) (h : Nat) (x : Hart) : (s.setHart h x).regions = s.regions := rfl
@[simp] theorem State.setHart_cores (s : State) (h : Nat) (x : Hart) : (s.setHart h x).cores = s.cores := rfl
@[simp] theorem State.setHart_pairs (s : State) (h : Nat) (x : Hart) : (s.setHart h x).pairs = s.pairs := rfl
@[simp] theorem State.setHart_clusters (s : State) (h : Nat) (x : Hart) : (s.setHart h x).clusters = s.clusters := rfl
@[simp] theorem State.setHart_parts (s : State) (h : Nat) (x : Hart) : (s.setHart h x).parts = s.parts := rfl
@[simp] theorem State.setHart_harts (s : State) (h : Nat) (x : Hart) : (s.setHart h x).harts = s.harts.put h x := rfl
@[simp] theorem State.setHart_conts (s : State) (h : Nat) (x : Hart) : (s.setHart h x).conts = s.conts := rfl
@[simp] theorem State.setHart_launches (s : State) (h : Nat) (x : Hart) : (s.setHart h x).launches = s.launches := rfl
@[simp] theorem State.setHart_nextLaunch (s : State) (h : Nat) (x : Hart) : (s.setHart h x).nextLaunch = s.nextLaunch := rfl
@[simp] theorem State.setHart_rslots (s : State) (h : Nat) (x : Hart) : (s.setHart h x).rslots = s.rslots := rfl
@[simp] theorem State.setHart_ropens (s : State) (h : Nat) (x : Hart) : (s.setHart h x).ropens = s.ropens := rfl
@[simp] theorem State.setHart_ests (s : State) (h : Nat) (x : Hart) : (s.setHart h x).ests = s.ests := rfl
@[simp] theorem State.setHart_fab (s : State) (h : Nat) (x : Hart) : (s.setHart h x).fab = s.fab := rfl
@[simp] theorem State.setHart_mod (s : State) (h : Nat) (x : Hart) : (s.setHart h x).mod = s.mod := rfl
@[simp] theorem State.setHart_shoot (s : State) (h : Nat) (x : Hart) : (s.setHart h x).shoot = s.shoot := rfl
@[simp] theorem State.setHart_slotWrs (s : State) (h : Nat) (x : Hart) : (s.setHart h x).slotWrs = s.slotWrs := rfl
@[simp] theorem State.setHart_shareWrs (s : State) (h : Nat) (x : Hart) : (s.setHart h x).shareWrs = s.shareWrs := rfl
@[simp] theorem State.setHart_plan (s : State) (h : Nat) (x : Hart) : (s.setHart h x).plan = s.plan := rfl
@[simp] theorem State.setHart_hostq (s : State) (h : Nat) (x : Hart) : (s.setHart h x).hostq = s.hostq := rfl
@[simp] theorem State.setHart_engine (s : State) (h : Nat) (x : Hart) : (s.setHart h x).engine = s.engine := rfl
@[simp] theorem State.setHart_answers (s : State) (h : Nat) (x : Hart) : (s.setHart h x).answers = s.answers := rfl
@[simp] theorem State.setHart_touched (s : State) (h : Nat) (x : Hart) : (s.setHart h x).touched = s.touched := rfl
@[simp] theorem State.setHart_ended (s : State) (h : Nat) (x : Hart) : (s.setHart h x).ended = s.ended := rfl

/-! ### soon -/

@[simp] theorem State.soon_cyc (s : State) (ts : List Turn) : (s.soon ts).cyc = s.cyc := rfl
@[simp] theorem State.soon_actor (s : State) (ts : List Turn) : (s.soon ts).actor = s.actor := rfl
@[simp] theorem State.soon_agenda (s : State) (ts : List Turn) : (s.soon ts).agenda = ts ++ s.agenda := rfl
@[simp] theorem State.soon_fresh (s : State) (ts : List Turn) : (s.soon ts).fresh = s.fresh := rfl
@[simp] theorem State.soon_nextOp (s : State) (ts : List Turn) : (s.soon ts).nextOp = s.nextOp := rfl
@[simp] theorem State.soon_mem (s : State) (ts : List Turn) : (s.soon ts).mem = s.mem := rfl
@[simp] theorem State.soon_unc (s : State) (ts : List Turn) : (s.soon ts).unc = s.unc := rfl
@[simp] theorem State.soon_dies (s : State) (ts : List Turn) : (s.soon ts).dies = s.dies := rfl
@[simp] theorem State.soon_regions (s : State) (ts : List Turn) : (s.soon ts).regions = s.regions := rfl
@[simp] theorem State.soon_cores (s : State) (ts : List Turn) : (s.soon ts).cores = s.cores := rfl
@[simp] theorem State.soon_pairs (s : State) (ts : List Turn) : (s.soon ts).pairs = s.pairs := rfl
@[simp] theorem State.soon_clusters (s : State) (ts : List Turn) : (s.soon ts).clusters = s.clusters := rfl
@[simp] theorem State.soon_parts (s : State) (ts : List Turn) : (s.soon ts).parts = s.parts := rfl
@[simp] theorem State.soon_harts (s : State) (ts : List Turn) : (s.soon ts).harts = s.harts := rfl
@[simp] theorem State.soon_conts (s : State) (ts : List Turn) : (s.soon ts).conts = s.conts := rfl
@[simp] theorem State.soon_launches (s : State) (ts : List Turn) : (s.soon ts).launches = s.launches := rfl
@[simp] theorem State.soon_nextLaunch (s : State) (ts : List Turn) : (s.soon ts).nextLaunch = s.nextLaunch := rfl
@[simp] theorem State.soon_rslots (s : State) (ts : List Turn) : (s.soon ts).rslots = s.rslots := rfl
@[simp] theorem State.soon_ropens (s : State) (ts : List Turn) : (s.soon ts).ropens = s.ropens := rfl
@[simp] theorem State.soon_ests (s : State) (ts : List Turn) : (s.soon ts).ests = s.ests := rfl
@[simp] theorem State.soon_fab (s : State) (ts : List Turn) : (s.soon ts).fab = s.fab := rfl
@[simp] theorem State.soon_mod (s : State) (ts : List Turn) : (s.soon ts).mod = s.mod := rfl
@[simp] theorem State.soon_shoot (s : State) (ts : List Turn) : (s.soon ts).shoot = s.shoot := rfl
@[simp] theorem State.soon_slotWrs (s : State) (ts : List Turn) : (s.soon ts).slotWrs = s.slotWrs := rfl
@[simp] theorem State.soon_shareWrs (s : State) (ts : List Turn) : (s.soon ts).shareWrs = s.shareWrs := rfl
@[simp] theorem State.soon_plan (s : State) (ts : List Turn) : (s.soon ts).plan = s.plan := rfl
@[simp] theorem State.soon_hostq (s : State) (ts : List Turn) : (s.soon ts).hostq = s.hostq := rfl
@[simp] theorem State.soon_engine (s : State) (ts : List Turn) : (s.soon ts).engine = s.engine := rfl
@[simp] theorem State.soon_answers (s : State) (ts : List Turn) : (s.soon ts).answers = s.answers := rfl
@[simp] theorem State.soon_touched (s : State) (ts : List Turn) : (s.soon ts).touched = s.touched := rfl
@[simp] theorem State.soon_ended (s : State) (ts : List Turn) : (s.soon ts).ended = s.ended := rfl

/-! ### newId -/

@[simp] theorem State.newId_cyc (s : State) : (s.newId.2).cyc = s.cyc := rfl
@[simp] theorem State.newId_actor (s : State) : (s.newId.2).actor = s.actor := rfl
@[simp] theorem State.newId_agenda (s : State) : (s.newId.2).agenda = s.agenda := rfl
@[simp] theorem State.newId_fresh (s : State) : (s.newId.2).fresh = s.fresh := rfl
@[simp] theorem State.newId_nextOp (s : State) : (s.newId.2).nextOp = s.nextOp + 1 := rfl
@[simp] theorem State.newId_mem (s : State) : (s.newId.2).mem = s.mem := rfl
@[simp] theorem State.newId_unc (s : State) : (s.newId.2).unc = s.unc := rfl
@[simp] theorem State.newId_dies (s : State) : (s.newId.2).dies = s.dies := rfl
@[simp] theorem State.newId_regions (s : State) : (s.newId.2).regions = s.regions := rfl
@[simp] theorem State.newId_cores (s : State) : (s.newId.2).cores = s.cores := rfl
@[simp] theorem State.newId_pairs (s : State) : (s.newId.2).pairs = s.pairs := rfl
@[simp] theorem State.newId_clusters (s : State) : (s.newId.2).clusters = s.clusters := rfl
@[simp] theorem State.newId_parts (s : State) : (s.newId.2).parts = s.parts := rfl
@[simp] theorem State.newId_harts (s : State) : (s.newId.2).harts = s.harts := rfl
@[simp] theorem State.newId_conts (s : State) : (s.newId.2).conts = s.conts := rfl
@[simp] theorem State.newId_launches (s : State) : (s.newId.2).launches = s.launches := rfl
@[simp] theorem State.newId_nextLaunch (s : State) : (s.newId.2).nextLaunch = s.nextLaunch := rfl
@[simp] theorem State.newId_rslots (s : State) : (s.newId.2).rslots = s.rslots := rfl
@[simp] theorem State.newId_ropens (s : State) : (s.newId.2).ropens = s.ropens := rfl
@[simp] theorem State.newId_ests (s : State) : (s.newId.2).ests = s.ests := rfl
@[simp] theorem State.newId_fab (s : State) : (s.newId.2).fab = s.fab := rfl
@[simp] theorem State.newId_mod (s : State) : (s.newId.2).mod = s.mod := rfl
@[simp] theorem State.newId_shoot (s : State) : (s.newId.2).shoot = s.shoot := rfl
@[simp] theorem State.newId_slotWrs (s : State) : (s.newId.2).slotWrs = s.slotWrs := rfl
@[simp] theorem State.newId_shareWrs (s : State) : (s.newId.2).shareWrs = s.shareWrs := rfl
@[simp] theorem State.newId_plan (s : State) : (s.newId.2).plan = s.plan := rfl
@[simp] theorem State.newId_hostq (s : State) : (s.newId.2).hostq = s.hostq := rfl
@[simp] theorem State.newId_engine (s : State) : (s.newId.2).engine = s.engine := rfl
@[simp] theorem State.newId_answers (s : State) : (s.newId.2).answers = s.answers := rfl
@[simp] theorem State.newId_touched (s : State) : (s.newId.2).touched = s.touched := rfl
@[simp] theorem State.newId_ended (s : State) : (s.newId.2).ended = s.ended := rfl

/-! ### takeWord -/

@[simp] theorem State.takeWord_cyc (s : State) : (s.takeWord.2).cyc = s.cyc := rfl
@[simp] theorem State.takeWord_actor (s : State) : (s.takeWord.2).actor = s.actor := rfl
@[simp] theorem State.takeWord_agenda (s : State) : (s.takeWord.2).agenda = s.agenda := rfl
@[simp] theorem State.takeWord_fresh (s : State) : (s.takeWord.2).fresh = s.fresh + 1 := rfl
@[simp] theorem State.takeWord_nextOp (s : State) : (s.takeWord.2).nextOp = s.nextOp := rfl
@[simp] theorem State.takeWord_mem (s : State) : (s.takeWord.2).mem = s.mem := rfl
@[simp] theorem State.takeWord_unc (s : State) : (s.takeWord.2).unc = s.unc := rfl
@[simp] theorem State.takeWord_dies (s : State) : (s.takeWord.2).dies = s.dies := rfl
@[simp] theorem State.takeWord_regions (s : State) : (s.takeWord.2).regions = s.regions := rfl
@[simp] theorem State.takeWord_cores (s : State) : (s.takeWord.2).cores = s.cores := rfl
@[simp] theorem State.takeWord_pairs (s : State) : (s.takeWord.2).pairs = s.pairs := rfl
@[simp] theorem State.takeWord_clusters (s : State) : (s.takeWord.2).clusters = s.clusters := rfl
@[simp] theorem State.takeWord_parts (s : State) : (s.takeWord.2).parts = s.parts := rfl
@[simp] theorem State.takeWord_harts (s : State) : (s.takeWord.2).harts = s.harts := rfl
@[simp] theorem State.takeWord_conts (s : State) : (s.takeWord.2).conts = s.conts := rfl
@[simp] theorem State.takeWord_launches (s : State) : (s.takeWord.2).launches = s.launches := rfl
@[simp] theorem State.takeWord_nextLaunch (s : State) : (s.takeWord.2).nextLaunch = s.nextLaunch := rfl
@[simp] theorem State.takeWord_rslots (s : State) : (s.takeWord.2).rslots = s.rslots := rfl
@[simp] theorem State.takeWord_ropens (s : State) : (s.takeWord.2).ropens = s.ropens := rfl
@[simp] theorem State.takeWord_ests (s : State) : (s.takeWord.2).ests = s.ests := rfl
@[simp] theorem State.takeWord_fab (s : State) : (s.takeWord.2).fab = s.fab := rfl
@[simp] theorem State.takeWord_mod (s : State) : (s.takeWord.2).mod = s.mod := rfl
@[simp] theorem State.takeWord_shoot (s : State) : (s.takeWord.2).shoot = s.shoot := rfl
@[simp] theorem State.takeWord_slotWrs (s : State) : (s.takeWord.2).slotWrs = s.slotWrs := rfl
@[simp] theorem State.takeWord_shareWrs (s : State) : (s.takeWord.2).shareWrs = s.shareWrs := rfl
@[simp] theorem State.takeWord_plan (s : State) : (s.takeWord.2).plan = s.plan := rfl
@[simp] theorem State.takeWord_hostq (s : State) : (s.takeWord.2).hostq = s.hostq := rfl
@[simp] theorem State.takeWord_engine (s : State) : (s.takeWord.2).engine = s.engine := rfl
@[simp] theorem State.takeWord_answers (s : State) : (s.takeWord.2).answers = s.answers := rfl
@[simp] theorem State.takeWord_touched (s : State) : (s.takeWord.2).touched = s.touched := rfl
@[simp] theorem State.takeWord_ended (s : State) : (s.takeWord.2).ended = s.ended := rfl

/-! ### takeGen -/

@[simp] theorem State.takeGen_cyc (s : State) : (s.takeGen.2).cyc = s.cyc := rfl
@[simp] theorem State.takeGen_actor (s : State) : (s.takeGen.2).actor = s.actor := rfl
@[simp] theorem State.takeGen_agenda (s : State) : (s.takeGen.2).agenda = s.agenda := rfl
@[simp] theorem State.takeGen_fresh (s : State) : (s.takeGen.2).fresh = s.fresh + 1 := rfl
@[simp] theorem State.takeGen_nextOp (s : State) : (s.takeGen.2).nextOp = s.nextOp := rfl
@[simp] theorem State.takeGen_mem (s : State) : (s.takeGen.2).mem = s.mem := rfl
@[simp] theorem State.takeGen_unc (s : State) : (s.takeGen.2).unc = s.unc := rfl
@[simp] theorem State.takeGen_dies (s : State) : (s.takeGen.2).dies = s.dies := rfl
@[simp] theorem State.takeGen_regions (s : State) : (s.takeGen.2).regions = s.regions := rfl
@[simp] theorem State.takeGen_cores (s : State) : (s.takeGen.2).cores = s.cores := rfl
@[simp] theorem State.takeGen_pairs (s : State) : (s.takeGen.2).pairs = s.pairs := rfl
@[simp] theorem State.takeGen_clusters (s : State) : (s.takeGen.2).clusters = s.clusters := rfl
@[simp] theorem State.takeGen_parts (s : State) : (s.takeGen.2).parts = s.parts := rfl
@[simp] theorem State.takeGen_harts (s : State) : (s.takeGen.2).harts = s.harts := rfl
@[simp] theorem State.takeGen_conts (s : State) : (s.takeGen.2).conts = s.conts := rfl
@[simp] theorem State.takeGen_launches (s : State) : (s.takeGen.2).launches = s.launches := rfl
@[simp] theorem State.takeGen_nextLaunch (s : State) : (s.takeGen.2).nextLaunch = s.nextLaunch := rfl
@[simp] theorem State.takeGen_rslots (s : State) : (s.takeGen.2).rslots = s.rslots := rfl
@[simp] theorem State.takeGen_ropens (s : State) : (s.takeGen.2).ropens = s.ropens := rfl
@[simp] theorem State.takeGen_ests (s : State) : (s.takeGen.2).ests = s.ests := rfl
@[simp] theorem State.takeGen_fab (s : State) : (s.takeGen.2).fab = s.fab := rfl
@[simp] theorem State.takeGen_mod (s : State) : (s.takeGen.2).mod = s.mod := rfl
@[simp] theorem State.takeGen_shoot (s : State) : (s.takeGen.2).shoot = s.shoot := rfl
@[simp] theorem State.takeGen_slotWrs (s : State) : (s.takeGen.2).slotWrs = s.slotWrs := rfl
@[simp] theorem State.takeGen_shareWrs (s : State) : (s.takeGen.2).shareWrs = s.shareWrs := rfl
@[simp] theorem State.takeGen_plan (s : State) : (s.takeGen.2).plan = s.plan := rfl
@[simp] theorem State.takeGen_hostq (s : State) : (s.takeGen.2).hostq = s.hostq := rfl
@[simp] theorem State.takeGen_engine (s : State) : (s.takeGen.2).engine = s.engine := rfl
@[simp] theorem State.takeGen_answers (s : State) : (s.takeGen.2).answers = s.answers := rfl
@[simp] theorem State.takeGen_touched (s : State) : (s.takeGen.2).touched = s.touched := rfl
@[simp] theorem State.takeGen_ended (s : State) : (s.takeGen.2).ended = s.ended := rfl

/-! ### wrMem -/

@[simp] theorem State.wrMem_cyc (s : State) (pa : Nat) (bs : List Byte) : (s.wrMem pa bs).cyc = s.cyc := rfl
@[simp] theorem State.wrMem_actor (s : State) (pa : Nat) (bs : List Byte) : (s.wrMem pa bs).actor = s.actor := rfl
@[simp] theorem State.wrMem_agenda (s : State) (pa : Nat) (bs : List Byte) : (s.wrMem pa bs).agenda = s.agenda := rfl
@[simp] theorem State.wrMem_fresh (s : State) (pa : Nat) (bs : List Byte) : (s.wrMem pa bs).fresh = s.fresh := rfl
@[simp] theorem State.wrMem_nextOp (s : State) (pa : Nat) (bs : List Byte) : (s.wrMem pa bs).nextOp = s.nextOp := rfl
@[simp] theorem State.wrMem_mem (s : State) (pa : Nat) (bs : List Byte) : (s.wrMem pa bs).mem = s.mem.wrN pa bs := rfl
@[simp] theorem State.wrMem_regions (s : State) (pa : Nat) (bs : List Byte) : (s.wrMem pa bs).regions = s.regions := rfl
@[simp] theorem State.wrMem_cores (s : State) (pa : Nat) (bs : List Byte) : (s.wrMem pa bs).cores = s.cores := rfl
@[simp] theorem State.wrMem_pairs (s : State) (pa : Nat) (bs : List Byte) : (s.wrMem pa bs).pairs = s.pairs := rfl
@[simp] theorem State.wrMem_clusters (s : State) (pa : Nat) (bs : List Byte) : (s.wrMem pa bs).clusters = s.clusters := rfl
@[simp] theorem State.wrMem_parts (s : State) (pa : Nat) (bs : List Byte) : (s.wrMem pa bs).parts = s.parts := rfl
@[simp] theorem State.wrMem_harts (s : State) (pa : Nat) (bs : List Byte) : (s.wrMem pa bs).harts = s.harts := rfl
@[simp] theorem State.wrMem_conts (s : State) (pa : Nat) (bs : List Byte) : (s.wrMem pa bs).conts = s.conts := rfl
@[simp] theorem State.wrMem_launches (s : State) (pa : Nat) (bs : List Byte) : (s.wrMem pa bs).launches = s.launches := rfl
@[simp] theorem State.wrMem_nextLaunch (s : State) (pa : Nat) (bs : List Byte) : (s.wrMem pa bs).nextLaunch = s.nextLaunch := rfl
@[simp] theorem State.wrMem_rslots (s : State) (pa : Nat) (bs : List Byte) : (s.wrMem pa bs).rslots = s.rslots := rfl
@[simp] theorem State.wrMem_ropens (s : State) (pa : Nat) (bs : List Byte) : (s.wrMem pa bs).ropens = s.ropens := rfl
@[simp] theorem State.wrMem_ests (s : State) (pa : Nat) (bs : List Byte) : (s.wrMem pa bs).ests = s.ests := rfl
@[simp] theorem State.wrMem_fab (s : State) (pa : Nat) (bs : List Byte) : (s.wrMem pa bs).fab = s.fab := rfl
@[simp] theorem State.wrMem_mod (s : State) (pa : Nat) (bs : List Byte) : (s.wrMem pa bs).mod = s.mod := rfl
@[simp] theorem State.wrMem_shoot (s : State) (pa : Nat) (bs : List Byte) : (s.wrMem pa bs).shoot = s.shoot := rfl
@[simp] theorem State.wrMem_slotWrs (s : State) (pa : Nat) (bs : List Byte) : (s.wrMem pa bs).slotWrs = s.slotWrs := rfl
@[simp] theorem State.wrMem_shareWrs (s : State) (pa : Nat) (bs : List Byte) : (s.wrMem pa bs).shareWrs = s.shareWrs := rfl
@[simp] theorem State.wrMem_plan (s : State) (pa : Nat) (bs : List Byte) : (s.wrMem pa bs).plan = s.plan := rfl
@[simp] theorem State.wrMem_hostq (s : State) (pa : Nat) (bs : List Byte) : (s.wrMem pa bs).hostq = s.hostq := rfl
@[simp] theorem State.wrMem_engine (s : State) (pa : Nat) (bs : List Byte) : (s.wrMem pa bs).engine = s.engine := rfl
@[simp] theorem State.wrMem_answers (s : State) (pa : Nat) (bs : List Byte) : (s.wrMem pa bs).answers = s.answers := rfl
@[simp] theorem State.wrMem_touched (s : State) (pa : Nat) (bs : List Byte) : (s.wrMem pa bs).touched = s.touched := rfl
@[simp] theorem State.wrMem_ended (s : State) (pa : Nat) (bs : List Byte) : (s.wrMem pa bs).ended = s.ended := rfl

/-! ### What the accessors read afterwards -/

@[simp] theorem State.usr_of_core (s : State) (c : Nat) : (s.core c).usr = s.usr c := rfl
/-- A change of a context depends on that context only. -/
theorem State.modCtx_congr {s : State} {c : Nat} {lan : Bool} {f f' : Ctx → Ctx} (h : f (s.ctx c lan) = f' (s.ctx c lan)) : s.modCtx c lan f = s.modCtx c lan f' := by
  cases lan
  · simp only [State.ctx, Bool.false_eq_true, if_false] at h
    simp only [State.modCtx, State.modUsr, State.modCore, Bool.false_eq_true, if_false, usr_of_core, h]
  · simp only [State.ctx, if_true] at h
    simp only [State.modCtx, State.modLan, State.modCore, if_true, h]

@[simp] theorem State.core_setCore (s : State) (c : Nat) (w : WCore) : (s.setCore c w).core c = w := Tab.getD_put_same ..
theorem State.core_setCore_other (s : State) {c d : Nat} (w : WCore) (h : c ≠ d) : (s.setCore c w).core d = s.core d := Tab.getD_put_other _ _ _ h
@[simp] theorem State.core_modCore (s : State) (c : Nat) (f : WCore → WCore) : (s.modCore c f).core c = f (s.core c) := core_setCore ..
theorem State.core_modCore_other (s : State) {c d : Nat} (f : WCore → WCore) (h : c ≠ d) : (s.modCore c f).core d = s.core d := core_setCore_other _ _ h
@[simp] theorem State.core_modUsr (s : State) (c : Nat) (f : User → User) : (s.modUsr c f).core c = { s.core c with usr := f (s.usr c) } := core_modCore ..
theorem State.core_modUsr_other (s : State) {c d : Nat} (f : User → User) (h : c ≠ d) : (s.modUsr c f).core d = s.core d := core_modCore_other _ _ h
@[simp] theorem State.core_modLan (s : State) (c : Nat) (f : Lantern → Lantern) : (s.modLan c f).core c = { s.core c with lan := f (s.core c).lan } := core_modCore ..
theorem State.core_modLan_other (s : State) {c d : Nat} (f : Lantern → Lantern) (h : c ≠ d) : (s.modLan c f).core d = s.core d := core_modCore_other _ _ h
@[simp] theorem State.usr_modCore (s : State) (c : Nat) (f : WCore → WCore) : (s.modCore c f).usr c = (f (s.core c)).usr := congrArg WCore.usr (core_modCore ..)
theorem State.usr_modCore_other (s : State) {c d : Nat} (f : WCore → WCore) (h : c ≠ d) : (s.modCore c f).usr d = s.usr d := congrArg WCore.usr (core_modCore_other _ _ h)
@[simp] theorem State.usr_modUsr (s : State) (c : Nat) (f : User → User) : (s.modUsr c f).usr c = f (s.usr c) := congrArg WCore.usr (core_modUsr ..)
theorem State.usr_modUsr_other (s : State) {c d : Nat} (f : User → User) (h : c ≠ d) : (s.modUsr c f).usr d = s.usr d := congrArg WCore.usr (core_modUsr_other _ _ h)
@[simp] theorem State.usr_modLan (s : State) (c : Nat) (f : Lantern → Lantern) : (s.modLan c f).usr c = s.usr c := (congrArg WCore.usr (core_modLan s c f)).trans rfl
@[simp] theorem State.usr_modTask (s : State) (c : Nat) (f : Task → Task) : (s.modTask c f).usr c = { s.usr c with task := (s.usr c).task.map f } := usr_modUsr ..
@[simp] theorem State.usr_modSpad (s : State) (c : Nat) (f : Mem → Mem) : (s.modSpad c f).usr c = { s.usr c with spad := f (s.usr c).spad } := usr_modUsr ..
@[simp] theorem State.spad_modSpad (s : State) (c : Nat) (f : Mem → Mem) : (s.modSpad c f).spad c = f (s.spad c) := by simp [State.spad]
@[simp] theorem State.task?_modTask (s : State) (c : Nat) (f : Task → Task) : (s.modTask c f).task? c = (s.task? c).map f := by simp [State.task?]
@[simp] theorem State.usr_modCtx_user (s : State) (c : Nat) (f : Ctx → Ctx) : (s.modCtx c false f).usr c = { s.usr c with ctx := f (s.usr c).ctx } := by simp [State.modCtx]
@[simp] theorem State.usr_modCtx_lan (s : State) (c : Nat) (f : Ctx → Ctx) : (s.modCtx c true f).usr c = s.usr c := by simp [State.modCtx]
@[simp] theorem State.ctx_modCtx (s : State) (c : Nat) (lan : Bool) (f : Ctx → Ctx) : (s.modCtx c lan f).ctx c lan = f (s.ctx c lan) := by
  cases lan <;> simp [State.modCtx, State.ctx]
theorem State.ctx_modCtx_side (s : State) (c : Nat) {a b : Bool} (f : Ctx → Ctx) (h : a ≠ b) : (s.modCtx c a f).ctx c b = s.ctx c b := by
  cases a <;> cases b <;> first | exact absurd rfl h | simp [State.modCtx, State.ctx]
theorem State.core_modCtx_other (s : State) {c d : Nat} (lan : Bool) (f : Ctx → Ctx) (h : c ≠ d) : (s.modCtx c lan f).core d = s.core d := by
  cases lan
  · simpa [State.modCtx] using core_modUsr_other s _ h
  · simpa [State.modCtx] using core_modLan_other s _ h
@[simp] theorem State.find?_modCont (s : State) (k : Nat) (f : Cont → Cont) : (s.modCont k f).conts.find? k = (s.conts.find? k).map f := Tab.find?_upd_same ..
theorem State.find?_modCont_other (s : State) {k j : Nat} (f : Cont → Cont) (h : k ≠ j) : (s.modCont k f).conts.find? j = s.conts.find? j := Tab.find?_upd_other _ _ h
@[simp] theorem State.find?_modLaunch (s : State) (k : Nat) (f : Launch → Launch) : (s.modLaunch k f).launches.find? k = (s.launches.find? k).map f := Tab.find?_upd_same ..
theorem State.find?_modLaunch_other (s : State) {k j : Nat} (f : Launch → Launch) (h : k ≠ j) : (s.modLaunch k f).launches.find? j = s.launches.find? j := Tab.find?_upd_other _ _ h
@[simp] theorem State.pair_setPair (s : State) (p : Nat) (x : Pair) : (s.setPair p x).pair p = x := Tab.getD_put_same ..
theorem State.pair_setPair_other (s : State) {p q : Nat} (x : Pair) (h : p ≠ q) : (s.setPair p x).pair q = s.pair q := Tab.getD_put_other _ _ _ h
@[simp] theorem State.hart_setHart (s : State) (h : Nat) (x : Hart) : (s.setHart h x).hart h = x := Tab.getD_put_same ..
theorem State.hart_setHart_other (s : State) {h j : Nat} (x : Hart) (e : h ≠ j) : (s.setHart h x).hart j = s.hart j := Tab.getD_put_other _ _ _ e
@[simp] theorem State.cluster_modCluster (s : State) (k : Nat) (f : Cluster → Cluster) : (s.modCluster k f).cluster k = f (s.cluster k) := Tab.getD_put_same ..
theorem State.cluster_modCluster_other (s : State) {k j : Nat} (f : Cluster → Cluster) (h : k ≠ j) : (s.modCluster k f).cluster j = s.cluster j := Tab.getD_put_other _ _ _ h
theorem State.die_modDie (s : State) (d : Nat) (f : Die → Die) (h : d < s.dies.length) : (s.modDie d f).die d = f (s.die d) := nth_setAt_same _ _ _ _ h
theorem State.die_modDie_other (s : State) {d e : Nat} (f : Die → Die) (h : d ≠ e) : (s.modDie d f).die e = s.die e := nth_setAt_other _ _ _ h
theorem State.part_modPart (s : State) (p : Nat) (f : Part → Part) (h : p < s.parts.length) : (s.modPart p f).part p = f (s.part p) := nth_setAt_same _ _ _ _ h
theorem State.part_modPart_other (s : State) {p q : Nat} (f : Part → Part) (h : p ≠ q) : (s.modPart p f).part q = s.part q := nth_setAt_other _ _ _ h

/-! ### Side by side: an update of one part leaves the accessors of the others -/

theorem State.core_of_cores {s t : State} (h : t.cores = s.cores) (c : Nat) : t.core c = s.core c := by simp [State.core, h]


end Sys2Proof.Machine
end

