-- ==== Sys2Proof/Laws/Issue.lean ====
section
/-! SUPPORT. A move that stands alone: its word, its bundle, what its consideration comes to (R50), and the state that its
issue leaves (R24). -/
namespace Sys2Proof.Machine

/-! ### The word of a move (R28) -/

theorem moveNat_lt (g : BitVec 3) (e : Bool) (src : BitVec 10) {d : Nat} (h : d < 2 ^ 10) : moveNat g e src d < 2 ^ 24 := by
  have := g.isLt
  have := src.isLt
  unfold moveNat
  cases e <;> simp <;> omega

/-- The word of a move. -/
def moveWord (g : BitVec 3) (e : Bool) (src : BitVec 10) (d : Nat) : BitVec 24 := BitVec.ofNat 24 (moveNat g e src d)

theorem moveWord_toNat (g : BitVec 3) (e : Bool) (src : BitVec 10) {d : Nat} (h : d < 2 ^ 10) : (moveWord g e src d).toNat = moveNat g e src d := by
  simp only [moveWord, BitVec.toNat_ofNat]
  exact Nat.mod_eq_of_lt (moveNat_lt g e src h)

section
variable (k : Nat) (g : BitVec 3) (e : Bool) (src : BitVec 10) {d : Nat} (h : d < 2 ^ 10)
include h

theorem Mv.guard_word : Mv.guard { k := k, w := moveWord g e src d } = g.toNat := by
  have := g.isLt
  have := src.isLt
  simp only [Mv.guard, fld, moveWord_toNat g e src h, moveNat]
  cases e <;> simp <;> omega

theorem Mv.srcN_word : Mv.srcN { k := k, w := moveWord g e src d } = src.toNat := by
  have := g.isLt
  have := src.isLt
  simp only [Mv.srcN, fld, moveWord_toNat g e src h, moveNat]
  cases e <;> simp <;> omega

theorem Mv.dstN_word : Mv.dstN { k := k, w := moveWord g e src d } = d := by
  have := g.isLt
  have := src.isLt
  simp only [Mv.dstN, fld, moveWord_toNat g e src h, moveNat]
  cases e <;> simp <;> omega

theorem Mv.e_word : Mv.e { k := k, w := moveWord g e src d } = e := by
  have := g.isLt
  have := src.isLt
  have hb : (moveWord g e src d).getLsbD 20 = decide (moveNat g e src d / 2 ^ 20 % 2 = 1) := by
    rw [BitVec.getLsbD, moveWord_toNat g e src h, Nat.testBit_eq_decide_div_mod_eq]
  simp only [Mv.e, hb, moveNat]
  cases e <;> simp <;> omega
end

theorem Op.code_lt (o : Op) : 0x200 + o.code < 2 ^ 10 := by cases o <;> decide

theorem Op.ofCode_word (o : Op) : dstOf (0x200 + o.code) = .trig o := by cases o <;> rfl

theorem moveWord_ne (g : BitVec 3) (e : Bool) (src : BitVec 10) {d : Nat} (h : d < 2 ^ 10) (h0 : d ≠ 0) : moveWord g e src d ≠ 0 := by
  intro hc
  have := congrArg BitVec.toNat hc
  rw [moveWord_toNat g e src h] at this
  simp [moveNat] at this
  omega

theorem homeSlot_op (o : Op) (g : BitVec 3) (e : Bool) (src : BitVec 10) : homeSlot (moveWord g e src (0x200 + o.code)) = o.homeSlot := by
  have hl := Op.code_lt o
  have hd : (moveWord g e src (0x200 + o.code)).toNat / 256 % 4 = 2 ∧ (moveWord g e src (0x200 + o.code)).toNat % 256 = o.code := by
    have := g.isLt
    have := src.isLt
    have hc : o.code < 256 := by cases o <;> decide
    rw [moveWord_toNat g e src hl]
    simp only [moveNat]
    cases e <;> simp <;> omega
  simp [homeSlot, hd, Op.ofCode_code]

/-- A trigger that stands alone is the bundle of its one move. -/
theorem exec_ofOp (o : Op) (g : BitVec 3) (e : Bool) (src : BitVec 10) (s : State) :
    exec (Instr.ofOp o g e src) s = s.issueBundle (Bundle.one o.homeSlot (moveWord g e src (0x200 + o.code))) := by
  have : exec (Instr.ofOp o g e src) s = s.issueMove (moveNat g e src (0x200 + o.code)) := by cases o <;> rfl
  rw [this, State.issueMove, ← homeSlot_op o g e src]
  rfl

/-! ### The bundle of one move -/

theorem Op.homeSlot_lt (o : Op) : o.homeSlot < 8 := by cases o <;> decide
theorem Op.homeSlot_legal (o : Op) : o.legalIn o.homeSlot = true := by cases o <;> decide

section
variable (k : Nat) (w : BitVec 24)
theorem one_limm (j : Nat) : (Bundle.one k w).limm j = false := by simp [Bundle.limm, Bundle.one]
theorem one_arv (j : Nat) : (Bundle.one k w).arv j = false := by simp [Bundle.arv, Bundle.one]
theorem one_arvAny : (Bundle.one k w).arvAny = false := by simp [Bundle.arvAny, hdrFld, fld, Bundle.one]
theorem one_shs : (Bundle.one k w).shs = false := by simp [Bundle.shs, Bundle.one]
theorem one_shv : (Bundle.one k w).shv = false := by simp [Bundle.shv, Bundle.one]
theorem one_seg : (Bundle.one k w).seg = false := by simp [Bundle.seg, Bundle.one]
theorem one_rdv : (Bundle.one k w).rdv = false := by simp [Bundle.rdv, Bundle.one]
theorem one_idle : (Bundle.one k w).idle = 0 := by simp [Bundle.idle, hdrFld, fld, Bundle.one]
theorem one_np : (Bundle.one k w).np = false := by simp [Bundle.np, Bundle.one]
theorem one_shadow (j : Nat) : (Bundle.one k w).shadow j = false := by simp [Bundle.shadow, one_shs, one_shv]
theorem one_word (j : Nat) : (Bundle.one k w).word j = if k = j ∧ j < 8 then w else 0 := by
  rcases Nat.lt_or_ge j 8 with h | h
  · have : j = 0 ∨ j = 1 ∨ j = 2 ∨ j = 3 ∨ j = 4 ∨ j = 5 ∨ j = 6 ∨ j = 7 := by omega
    rcases this with rfl | rfl | rfl | rfl | rfl | rfl | rfl | rfl <;> simp [Bundle.word, Bundle.slots, Bundle.one, nth]
  · have : nth 0 (Bundle.one k w).slots j = 0 := by
      obtain ⟨n, rfl⟩ : ∃ n, j = n + 8 := ⟨j - 8, by omega⟩
      simp [Bundle.slots, nth]
    rw [Bundle.word, this, if_neg (by omega)]
theorem one_moves : (Bundle.one k w).moves = (upto 0 8).map (fun j => { k := j, w := if k = j then w else 0 }) := by
  rw [Bundle.moves, List.filter_eq_self.2 (by simp [one_limm])]
  apply List.map_congr_left
  intro j hj
  have := (mem_upto.1 hj).2
  simp [one_word, one_shadow, show j < 8 by omega]
end

/-! ### What runs of it (R44) -/

/-- The one move. -/
def theMove (o : Op) (g : BitVec 3) (e : Bool) (src : BitVec 10) : Mv := { k := o.homeSlot, w := moveWord g e src (0x200 + o.code) }

/-- Its bundle. -/
def theBundle (o : Op) (g : BitVec 3) (e : Bool) (src : BitVec 10) : Bundle := Bundle.one o.homeSlot (moveWord g e src (0x200 + o.code))

section
variable (o : Op) (g : BitVec 3) (e : Bool) (src : BitVec 10)
theorem theMove_src : (theMove o g e src).src = srcOf src.toNat := congrArg srcOf (Mv.srcN_word _ g e src (Op.code_lt o))
theorem theMove_dst : (theMove o g e src).dst = .trig o := by
  rw [Mv.dst, theMove, Mv.dstN_word _ g e src (Op.code_lt o), Op.ofCode_word]
theorem theMove_guard : (theMove o g e src).guard = g.toNat := Mv.guard_word _ g e src (Op.code_lt o)
theorem theMove_e : (theMove o g e src).e = e := Mv.e_word _ g e src (Op.code_lt o)
theorem theMove_empty : (theMove o g e src).empty = false :=
  decide_eq_false (moveWord_ne g e src (Op.code_lt o) (by omega))

/-- The moves of a bundle of one move that are not empty. -/
theorem one_filter (k : Nat) (hk : k < 8) (w : BitVec 24) (f : Mv → Bool) (h0 : ∀ j, f { k := j, w := 0 } = false) :
    (Bundle.one k w).moves.filter f = if f { k := k, w := w } then [{ k := k, w := w }] else [] := by
  rw [one_moves]
  replace h0 : ∀ j, f { k := j, w := 0#24 } = false := h0
  cases hf : f { k := k, w := w } <;> have : k = 0 ∨ k = 1 ∨ k = 2 ∨ k = 3 ∨ k = 4 ∨ k = 5 ∨ k = 6 ∨ k = 7 := by omega
  all_goals rcases this with rfl | rfl | rfl | rfl | rfl | rfl | rfl | rfl <;> simp [upto, List.filter, h0, hf]

theorem theBundle_running {x : Ctx} (h : x.pred g.toNat = true) : Bundle.running (theBundle o g e src) x = [theMove o g e src] := by
  have := one_filter o.homeSlot (Op.homeSlot_lt o) (moveWord g e src (0x200 + o.code)) (fun (m : Mv) => !m.empty && x.pred m.guard)
    (by intro j; simp [Mv.empty])
  rw [Bundle.running, theBundle, this, if_pos]
  · rfl
  · have h1 := theMove_empty o g e src
    have h2 := theMove_guard o g e src
    rw [theMove] at h1 h2
    simp [h1, h2, h]

/-- What a source other than a long immediate gives does not depend on its bundle. -/
theorem srcVal_given (s : State) (c : Nat) (lan : Bool) (b : Bundle) (m : Mv) (hm : m.src = srcOf src.toNat) (hl : srcOf src.toNat ≠ .long) :
    s.srcVal c (s.ctx c lan) b m = s.given c lan src := by
  have hw : Mv.src { k := 0, w := BitVec.ofNat 24 (src.toNat * 2 ^ 10) } = srcOf src.toNat := by
    have := src.isLt
    have : Mv.srcN { k := 0, w := BitVec.ofNat 24 (src.toNat * 2 ^ 10) } = src.toNat := by
      simp only [Mv.srcN, fld, BitVec.toNat_ofNat]
      omega
    rw [Mv.src, this]
  unfold State.given State.srcVal
  rw [hm, hw]
  cases h : srcOf src.toNat <;> first | exact absurd h hl | rfl

end

/-! ### Its trigger (R24), and the consideration (R50) -/

section
variable {s : State} {c : Nat} {lan : Bool} {o : Op} {g : BitVec 3} {src : BitVec 10} (e : Bool)

theorem Ctx.unit_setUnit (x : Ctx) (k : Nat) (p : UPorts) (h : k < 8) : (x.setUnit k p).unit k = p := rget_rset_same _ _ _ _ h

theorem Alone.notLong (h : Alone s c lan g src) : srcOf src.toNat ≠ .long := by
  intro hl
  have := h.source
  simp [Ctx.readable, hl] at this

theorem theMove_k : (theMove o g e src).k = o.homeSlot := by simp only [theMove]

/-- The ports of a bundle whose one running move is a trigger. -/
theorem portsOf_trig (b : Bundle) (x : Ctx) (m : Mv) (hr : Bundle.running b x = [m]) (hd : m.dst = .trig o) :
    s.portsOf c x b = x.writePort m.k 0 (s.srcVal c x b m) := by
  simp only [State.portsOf, hr, List.foldl, hd]

theorem portsOf_theBundle (h : Alone s c lan g src) :
    s.portsOf c (s.ctx c lan) (theBundle o g e src) = (s.ctx c lan).writePort o.homeSlot 0 (s.given c lan src) := by
  rw [portsOf_trig _ _ _ (theBundle_running o g e src h.guard) (theMove_dst o g e src),
    srcVal_given src s c lan _ _ (theMove_src o g e src) h.notLong, theMove_k]

/-- The triggers of a bundle whose one running move is a trigger. -/
theorem trigsOf_trig (b : Bundle) (x : Ctx) (m : Mv) (late : Bool) (hr : Bundle.running b x = [m]) (hd : m.dst = .trig o) :
    s.trigsOf c lan x b late = [{ c := c, lan := lan, slot := m.k, op := o, u := (s.portsOf c x b).unit m.k, x0 := x, pc := x.pc, lim := s.nextOp, shadowed := m.shadow, late := late }] := by
  simp only [State.trigsOf, hr, List.filterMap, hd]

theorem theMove_shadow : (theMove o g e src).shadow = false := by simp only [theMove]

theorem trigsOf_theBundle (h : Alone s c lan g src) : s.trigsOf c lan (s.ctx c lan) (theBundle o g e src) false = [s.trigger c lan o src] := by
  rw [trigsOf_trig _ _ _ _ (theBundle_running o g e src h.guard) (theMove_dst o g e src), portsOf_theBundle e h, theMove_k, theMove_shadow,
    Ctx.writePort, Ctx.unit_setUnit _ _ _ (Op.homeSlot_lt o)]
  rfl

theorem bundleBad_one (k : Nat) (hk : k < 8) (w : BitVec 24) (hw : srcOf (fld w.toNat 10 10) ≠ .long) :
    bundleBad (Bundle.one k w) = false := by
  have hlong : ∀ j, (Bundle.one k w).longSrc j = false := by
    intro j
    simp only [Bundle.longSrc, one_limm, one_word, Bool.not_false, Bool.true_and, decide_eq_false_iff_not]
    split
    · exact hw
    · decide
  have hn : ∀ d : Dst, ((Bundle.one k w).moves.filter (fun (m : Mv) => !m.shadow && !m.empty && decide (m.dst = d))).length ≤ 1 := by
    intro d
    rw [one_filter k hk w _ (by intro j; simp [Mv.empty])]
    split <;> simp
  have h1 := hn .busdrive
  have h2 := hn .busland
  simp only [bundleBad, one_limm, one_shs, one_shv, one_arv, Bundle.badLimm, hlong]
  simp only [Bool.and_false, Bool.false_and, Bool.not_false, Bool.or_false, Bool.false_or, Bool.or_eq_false_iff, decide_eq_false_iff_not, Nat.not_lt]
  refine ⟨⟨⟨by simp [hdrFld, fld, Bundle.one], ?_⟩, h1⟩, h2⟩
  simp

theorem staticTrap_one (k : Nat) (hk : k < 8) (w : BitVec 24) (lan : Bool) (hw : Mv.static { k := k, w := w } lan = none) :
    staticTrap (Bundle.one k w) lan = none := by
  rw [staticTrap, one_moves]
  have h0 : ∀ j, Mv.static { k := j, w := 0#24 } lan = none := by
    intro j
    simp [Mv.static, Mv.illegalPort, Mv.empty]
  have : k = 0 ∨ k = 1 ∨ k = 2 ∨ k = 3 ∨ k = 4 ∨ k = 5 ∨ k = 6 ∨ k = 7 := by omega
  rcases this with rfl | rfl | rfl | rfl | rfl | rfl | rfl | rfl <;> simp [upto, h0, hw]

theorem theMove_static (h : Alone s c lan g src) (f : Fit s c lan o src) (hi : o ≠ .ill) : (theMove o g e src).static lan = none := by
  have hp : (theMove o g e src).illegalPort = false := by
    simp only [Mv.illegalPort, theMove_src, theMove_dst, theMove_empty, Bool.not_false, Bool.true_and, Bool.or_false]
    have hs := h.source
    have hv := f.vec
    cases hq : srcOf src.toNat <;> simp [hq, Ctx.readable, Src.vector] at hs hv ⊢
    · refine ⟨hs.1, fun hx => ?_⟩
      simp [Dst.takesVector, theMove, hv hx]
    · refine ⟨hs, fun hx => ?_⟩
      simp [Dst.takesVector, theMove, hv hx]
  have hpr := f.priv
  simp only [Mv.static, theMove_dst, theMove_empty, hp]
  have hl : o.legalIn (theMove o g e src).k = true := Op.homeSlot_legal o
  have hb : (o == Op.ill) = false := by simpa using hi
  cases hx : o.privileged <;> simp_all

theorem starved_readable {x : Ctx} {m : Mv} (hm : m.src = srcOf src.toNat) (h : x.readable src = true) : m.starved x = false := by
  simp only [Mv.starved, Mv.watches, hm]
  cases hq : srcOf src.toNat <;> simp [hq, Ctx.readable, Src.watched] at h ⊢
  · split
    · next h' =>
      split at h'
      · cases h'; simp [h.2]
      · cases h'
    · rfl
  · simp [h]

/-- The other sources of a bundle that arrives at no barrier. -/
theorem otherSources_arv {b b' : Bundle} (h : b.arvAny = false) (h' : b'.arvAny = false) (ts : List Trig) : otherSources b ts = otherSources b' ts := by
  simp [otherSources, h, h']

/-- A bundle whose one running move is a trigger issues when the trigger's checks pass. -/
theorem judge_trig {b : Bundle} {m : Mv} {t : Trig} (hseg : lan = false → (s.usr c).inSeg = false)
    (hrun : Bundle.running b (s.ctx c lan) = [m]) (hd : m.dst = .trig o) (ht : s.trigsOf c lan (s.ctx c lan) b false = [t]) (hs : t.slot = m.k) (ho : t.op = o)
    (hbad : bundleBad b = false) (hstat : staticTrap b lan = none) (hst : m.starved (s.ctx c lan) = false)
    (hfree : t.marks.all (fun n => !(s.ctx c lan).pending n) = true) (hreads : (otherSources b [t]).all (fun n => (s.ctx c lan).full n) = true)
    (harv : b.arvAny = false) (hck : s.trigCheck t = .ok) (hg : s.gatedUnit t = none) (hrdv : b.rdv = false) (hr : o ≠ .rdv) :
    s.judge c lan b = .go false := by
  have hfree' : t.marks.any (fun n => (s.ctx c lan).pending n) = false := by
    rw [List.all_eq_true] at hfree
    rw [List.any_eq_false]
    intro n hn
    simpa using hfree n hn
  have hbusy : busyTrap b (s.ctx c lan) [t] = none := by simp [busyTrap, hfree']
  have hheld : s.heldToken c lan b (s.ctx c lan) [t] = none := by
    cases lan
    · simp [State.heldToken, hseg rfl]
    · simp [State.heldToken]
  have hreads' : (otherSources b [t]).any (fun n => !(s.ctx c lan).full n) = false := by
    rw [List.all_eq_true] at hreads
    rw [List.any_eq_false]
    intro n hn
    simp [hreads n hn]
  have hstall : stalls b (s.ctx c lan) [t] = false := by simp only [stalls, hrun, List.any_cons, List.any_nil, hst, hreads', Bool.or_false]
  have hf : List.find? (fun (t : Trig) => decide (t.slot = m.k)) [t] = some t := by simp [hs]
  have hslots : s.checkSlots c (s.ctx c lan) b [t] [m] none none = .inr (none, none) := by simp only [State.checkSlots, hd, hf, hck, hg]
  have hlim : rdvLimit b [t] = none := by
    have hx : (t.op == Op.rdv) = false := by simpa [ho] using hr
    simp [rdvLimit, List.find?, hx, hrdv]
  have hmeet : s.meeting c lan b (s.ctx c lan) [t] = .go false := by simp [State.meeting, hlim]
  simp [State.judge, hbad, hstat, hrun, ht, hbusy, hheld, hstall, harv, hslots, hmeet, hst]

/-- The consideration of a trigger that stands alone and fits: it issues. -/
theorem judge_theBundle (h : Alone s c lan g src) (f : Fit s c lan o src) (hi : o ≠ .ill) (hr : o ≠ .rdv) :
    s.judge c lan (theBundle o g e src) = .go false := by
  refine judge_trig h.seg (theBundle_running o g e src h.guard) (theMove_dst o g e src) (trigsOf_theBundle (o := o) e h)
    (theMove_k e).symm rfl ?_ (staticTrap_one _ (Op.homeSlot_lt o) _ _ (theMove_static e h f hi))
    (starved_readable (theMove_src o g e src) h.source) f.free ?_ (one_arvAny _ _) f.check f.awake (one_rdv _ _) hr
  · refine bundleBad_one _ (Op.homeSlot_lt o) _ ?_
    have := Mv.srcN_word 0 g e src (Op.code_lt o)
    rw [Mv.srcN] at this
    rw [this]
    exact h.notLong
  · rw [otherSources_arv (b := theBundle o g e src) (one_arvAny _ _) (one_arvAny 0 0)]
    exact f.reads

end

/-! ### What issue leaves (R24) -/

/-- What follows the triggers of a bundle without header bits: issue goes on, the user cycle ends, and a waived check is
spent. -/
def State.tail (s : State) (c : Nat) (lan : Bool) (pc : Word) (f : Flow) : State :=
  let t := ((s.modCtx c lan (fun y => { y with np := 0 })).follow c lan pc f).userCycle c lan
  if lan then t else t.modUsr c (fun u => { u with waive := false })

/-- The register write of WRSPEC, which is made with the moves of its bundle (R183). -/
def Trig.puts (t : Trig) : List (Nat × Val) := if t.op = .wrspec then [(t.a.toNat % 256, .sc t.b)] else []

/-- A core as its one trigger finds it: the bundle's waits are over, the operand stands on its port. -/
def State.latched (s : State) (t : Trig) : State := (s.unwait t.c t.lan).modCtx t.c t.lan (fun y => y.setUnit t.slot t.u)

/-- The state after a bundle that holds the one trigger `t`. -/
def State.issued (s : State) (t : Trig) : State :=
  let (_, f, s) := (s.latched t).runTrigs [t]
  (s.modCtx t.c t.lan (fun y => t.puts.foldl (fun (y : Ctx) ((n, v) : Nat × Val) => y.writeReg n v) y)).tail t.c t.lan t.pc f

section
variable {s : State} {c : Nat} {lan : Bool} {o : Op} {g : BitVec 3} {src : BitVec 10} (e : Bool)

@[simp] theorem State.ctx_unwait (s : State) (c : Nat) (lan : Bool) : (s.unwait c lan).ctx c lan = s.ctx c lan := by
  cases lan <;> simp [State.unwait, State.ctx]

theorem State.inSeg_unwait (s : State) (c : Nat) (lan : Bool) : ((s.unwait c lan).usr c).inSeg = (s.usr c).inSeg := by
  cases lan <;> simp [State.unwait, User.inSeg]

theorem State.segIssue_none {s : State} {b : Bundle} (h : lan = false → (s.usr c).inSeg = false) (hb : b.seg = false) : s.segIssue c lan b = s := by
  cases lan
  · simp [State.segIssue, hb, h rfl]
  · simp [State.segIssue]

theorem State.owe_none (s0 s : State) (c : Nat) (lan : Bool) (x : Ctx) (k : Nat) (w : BitVec 24) (ws : List (Nat × ArvWhen)) :
    State.owe s0 s c lan x (Bundle.one k w) ws = s := by
  have : Bundle.arriving (Bundle.one k w) x = [] := by simp [Bundle.arriving, one_arv]
  simp [State.owe, this]

theorem State.busMoves_trig (s0 s : State) (c : Nat) (x : Ctx) {b : Bundle} {m : Mv} (hr : Bundle.running b x = [m]) (hd : m.dst = .trig o) :
    State.busMoves s0 s c x b = s := by
  simp only [State.busMoves, hr, List.foldl, hd]
  split <;> rfl

theorem State.regWrites_trig (s : State) (c : Nat) (x : Ctx) {b : Bundle} {m : Mv} {t : Trig} (hr : Bundle.running b x = [m])
    (hd : m.dst = .trig o) (ho : t.op = o) (hs : t.slot = m.k) : s.regWrites c x b [t] = t.puts := by
  have hf : List.find? (fun (t : Trig) => decide (t.slot = m.k)) [t] = some t := by simp [hs]
  by_cases hw : o = .wrspec
  · subst hw
    simp only [State.regWrites, hr, List.filterMap, hd, hf, Trig.puts, ho, if_true, Option.map_some]
  · have : t.op ≠ .wrspec := by simpa [ho] using hw
    simp only [State.regWrites, hr, List.filterMap, hd, Trig.puts, this, if_false]
    split <;> simp_all

theorem Ctx.headed_one (x : Ctx) (k : Nat) (w : BitVec 24) : x.headed (Bundle.one k w) = { x with np := 0 } := by
  simp [Ctx.headed, one_idle, one_np]

/-- A trigger that stands alone and fits issues, and does what its operation does. -/
theorem exec_alone (h : Alone s c lan g src) (f : Fit s c lan o src) (hi : o ≠ .ill) (hr : o ≠ .rdv) :
    exec (Instr.ofOp o g e src) s = .next (s.issued (s.trigger c lan o src)) := by
  have hrun := theBundle_running o g e src h.guard
  have hj := judge_theBundle e h f hi hr
  have ht := trigsOf_theBundle (o := o) e h
  have hp := portsOf_theBundle (o := o) e h
  have hrd : s.rdvMark c lan (theBundle o g e src) = s := by
    have : rdvLimit (theBundle o g e src) [s.trigger c lan o src] = none := by
      have hx : ((s.trigger c lan o src).op == Op.rdv) = false := by simpa [State.trigger] using hr
      have hb : (theBundle o g e src).rdv = false := one_rdv _ _
      simp [rdvLimit, List.find?, hx, hb]
    simp only [State.rdvMark, ht, this]
  have hseg : (s.unwait c lan).segIssue c lan (theBundle o g e src) = s.unwait c lan :=
    State.segIssue_none (by intro hl; rw [State.inSeg_unwait]; exact h.seg hl) (one_seg _ _)
  have hw : s.regWrites c (s.ctx c lan) (theBundle o g e src) [s.trigger c lan o src] = (s.trigger c lan o src).puts :=
    State.regWrites_trig _ _ _ hrun (theMove_dst o g e src) rfl (theMove_k e).symm
  have hl : (s.unwait c lan).modCtx c lan (fun y => { y with u := ((s.ctx c lan).writePort o.homeSlot 0 (s.given c lan src)).u })
      = s.latched (s.trigger c lan o src) := by
    refine State.modCtx_congr ?_
    rw [State.ctx_unwait]
    rfl
  have hcommit : s.commit c lan false (theBundle o g e src) =
      (let r := (s.latched (s.trigger c lan o src)).runTrigs [s.trigger c lan o src]
       (((r.2.2.modCtx c lan (fun y => (s.trigger c lan o src).puts.foldl (fun (y : Ctx) ((n, v) : Nat × Val) => y.writeReg n v) y)).modCtx c lan
         (fun y => { y with np := 0 })).follow c lan (s.ctx c lan).pc r.2.1).userCycle c lan) := by
    simp only [State.commit, ht, hp, hw, hseg, hl]
    simp only [State.busMoves_trig _ _ _ _ hrun (theMove_dst o g e src)]
    simp only [theBundle, State.owe_none, Ctx.headed_one]
  rw [exec_ofOp]
  change s.issueBundle (theBundle o g e src) = _
  have hcons : s.consider c lan (theBundle o g e src) = s.issued (s.trigger c lan o src) := by
    simp only [State.consider, hrd, hj, hcommit]
    rfl
  have hact := h.actor
  cases lan
  · have hgate : s.gate c (theBundle o g e src) = .pass := by simp [State.gate, h.seg rfl]
    simp only [side, Bool.false_eq_true, if_false] at hact
    simp only [State.issueBundle, hact, State.issueOn, Bool.false_eq_true, if_false, hgate, hcons]
  · simp only [side, if_true] at hact
    simp only [State.issueBundle, hact, State.issueOn, if_true, hcons]

end

end Sys2Proof.Machine
end

