-- ==== Sys2Proof/Laws/Encoding.lean ====
section
/-! SUPPORT. Words and the instructions that they decode to (R26, R28, R91, R307): the bundle of one move, the move of a word,
the bundle of a number. -/
namespace Sys2Proof.Machine

theorem homeSlot_lt (w : BitVec 24) : homeSlot w < 8 := by
  unfold homeSlot
  split
  · exact Op.homeSlot_lt _
  · omega

/-- The one move of a bundle of one move. -/
theorem one_only (k : Nat) (hk : k < 8) (w : BitVec 24) : (Bundle.one k w).only = w := by
  have : k = 0 ∨ k = 1 ∨ k = 2 ∨ k = 3 ∨ k = 4 ∨ k = 5 ∨ k = 6 ∨ k = 7 := by omega
  rcases this with rfl | rfl | rfl | rfl | rfl | rfl | rfl | rfl <;> simp [Bundle.only, Bundle.one]

theorem one_single {w : BitVec 24} (h : moveWord? w = true) : (Bundle.one (homeSlot w) w).single = true := by
  simp [Bundle.single, one_only _ (homeSlot_lt w), h]

/-- A word of the table decodes as its move (R28 to R31). -/
theorem decodeTableWord_move {n : Nat} (h : moveWord? (BitVec.ofNat 24 n) = true) {i : Instr} (hi : decodeMove (BitVec.ofNat 24 n) = some i) :
    decodeTableWord 24 n = some i := by
  simp [decodeTableWord, h, decodeBundle, one_single h, one_only _ (homeSlot_lt _), hi]

section
variable (g : BitVec 3) (e : Bool) (src : BitVec 10) {d : Nat} (h : d < 2 ^ 10)
include h

/-- The fields of a move's word. -/
theorem moveWord_fields : fld (moveWord g e src d).toNat 21 3 = g.toNat ∧ decide (fld (moveWord g e src d).toNat 20 1 = 1) = e
    ∧ fld (moveWord g e src d).toNat 10 10 = src.toNat ∧ fld (moveWord g e src d).toNat 8 2 = d / 256 ∧ fld (moveWord g e src d).toNat 0 8 = d % 256
    ∧ fld (moveWord g e src d).toNat 5 3 = d / 32 % 8 ∧ fld (moveWord g e src d).toNat 0 5 = d % 32 := by
  have := g.isLt
  have := src.isLt
  simp only [fld, moveWord_toNat g e src h, moveNat]
  cases e <;> simp <;> omega

/-- The fields of a move's word, as the decoder takes them. -/
theorem decodeMove_word (h0 : moveWord g e src d ≠ 0) : decodeMove (moveWord g e src d) =
    match d / 256 with
    | 0 => some (.moveRegister g e src (BitVec.ofNat 8 (d % 256)))
    | 1 => some (.movePort g e src (BitVec.ofNat 3 (d / 32 % 8)) (BitVec.ofNat 5 (d % 32)))
    | 2 => some (Instr.ofOp (Op.ofCode (d % 256)) g e src)
    | _ => match d % 256 with
      | 0 => some (.discard g e src)
      | 1 => some (.busdrive g e src)
      | 2 => some (.busland g e src)
      | _ => none := by
  obtain ⟨f1, f2, f3, f4, f5, f6, f7⟩ := moveWord_fields g e src h
  have hn : (moveWord g e src d).toNat ≠ 0 := fun hc => h0 (BitVec.eq_of_toNat_eq (by simpa using hc))
  have f2' : ∀ p : Decidable (fld (moveWord g e src d).toNat 20 1 = 1), @decide _ p = e := by
    intro p
    exact (decide_eq_decide.2 Iff.rfl).trans f2
  simp only [decodeMove, hn, if_false, f1, f2', f3, f4, f5, f6, f7, BitVec.ofNat_toNat, BitVec.setWidth_eq]
  all_goals rfl

/-- A move's word is a word of the table. -/
theorem moveWord?_word (hd : d / 256 ≠ 3 ∨ d % 256 ≤ 2) : moveWord? (moveWord g e src d) = true := by
  have := g.isLt
  have := src.isLt
  simp only [moveWord?, moveWord_toNat g e src h, moveNat, Bool.or_eq_true, decide_eq_true_eq]
  cases e <;> simp <;> omega
end

theorem moveWord_pos (g : BitVec 3) (e : Bool) (src : BitVec 10) {d : Nat} (h : d < 2 ^ 10) (hz : g ≠ 0 ∨ e = true ∨ src ≠ 0 ∨ d ≠ 0) : moveWord g e src d ≠ 0 := by
  intro hc
  have hc := congrArg BitVec.toNat hc
  rw [moveWord_toNat g e src h] at hc
  have hg : g ≠ 0 → g.toNat ≠ 0 := fun h hc => h (BitVec.eq_of_toNat_eq (by simpa using hc))
  have hs : src ≠ 0 → src.toNat ≠ 0 := fun h hc => h (BitVec.eq_of_toNat_eq (by simpa using hc))
  unfold moveNat at hc
  cases e <;> simp at hc hz <;> rcases hz with h | h | h <;> first | omega | (have := hg h; omega) | (have := hs h; omega)

/-- The bundle of a bundle's number (R26). -/
theorem ofNat_toNat (b : Bundle) : Bundle.ofNat b.toNat = b := by
  obtain ⟨h, w0, w1, w2, w3, w4, w5, w6, w7⟩ := b
  have := h.isLt; have := w0.isLt; have := w1.isLt; have := w2.isLt; have := w3.isLt
  have := w4.isLt; have := w5.isLt; have := w6.isLt; have := w7.isLt
  simp only [Bundle.ofNat, Bundle.toNat, fld, Bundle.mk.injEq]
  refine ⟨?_, ?_, ?_, ?_, ?_, ?_, ?_, ?_, ?_⟩ <;> (apply BitVec.eq_of_toNat_eq; simp only [BitVec.toNat_ofNat]; omega)

/-- The fields of an R-type word. -/
theorem rNat_fields (f7 : Nat) (rs2 rs1 : BitVec 5) (f3 : Nat) (rd : BitVec 5) (h7 : f7 < 128) (h3 : f3 < 8) :
    let n := (BitVec.ofNat 32 (rNat f7 rs2 rs1 f3 rd)).toNat
    fld n 0 7 = 0x0B ∧ fld n 7 5 = rd.toNat ∧ fld n 12 3 = f3 ∧ fld n 15 5 = rs1.toNat ∧ fld n 20 5 = rs2.toNat ∧ fld n 25 7 = f7 := by
  have := rs2.isLt; have := rs1.isLt; have := rd.isLt
  simp only [fld, rNat, BitVec.toNat_ofNat]
  refine ⟨?_, ?_, ?_, ?_, ?_, ?_⟩ <;> omega

/-! ### The decoded instruction of a bundle does what the bundle does (R24) -/

/-- Every word is a move's word. -/
theorem moveWord_all (m : BitVec 24) : ∃ (g : BitVec 3) (e : Bool) (src : BitVec 10) (d : Nat), d < 2 ^ 10 ∧ m = moveWord g e src d := by
  have hm := m.isLt
  refine ⟨BitVec.ofNat 3 (fld m.toNat 21 3), decide (fld m.toNat 20 1 = 1), BitVec.ofNat 10 (fld m.toNat 10 10), m.toNat % 2 ^ 10, by omega, ?_⟩
  apply BitVec.eq_of_toNat_eq
  rw [moveWord_toNat _ _ _ (by omega)]
  by_cases h : m.toNat / 2 ^ 20 % 2 ^ 1 = 1
  · simp only [moveNat, fld, BitVec.toNat_ofNat, h, decide_true, if_true]
    omega
  · simp only [moveNat, fld, BitVec.toNat_ofNat, h, decide_false, Bool.false_eq_true, if_false]
    omega

theorem exec_decodeMove {m : BitVec 24} {i : Instr} (h : decodeMove m = some i) (s : State) : exec i s = s.issueMove m.toNat := by
  obtain ⟨g, e, src, d, hd, rfl⟩ := moveWord_all m
  by_cases h0 : moveWord g e src d = 0
  · rw [h0] at h ⊢
    cases h
    rfl
  · rw [decodeMove_word g e src hd h0] at h
    rw [moveWord_toNat g e src hd]
    split at h
    · cases h
      next hx =>
      have : d = (BitVec.ofNat 8 (d % 256)).toNat := by simp only [BitVec.toNat_ofNat]; omega
      simp only [exec, execMoveRegister]
      rw [← this]
    · cases h
      next hx =>
      have : d = 0x100 + (BitVec.ofNat 3 (d / 32 % 8)).toNat * 32 + (BitVec.ofNat 5 (d % 32)).toNat := by simp only [BitVec.toNat_ofNat]; omega
      simp only [exec, execMovePort]
      rw [← this]
    · cases h
      next hx =>
      have hc : ∀ n : Nat, n < 256 → (Op.ofCode n).code = n := by decide +kernel
      have : d = 0x200 + (Op.ofCode (d % 256)).code := by
        rw [hc _ (Nat.mod_lt _ (by decide))]
        omega
      generalize Op.ofCode (d % 256) = o at this ⊢
      subst this
      cases o <;> rfl
    · next hd0 hd1 hd2 =>
      have hx : d / 256 = 3 := by
        have : d / 256 ≠ 0 := hd0
        have : d / 256 ≠ 1 := hd1
        have : d / 256 ≠ 2 := hd2
        omega
      split at h
      · cases h
        next hq =>
        obtain rfl : d = 0x300 := by omega
        rfl
      · cases h
        next hq =>
        obtain rfl : d = 0x301 := by omega
        rfl
      · cases h
        next hq =>
        obtain rfl : d = 0x302 := by omega
        rfl
      · cases h

/-- The instruction that a bundle decodes to does what the bundle does. -/
theorem exec_decodeBundle (b : Bundle) (s : State) : exec (decodeBundle b) s = s.issueBundle b := by
  unfold decodeBundle
  split
  · next h =>
    simp only [Bundle.single, Bool.and_eq_true, decide_eq_true_eq] at h
    cases hd : decodeMove b.only with
    | none => rfl
    | some i =>
      simp only [Option.getD_some, exec_decodeMove hd, State.issueMove, BitVec.ofNat_toNat, BitVec.setWidth_eq]
      rw [← h.2]
  · rfl

end Sys2Proof.Machine
end

