-- ==== Sys2Proof/Laws/Memory.lean ====
section
/-! SUPPORT. The laws of byte memory (R2, log 1): a read after a write, and that every operation of memory keeps the
canonical form. -/
namespace Sys2Proof.Machine

/-! ### The list of written bytes -/

theorem cellAt_put_same (l : List Host.Cell) (a : Nat) (b : Byte) : cellAt (cellPut l a b) a = some b := by
  induction l with
  | nil => simp [cellPut, cellAt]
  | cons e t ih =>
    obtain ⟨k, v⟩ := e
    simp only [cellPut]
    split
    · simp [cellAt]
    · split
      · simp [cellAt]
      · next h1 h2 => simp [cellAt, Ne.symm h2, ih]

theorem cellAt_put_other (l : List Host.Cell) {a x : Nat} (b : Byte) (h : a ≠ x) : cellAt (cellPut l a b) x = cellAt l x := by
  induction l with
  | nil => simp [cellPut, cellAt, h]
  | cons e t ih =>
    obtain ⟨k, v⟩ := e
    simp only [cellPut]
    split
    · simp [cellAt, h]
    · split
      · next h2 => subst h2; simp [cellAt, h]
      · simp [cellAt, ih]

theorem cellAt_del_other (l : List Host.Cell) {a x : Nat} (h : a ≠ x) : cellAt (cellDel l a) x = cellAt l x := by
  induction l with
  | nil => simp [cellDel]
  | cons e t ih =>
    obtain ⟨k, v⟩ := e
    simp only [cellDel]
    split
    · next h2 => subst h2; simp [cellAt, h, ih]
    · simp [cellAt, ih]

/-- Every address of the list is at least `n`. -/
def cellsFrom (n : Nat) (l : List Host.Cell) : Prop := ∀ c ∈ l, n ≤ c.1

theorem cellsRise_cons (a : Nat) (v : Byte) (l : List Host.Cell) : cellsRise ((a, v) :: l) = true ↔ cellsFrom (a + 1) l ∧ cellsRise l = true := by
  induction l generalizing a v with
  | nil => simp [cellsRise, cellsFrom]
  | cons e t ih =>
    obtain ⟨k, w⟩ := e
    simp only [cellsRise, Bool.and_eq_true, decide_eq_true_eq]
    constructor
    · rintro ⟨h, r⟩
      refine ⟨?_, r⟩
      intro c hc
      rcases List.mem_cons.1 hc with rfl | hc
      · exact h
      · have := ((ih k w).1 r).1 c hc
        omega
    · rintro ⟨h, r⟩
      exact ⟨h (k, w) (by simp), r⟩

theorem cellAt_from {n x : Nat} {l : List Host.Cell} (h : cellsFrom n l) (hx : x < n) : cellAt l x = none := by
  induction l with
  | nil => rfl
  | cons e t ih =>
    obtain ⟨k, v⟩ := e
    have := h (k, v) (by simp)
    have : k ≠ x := by simp only at this; omega
    simp [cellAt, this, ih (fun c hc => h c (by simp [hc]))]

theorem cellAt_del_same (l : List Host.Cell) (a : Nat) : cellAt (cellDel l a) a = none := by
  induction l with
  | nil => rfl
  | cons e t ih =>
    obtain ⟨k, v⟩ := e
    simp only [cellDel]
    split
    · exact ih
    · next e => simp [cellAt, e, ih]

theorem cellPut_mem {l : List Host.Cell} {a : Nat} {b : Byte} {c : Host.Cell} (h : c ∈ cellPut l a b) : c = (a, b) ∨ c ∈ l := by
  induction l with
  | nil => simpa [cellPut] using h
  | cons e t ih =>
    obtain ⟨k, v⟩ := e
    simp only [cellPut] at h
    split at h
    · simpa using h
    · split at h
      · rcases List.mem_cons.1 h with h | h
        · exact .inl h
        · exact .inr (by simp [h])
      · rcases List.mem_cons.1 h with h | h
        · exact .inr (by simp [h])
        · rcases ih h with h | h
          · exact .inl h
          · exact .inr (by simp [h])

theorem cellDel_mem {l : List Host.Cell} {a : Nat} {c : Host.Cell} (h : c ∈ cellDel l a) : c ∈ l := by
  induction l with
  | nil => simp [cellDel] at h
  | cons e t ih =>
    obtain ⟨k, v⟩ := e
    simp only [cellDel] at h
    split at h
    · simp [ih h]
    · rcases List.mem_cons.1 h with h | h
      · simp [h]
      · simp [ih h]

theorem cellsRise_put {l : List Host.Cell} (a : Nat) (b : Byte) (h : cellsRise l = true) : cellsRise (cellPut l a b) = true := by
  induction l with
  | nil => rfl
  | cons e t ih =>
    obtain ⟨k, v⟩ := e
    have ⟨h1, h2⟩ := (cellsRise_cons k v t).1 h
    simp only [cellPut]
    split
    · next e =>
      refine (cellsRise_cons ..).2 ⟨?_, h⟩
      intro c hc
      rcases List.mem_cons.1 hc with rfl | hc
      · exact e
      · have := h1 c hc
        omega
    · split
      · next e => subst e; exact (cellsRise_cons ..).2 ⟨h1, h2⟩
      · refine (cellsRise_cons ..).2 ⟨?_, ih h2⟩
        intro c hc
        rcases cellPut_mem hc with rfl | hc
        · simp only; omega
        · exact h1 c hc

theorem cellsRise_filter {l : List Host.Cell} (f : Host.Cell → Bool) (h : cellsRise l = true) : cellsRise (l.filter f) = true := by
  induction l with
  | nil => rfl
  | cons e t ih =>
    obtain ⟨k, v⟩ := e
    have ⟨h1, h2⟩ := (cellsRise_cons k v t).1 h
    simp only [List.filter]
    split
    · exact (cellsRise_cons ..).2 ⟨fun c hc => h1 c (List.mem_filter.1 hc).1, ih h2⟩
    · exact ih h2

theorem cellsRise_del {l : List Host.Cell} (a : Nat) (h : cellsRise l = true) : cellsRise (cellDel l a) = true := by
  induction l with
  | nil => rfl
  | cons e t ih =>
    obtain ⟨k, v⟩ := e
    have ⟨h1, h2⟩ := (cellsRise_cons k v t).1 h
    simp only [cellDel]
    split
    · exact ih h2
    · exact (cellsRise_cons ..).2 ⟨fun c hc => h1 c (cellDel_mem hc), ih h2⟩

/-! ### Reads after writes -/

/-- A byte reads as it was written. -/
theorem Mem.rd_wr_same (m : Mem) (a : Nat) (b : Byte) : (m.wr a b).rd a = b := by
  simp only [Mem.wr]
  split
  · next e =>
    obtain ⟨e, rfl⟩ := e
    have : openGen m.open' a = none := by simpa using e
    simp [Mem.rd, cellAt_del_same, Mem.unlisted, this]
  · simp [Mem.rd, cellAt_put_same]

/-- A write leaves every other byte. -/
theorem Mem.rd_wr_other (m : Mem) {a x : Nat} (b : Byte) (h : a ≠ x) : (m.wr a b).rd x = m.rd x := by
  simp only [Mem.wr]
  split
  · simp [Mem.rd, cellAt_del_other _ h, Mem.unlisted]
  · simp [Mem.rd, cellAt_put_other _ _ h, Mem.unlisted]

/-- A write of several bytes leaves every byte outside them. -/
theorem Mem.rd_wrN_other (m : Mem) (a x : Nat) (bs : List Byte) (h : x < a ∨ a + bs.length ≤ x) : (m.wrN a bs).rd x = m.rd x := by
  induction bs generalizing m a with
  | nil => rfl
  | cons b t ih =>
    simp only [List.length_cons] at h
    rw [Mem.wrN, ih (m.wr a b) (a + 1) (by omega), Mem.rd_wr_other _ _ (by omega)]

/-! ### The canonical form -/

@[simp] theorem Mem.open_wr (m : Mem) (a : Nat) (b : Byte) : (m.wr a b).open' = m.open' := by
  unfold Mem.wr; split <;> rfl

theorem Mem.wf_wr {m : Mem} (h : m.wf = true) (a : Nat) (b : Byte) : (m.wr a b).wf = true := by
  simp only [Mem.wf, Bool.and_eq_true, List.all_eq_true] at h ⊢
  simp only [Mem.wr]
  split
  · exact ⟨cellsRise_del a h.1, fun c hc => h.2 c (cellDel_mem hc)⟩
  · next e =>
    refine ⟨cellsRise_put a b h.1, fun c hc => ?_⟩
    rcases cellPut_mem hc with rfl | hc
    · cases ho : openGen m.open' a with
      | none => simp only [ho, Option.isNone_none, true_and] at e; simpa using e
      | some g => simp
    · exact h.2 c hc

theorem Mem.wf_wrN {m : Mem} (h : m.wf = true) (a : Nat) (bs : List Byte) : (m.wrN a bs).wf = true := by
  induction bs generalizing m a with
  | nil => exact h
  | cons b t ih => exact ih (Mem.wf_wr h a b) (a + 1)

/-- The bytes written from an address read back. -/
theorem Mem.rd_wrN_in (m : Mem) (a i : Nat) (bs : List Byte) (hi : i < bs.length) : (m.wrN a bs).rd (a + i) = bs[i] := by
  induction bs generalizing m a i with
  | nil => simp at hi
  | cons b t ih =>
    cases i with
    | zero => rw [Mem.wrN, Mem.rd_wrN_other _ _ _ _ (by omega)]; simpa using Mem.rd_wr_same m a b
    | succ i =>
      have := ih (m.wr a b) (a + 1) i (by simpa using hi)
      rw [Mem.wrN, show a + (i + 1) = a + 1 + i by omega, this]
      rfl

/-- An address is open when some range holds it. -/
theorem openGen_isSome (l : List (Nat × Nat × Nat)) (a : Nat) : (openGen l a).isSome = true ↔ ∃ e ∈ l, e.1 ≤ a ∧ a < e.2.1 := by
  induction l with
  | nil => simp [openGen]
  | cons e t ih =>
    obtain ⟨p, q, g⟩ := e
    simp only [openGen]
    split
    · next h => simp [h]
    · next h => simp only [ih, List.mem_cons, or_and_right, exists_or, exists_eq_left, h, false_or]

/-- One range with the part taken out holds the addresses outside that part as before. -/
theorem openCut_one (lo hi p q g a : Nat) (h : a < lo ∨ hi ≤ a) :
    (∃ e ∈ (if p < lo ∧ p < q then [(p, min q lo, g)] else []) ++ (if hi < q ∧ p < q then [(max p hi, q, g)] else []),
      e.1 ≤ a ∧ a < e.2.1) ↔ p ≤ a ∧ a < q := by
  simp only [List.mem_append, List.mem_ite_nil_right, List.mem_singleton]
  constructor
  · rintro ⟨e, ⟨-, rfl⟩ | ⟨-, rfl⟩, h1, h2⟩ <;> simp only at h1 h2 <;> omega
  · rintro ⟨h1, h2⟩
    rcases h with h | h
    · exact ⟨(p, min q lo, g), .inl ⟨by omega, rfl⟩, h1, by simp only; omega⟩
    · exact ⟨(max p hi, q, g), .inr ⟨by omega, rfl⟩, by simp only; omega, h2⟩

/-- An address outside the part that is taken out is as open as before. -/
theorem openGen_cut (lo hi : Nat) (l : List (Nat × Nat × Nat)) (a : Nat) (h : a < lo ∨ hi ≤ a) : (openGen (openCut lo hi l) a).isSome = (openGen l a).isSome := by
  rw [Bool.eq_iff_iff, openGen_isSome, openGen_isSome]
  induction l with
  | nil => rfl
  | cons e t ih =>
    obtain ⟨p, q, g⟩ := e
    simp only [openCut, List.mem_append (s := _ ++ _), or_and_right, exists_or, List.mem_cons, exists_eq_left, openCut_one _ _ _ _ _ _ h, ih]

theorem Mem.wf_zero {m : Mem} (h : m.wf = true) (lo hi : Nat) : (m.zero lo hi).wf = true := by
  simp only [Mem.wf, Bool.and_eq_true, List.all_eq_true] at h ⊢
  refine ⟨cellsRise_filter _ h.1, fun c hc => ?_⟩
  obtain ⟨hm, hf⟩ := List.mem_filter.1 hc
  simp only [Mem.zero] at hm ⊢
  rw [openGen_cut lo hi _ c.1 (by simpa using hf)]
  exact h.2 c hm

theorem Mem.wf_spoil {m : Mem} (h : m.wf = true) (lo hi g : Nat) : (m.spoil lo hi g).wf = true := by
  have h' := h
  simp only [Mem.wf, Bool.and_eq_true, List.all_eq_true] at h ⊢
  refine ⟨cellsRise_filter _ h.1, fun c hc => ?_⟩
  obtain ⟨hm, hf⟩ := List.mem_filter.1 hc
  simp only [Mem.spoil] at hm ⊢
  have := h.2 c hm
  simp only [openGen]
  split
  · simp
  · rw [openGen_cut lo hi _ c.1 (by simpa using hf)]
    exact this

end Sys2Proof.Machine
end

