-- ==== Sys2Proof/Laws/Results.lean ====
section
/-! SUPPORT. Where the results of a trigger go (R39): the end of a user cycle, and what the tail of an issue leaves. -/
namespace Sys2Proof.Machine

/-! ### Landing -/

theorem Ctx.unit_setUnit_other (x : Ctx) {j k : Nat} (p : UPorts) (h : k ≠ j) : (x.setUnit k p).unit j = x.unit j := rget_rset_other _ _ _ _ _ h

theorem Ctx.unit_land (x : Ctx) (e : Pipe) (u : Nat) : (x.land e).unit u =
    if 0x18 ≤ e.port then x.unit u else if e.unit = u ∧ u < 8 then (if e.port = 0 then { x.unit u with x := e.val } else { x.unit u with y := e.val }) else x.unit u := by
  unfold Ctx.land
  by_cases h18 : 0x18 ≤ e.port
  · simp [h18, Ctx.unit]
  · have hs : ∀ q : UPorts, (x.setUnit e.unit q).unit u = if e.unit = u ∧ u < 8 then q else x.unit u := by
      intro q
      by_cases hu : e.unit = u
      · subst hu
        by_cases hl : e.unit < 8
        · simp [hl, Ctx.unit_setUnit]
        · simp [hl, Ctx.setUnit, rset]
      · simp [hu, Ctx.unit_setUnit_other]
    simp only [h18, if_false, Ctx.setResult]
    change (Ctx.setUnit _ _ _).unit _ = _
    rw [hs]
    by_cases hu : e.unit = u
    · subst hu; rfl
    · simp [hu]

/-- A result on port `x` or `y` lands there. -/
theorem Ctx.out_land_same (x : Ctx) (e : Pipe) (hu : e.unit < 8) (hp : e.port ≤ 1) : (x.land e).out e.unit e.port = e.val := by
  have h18 : ¬ 0x18 ≤ e.port := by omega
  by_cases h : e.port = 0 <;> simp [Ctx.out, Ctx.unit_land, h18, hu, h]

/-- A result leaves the ports that are not its own. -/
theorem Ctx.out_land_other (x : Ctx) (e : Pipe) {u p : Nat} (hp : p ≤ 1) (h : e.unit = u → ¬(e.port = 0 ↔ p = 0)) : (x.land e).out u p = x.out u p := by
  have h18 : ¬ 0x18 ≤ p := by omega
  simp only [Ctx.out, h18, if_false, Ctx.unit_land]
  by_cases hq : 0x18 ≤ e.port
  · simp [hq]
  · by_cases hu : e.unit = u
    · have hx := h hu
      by_cases hl : u < 8 <;> by_cases h0 : e.port = 0 <;> by_cases h1 : p = 0 <;> simp [hq, hu, hl, h0, h1] at hx ⊢
    · simp [hq, hu]

theorem Ctx.out_lands_other (l : List Pipe) (x : Ctx) {u p : Nat} (hp : p ≤ 1) (h : ∀ e ∈ l, e.unit = u → ¬(e.port = 0 ↔ p = 0)) :
    (l.foldl Ctx.land x).out u p = x.out u p := by
  induction l generalizing x with
  | nil => rfl
  | cons e t ih =>
    rw [List.foldl, ih (x.land e) (fun e' he' => h e' (by simp [he'])), Ctx.out_land_other x e hp (h e (by simp))]

/-- At the end of a user cycle a result of latency 1, triggered last on its port, stands there (R39). -/
theorem Ctx.userCycle_out (x : Ctx) (l r : List Pipe) (e : Pipe) (hx : x.pipe = l ++ e :: r) (hrem : e.rem = 1) (hu : e.unit < 8) (h4 : e.unit ≠ 4) (hp : e.port ≤ 1)
    (hr : ∀ e' ∈ r, e'.unit = e.unit → ¬(e'.port = 0 ↔ e.port = 0)) : x.userCycle.1.out e.unit e.port = e.val := by
  simp only [Ctx.userCycle, hx, List.map_append, List.map_cons, List.filter_append, List.filter_cons, hrem, landingOrder]
  simp only [Nat.sub_self, decide_true, if_true, List.filter_cons, h4, ne_eq, not_false_eq_true, decide_false, Bool.false_eq_true, if_false,
    List.foldl_append, List.foldl_cons]
  rw [Ctx.out_lands_other _ _ hp, Ctx.out_lands_other _ _ hp, Ctx.out_lands_other _ _ hp]
  · exact Ctx.out_land_same _ _ hu hp
  · intro e' he'
    simp only [List.mem_filter, List.mem_map] at he'
    obtain ⟨⟨⟨a, ha, rfl⟩, -⟩, -⟩ := he'
    exact hr a ha
  · intro e' he' hc
    simp only [List.mem_filter, decide_eq_true_eq] at he'
    exact absurd (hc.symm.trans he'.2) h4
  · intro e' he' hc
    simp only [List.mem_filter, decide_eq_true_eq] at he'
    exact absurd (hc.symm.trans he'.2) h4

theorem Ctx.pipe_land (x : Ctx) (e : Pipe) : (x.land e).pipe = x.pipe := by
  simp only [Ctx.land]
  split
  · rfl
  · simp only [Ctx.setResult, Ctx.setUnit]

theorem Ctx.pipe_lands (l : List Pipe) (x : Ctx) : (l.foldl Ctx.land x).pipe = x.pipe := by
  induction l generalizing x with
  | nil => rfl
  | cons e t ih => rw [List.foldl, ih, Ctx.pipe_land]

/-- At the end of a user cycle the results in flight are one user cycle nearer (R39). -/
theorem Ctx.userCycle_pipe (x : Ctx) : x.userCycle.1.pipe = (x.pipe.map (fun (e : Pipe) => { e with rem := e.rem - 1 })).filter (fun e => decide (e.rem ≠ 0)) := by
  simp only [Ctx.userCycle, Ctx.pipe_lands]

theorem Ctx.userCycle_flight (x : Ctx) (e : Pipe) (h : e ∈ x.pipe) (hr : 2 ≤ e.rem) :
    ∃ e' ∈ x.userCycle.1.pipe, e'.unit = e.unit ∧ e'.port = e.port ∧ e'.val = e.val ∧ e'.fl = e.fl ∧ e'.rem + 1 = e.rem := by
  refine ⟨{ e with rem := e.rem - 1 }, ?_, rfl, rfl, rfl, rfl, by simp only; omega⟩
  rw [Ctx.userCycle_pipe, List.mem_filter]
  exact ⟨List.mem_map.2 ⟨e, h, rfl⟩, by simp; omega⟩

theorem Ctx.fps_land (x : Ctx) (e : Pipe) : (x.land e).fps = x.fps ||| e.fl.setWidth 64 := by
  unfold Ctx.land
  split <;> rfl

theorem Ctx.fps_lands (l : List Pipe) (x : Ctx) (m : Word) (h : x.fps &&& m = m) : (l.foldl Ctx.land x).fps &&& m = m := by
  induction l generalizing x with
  | nil => exact h
  | cons e t ih =>
    refine ih (x.land e) ?_
    rw [Ctx.fps_land]
    ext i hi
    have := congrArg (fun (y : Word) => y.getLsbD i) h
    simp only [BitVec.getLsbD_eq_getElem hi] at this
    simp only [BitVec.getElem_and, BitVec.getElem_or]
    cases hx : x.fps[i] <;> cases hm : m[i] <;> simp [hx, hm] at this ⊢

/-- A result that lands raises its flags (R65, R67). -/
theorem Ctx.userCycle_flags (x : Ctx) (e : Pipe) (h : e ∈ x.pipe) (hr : e.rem = 1) : x.userCycle.1.fps &&& e.fl.setWidth 64 = e.fl.setWidth 64 := by
  have key : ∀ (l : List Pipe) (y : Ctx) (d : Pipe), d ∈ l → (l.foldl Ctx.land y).fps &&& d.fl.setWidth 64 = d.fl.setWidth 64 := by
    intro l
    induction l with
    | nil => intro y d hd; simp at hd
    | cons a t ih =>
      intro y d hd
      rcases List.mem_cons.1 hd with rfl | hd
      · refine Ctx.fps_lands t _ _ ?_
        rw [Ctx.fps_land]
        ext i hi
        simp only [BitVec.getElem_and, BitVec.getElem_or]
        cases (d.fl.setWidth 64 : Word)[i] <;> simp
      · exact ih _ d hd
  refine key _ _ { e with rem := e.rem - 1 } ?_
  have hm : ({ e with rem := e.rem - 1 } : Pipe) ∈ (x.pipe.map (fun (e : Pipe) => { e with rem := e.rem - 1 })).filter (fun e => decide (e.rem = 0)) :=
    List.mem_filter.2 ⟨List.mem_map.2 ⟨e, h, rfl⟩, by simp [hr]⟩
  simp only [landingOrder, List.mem_append, List.mem_filter]
  by_cases h4 : e.unit = 4
  · exact .inr ⟨List.mem_filter.1 hm, by simp [h4]⟩
  · exact .inl ⟨List.mem_filter.1 hm, by simp [h4]⟩

/-! ### The tail of an issue -/

@[simp] theorem State.core_fatal (s : State) (c k d : Nat) : (s.fatal c k).core d = s.core d := rfl
@[simp] theorem State.ctx_fatal (s : State) (c k d : Nat) (lan : Bool) : (s.fatal c k).ctx d lan = s.ctx d lan := rfl
@[simp] theorem State.ctx_trapAfter (s : State) (c : Nat) (r : TrapRec) (lan : Bool) : (s.trapAfter c r).ctx c lan = s.ctx c lan := by
  cases lan <;> simp [State.trapAfter, State.ctx]

@[simp] theorem State.ctx_trapOn (s : State) (c : Nat) (lan : Bool) (r : TrapRec) : (s.trapOn c lan r).ctx c lan = s.ctx c lan := by
  cases lan <;> simp [State.trapOn]

theorem State.debugStep_trapOn (s : State) (c : Nat) (lan : Bool) (r : TrapRec) : ((s.trapOn c lan r).core c).debugStep = (s.core c).debugStep := by
  cases lan <;> simp [State.trapOn, State.trapAfter, State.modUsr]

theorem State.debugStep_modCtx (s : State) (c : Nat) (lan : Bool) (f : Ctx → Ctx) : ((s.modCtx c lan f).core c).debugStep = (s.core c).debugStep := by
  cases lan <;> simp [State.modCtx]

/-- A user cycle that ends no debugger's step leaves the context at what has landed in it. -/
theorem State.stepEnd_none {s : State} {c : Nat} (h : (s.core c).debugStep = false) : s.stepEnd c = s := by
  simp [State.stepEnd, h]

/-- The context at the end of a user cycle in which no debugger's step is under way. -/
theorem State.ctx_userCycle {s : State} {c : Nat} {lan : Bool} (h : lan = false → (s.core c).debugStep = false) :
    (s.userCycle c lan).ctx c lan = (s.ctx c lan).userCycle.1 := by
  unfold State.userCycle
  cases hx : (s.ctx c lan).userCycle with
  | mk x t =>
    have h1 : ((s.modCtx c lan (fun _ => x)).modCore c (fun w => { w with spent := s.cyc + 1 })).ctx c lan = x := by
      cases lan <;> simp [State.modCtx, State.ctx]
    have h2 : lan = false → (((s.modCtx c lan (fun _ => x)).modCore c (fun w => { w with spent := s.cyc + 1 })).core c).debugStep = false := by
      intro hl
      simpa [State.debugStep_modCtx] using h hl
    cases lan
    · cases t with
      | none => simpa only [Bool.false_eq_true, if_false, State.stepEnd_none (h2 rfl)] using h1
      | some r =>
        simp only [Bool.false_eq_true, if_false]
        rw [State.stepEnd_none ((State.debugStep_trapOn ..).trans (h2 rfl)), State.ctx_trapOn]
        exact h1
    · cases t with
      | none => simpa only [if_true] using h1
      | some r => simpa only [if_true, State.ctx_trapOn] using h1

/-- Where issue goes on after a bundle that transfers no control and stands at no iteration boundary. -/
def Ctx.advance (x : Ctx) (pc : Word) : Ctx :=
  { x with loops := (loopNext pc 5 x.loops).2, pc := (loopNext pc 5 x.loops).1.getD (pc + 32) }

/-- A change of the context that leaves the return stack leaves the iteration boundary. -/
theorem State.atBoundary_modCtx (s : State) (c : Nat) (pc : Word) (f : Ctx → Ctx) (hf : ∀ x, (f x).ret = x.ret) :
    (s.modCtx c false f).atBoundary c pc = s.atBoundary c pc := by
  have : (s.modCtx c false f).codeBase c = s.codeBase c := by simp [State.codeBase, State.launchOf?, State.task?]
  simp [State.atBoundary, this, hf]

theorem State.fallThrough_plain {s : State} {c : Nat} {lan : Bool} {pc : Word} (h : lan = false → s.atBoundary c pc = none) :
    s.fallThrough c lan pc = ((loopNext pc 5 (s.ctx c lan).loops).1.getD (pc + 32), s.modCtx c lan (fun x => { x with loops := (loopNext pc 5 (s.ctx c lan).loops).2 })) := by
  unfold State.fallThrough
  cases hl : loopNext pc 5 (s.ctx c lan).loops with
  | mk to' loops =>
    cases to' with
    | some a => rfl
    | none =>
      cases lan
      · have hb := (s.atBoundary_modCtx c pc (fun x => { x with loops := loops }) (fun _ => rfl)).trans (h rfl)
        simp only [hb, Bool.false_eq_true, if_false]
        rfl
      · rfl

theorem State.follow_next {s : State} {c : Nat} {lan : Bool} {pc : Word} (h : lan = false → s.atBoundary c pc = none) :
    (s.follow c lan pc .next).ctx c lan = (s.ctx c lan).advance pc := by
  simp only [State.follow, State.fallThrough_plain h, State.ctx_modCtx]
  rfl

/-- The context after the tail of an issue that transfers no control. -/
theorem State.ctx_tail {s : State} {c : Nat} {lan : Bool} {pc : Word} (h : lan = false → s.atBoundary c pc = none)
    (hd : lan = false → (s.core c).debugStep = false) :
    (s.tail c lan pc .next).ctx c lan = (({ s.ctx c lan with np := 0 } : Ctx).advance pc).userCycle.1 := by
  have hw : ∀ t : State, (if lan then t else t.modUsr c (fun u => { u with waive := false })).ctx c lan = t.ctx c lan := by
    intro t
    cases lan <;> simp [State.ctx]
  have hb : lan = false → (s.modCtx c lan (fun y => { y with np := 0 })).atBoundary c pc = none := by
    intro hl
    subst hl
    exact (s.atBoundary_modCtx c pc (fun y => { y with np := 0 }) (fun _ => rfl)).trans (h rfl)
  have hf : lan = false → (((s.modCtx c lan (fun y => { y with np := 0 })).follow c lan pc .next).core c).debugStep = false := by
    intro hl
    simp only [State.follow, State.fallThrough_plain hb, State.debugStep_modCtx]
    exact hd hl
  rw [State.tail, hw, State.ctx_userCycle hf, State.follow_next hb, State.ctx_modCtx]

/-! ### Triggers whose results have a fixed latency -/

theorem State.ctx_latched (s : State) (t : Trig) : (s.latched t).ctx t.c t.lan = (s.ctx t.c t.lan).setUnit t.slot t.u := by
  simp [State.latched]

theorem State.ctx_failure (s : State) (c slot : Nat) (pc : Word) (cause : Nat) (lan : Bool) : (s.failure c slot pc cause).ctx c lan = s.ctx c lan := by
  unfold State.failure
  cases lan <;> split <;> simp [State.ctx]

theorem State.ctx_mismatch (s : State) (t : Trig) (lan : Bool) : (s.mismatch t).ctx t.c lan = s.ctx t.c lan := by
  unfold State.mismatch
  split
  · rfl
  · split
    · rfl
    · exact State.ctx_failure ..

theorem State.inject_none {s : State} {c bit : Nat} (check : Bool) (slot : Nat) (pc : Word) (h : (s.core c).injMask = 0) : s.inject c bit check slot pc = (false, s) := by
  simp [State.inject, h]

theorem State.injections_none {s : State} {t : Trig} (h : t.lan = false → (s.core t.c).injMask = 0) : s.injections t = (false, s) := by
  unfold State.injections
  cases hl : t.lan
  · have := h hl
    simp [State.inject_none _ _ _ this]
  · simp

end Sys2Proof.Machine
end

