-- ==== Sys2Proof/Laws/ScalarOps.lean ====
section
/-! SUPPORT. What a scalar trigger that stands alone does (R181 to R206): its results go their way with their latency. -/
namespace Sys2Proof.Machine

/-! ### The line that a core follows -/

/-- Two states agree on what decides whether a bundle of core `c` stands at an iteration boundary. -/
structure SameLine (s s' : State) (c : Nat) : Prop where
  ret : (s'.usr c).ctx.ret = (s.usr c).ctx.ret
  launch : (s'.usr c).task.map Task.launch = (s.usr c).task.map Task.launch
  code : ∀ k, (s'.launches.find? k).map Launch.code = (s.launches.find? k).map Launch.code

theorem SameLine.refl (s : State) (c : Nat) : SameLine s s c := ⟨rfl, rfl, fun _ => rfl⟩
theorem SameLine.trans {s t u : State} {c : Nat} (a : SameLine s t c) (b : SameLine t u c) : SameLine s u c :=
  ⟨b.ret.trans a.ret, b.launch.trans a.launch, fun k => (b.code k).trans (a.code k)⟩

theorem SameLine.atBoundary {s s' : State} {c : Nat} (h : SameLine s s' c) (pc : Word) : s'.atBoundary c pc = s.atBoundary c pc := by
  have hc : s'.codeBase c = s.codeBase c := by
    have hl := h.launch
    unfold State.codeBase State.launchOf? State.task?
    cases h1 : (s.usr c).task <;> cases h2 : (s'.usr c).task <;> simp [h1, h2] at hl ⊢
    rw [hl]
    exact congrArg (fun (x : Option Nat) => x.getD 0) (h.code _)
  simp only [State.atBoundary, h.ret, hc]

theorem sameLine_modUsr (s : State) (c : Nat) (f : User → User) (hr : (f (s.usr c)).ctx.ret = (s.usr c).ctx.ret)
    (ht : (f (s.usr c)).task.map Task.launch = (s.usr c).task.map Task.launch) : SameLine s (s.modUsr c f) c :=
  ⟨by simp [hr], by simp [ht], fun _ => rfl⟩

theorem sameLine_modCtx (s : State) (c : Nat) (lan : Bool) (f : Ctx → Ctx) (hf : ∀ x, (f x).ret = x.ret) : SameLine s (s.modCtx c lan f) c := by
  cases lan
  · exact ⟨by simp [hf], by simp, fun _ => rfl⟩
  · exact ⟨by simp, by simp, fun _ => rfl⟩

theorem sameLine_unwait (s : State) (c : Nat) (lan : Bool) : SameLine s (s.unwait c lan) c := by
  unfold State.unwait
  cases lan
  · refine ⟨by simp, ?_, fun _ => rfl⟩
    simp only [State.usr_modTask, State.usr_modCore, State.usr_of_core, Bool.false_eq_true, if_false, Option.map_map]
    rfl
  · exact ⟨by simp, by simp, fun _ => rfl⟩

theorem sameLine_latched (s : State) (t : Trig) : SameLine s (s.latched t) t.c :=
  (sameLine_unwait s t.c t.lan).trans (sameLine_modCtx _ t.c t.lan _ (fun _ => rfl))

theorem sameLine_failure (s : State) (c slot : Nat) (pc : Word) (cause : Nat) : SameLine s (s.failure c slot pc cause) c := by
  unfold State.failure
  split <;> exact sameLine_modUsr _ _ _ rfl rfl

theorem sameLine_mismatch (s : State) (t : Trig) : SameLine s (s.mismatch t) t.c := by
  unfold State.mismatch
  split
  · exact ⟨rfl, rfl, fun _ => rfl⟩
  · split
    · exact ⟨rfl, rfl, fun _ => rfl⟩
    · exact sameLine_failure ..

/-- What a bundle of one trigger leaves, from what the trigger does. -/
theorem State.issued_eq {s : State} {t : Trig} {w : ArvWhen} {bad : Bool} {f : Flow} {s' : State} (h : (s.latched t).trigRun t = (w, bad, f, s'))
    (hi : t.lan = false → (s'.core t.c).injMask = 0) (hm : t.op = .mchk → t.lan = true ∨ (s'.usr t.c).inSeg = false)
    (h2 : t.slot ≠ 2) :
    s.issued t = ((if bad then s'.mismatch t else s').modCtx t.c t.lan (fun y => t.puts.foldl (fun (y : Ctx) ((n, v) : Nat × Val) => y.writeReg n v) y)).tail t.c t.lan t.pc f := by
  have hnm : (if !t.lan && t.op == .mchk && ((if bad then s'.mismatch t else s').usr t.c).inSeg then
        (if bad then s'.mismatch t else s').modUsr t.c (fun u => { u with seg := { u.seg with checks := u.seg.checks ++ [(if bad then s'.mismatch t else s').cyc + 1] } })
        else (if bad then s'.mismatch t else s')) = (if bad then s'.mismatch t else s') := by
    by_cases ho : t.op = .mchk
    · rcases hm ho with hl | hg
      · simp [hl]
      · have ho' : (t.op == Op.mchk) = true := by simp [ho]
        have : ((s'.mismatch t).usr t.c).inSeg = (s'.usr t.c).inSeg := by
          unfold State.mismatch
          rw [if_pos ho']
          rfl
        cases bad <;> simp [this, hg]
    · have : (t.op == Op.mchk) = false := by simpa using ho
      simp [this]
  have hw : ∀ u : State, u.watched t = u := by
    intro u
    simp [State.watched, h2]
  have hr : (s.latched t).runTrigs [t] = ([(t.slot, w)], f, if bad then s'.mismatch t else s') := by
    simp only [State.runTrigs, h, State.injections_none hi, Bool.or_false, hw, hnm]
  simp only [State.issued, hr]

section
variable {s : State} {c : Nat} {lan : Bool} {o : Op} {g : BitVec 3} {src : BitVec 10} (e : Bool)

/-- The results that a scalar operation puts in flight (R39, R181). -/
def scalarPipes (t : Trig) (r : SRes) : List Pipe :=
  let one (port : Nat) (v : Word) (fl : Flags) : Pipe :=
    { unit := t.slot, port := port, val := .sc v, rem := scalarLat t.op, fl := fl, en := enabledFlags t.x0.fpc, slot := t.slot, pc := t.pc }
  (match r.x with | some v => [one 0 v r.fl] | none => []) ++ (match r.y with | some v => [one 1 v 0] | none => [])

theorem State.ctx_pushScalar (s : State) (t : Trig) (r : SRes) :
    (s.pushScalar t r).ctx t.c t.lan = { s.ctx t.c t.lan with pipe := (s.ctx t.c t.lan).pipe ++ scalarPipes t r } := by
  unfold State.pushScalar scalarPipes
  cases r.x <;> cases r.y <;> simp [State.pushPipe]

theorem State.injMask_modCtx (s : State) (c : Nat) (lan : Bool) (f : Ctx → Ctx) : ((s.modCtx c lan f).core c).injMask = (s.core c).injMask := by
  cases lan <;> simp [State.modCtx]

theorem State.injMask_pushScalar (s : State) (t : Trig) (r : SRes) : ((s.pushScalar t r).core t.c).injMask = (s.core t.c).injMask := by
  unfold State.pushScalar State.pushPipe
  cases r.x <;> cases r.y <;> simp [State.injMask_modCtx]

theorem State.injMask_latched (s : State) (t : Trig) : ((s.latched t).core t.c).injMask = (s.core t.c).injMask := by
  rw [State.latched, State.injMask_modCtx]
  unfold State.unwait
  cases t.lan <;> simp [State.modTask]

theorem State.debugStep_pushScalar (s : State) (t : Trig) (r : SRes) : ((s.pushScalar t r).core t.c).debugStep = (s.core t.c).debugStep := by
  unfold State.pushScalar State.pushPipe
  cases r.x <;> cases r.y <;> simp [State.debugStep_modCtx]

theorem State.debugStep_latched (s : State) (t : Trig) : ((s.latched t).core t.c).debugStep = (s.core t.c).debugStep := by
  rw [State.latched, State.debugStep_modCtx]
  unfold State.unwait
  cases t.lan <;> simp [State.modTask]

theorem State.debugStep_mismatch (s : State) (t : Trig) : ((s.mismatch t).core t.c).debugStep = (s.core t.c).debugStep := by
  unfold State.mismatch State.failure
  split
  · rfl
  · split
    · simp
    · split <;> simp

theorem sameLine_pushPipe (s : State) (t : Trig) (port lat : Nat) (v : Val) (fl : Flags) : SameLine s (s.pushPipe t port lat v fl) t.c := by
  unfold State.pushPipe
  exact sameLine_modCtx _ _ _ _ (fun _ => rfl)

theorem sameLine_pushScalar (s : State) (t : Trig) (r : SRes) : SameLine s (s.pushScalar t r) t.c := by
  unfold State.pushScalar
  cases r.x <;> cases r.y
  · exact SameLine.refl ..
  · exact sameLine_pushPipe ..
  · exact sameLine_pushPipe ..
  · exact (sameLine_pushPipe s t ..).trans (sameLine_pushPipe ..)

/-- The scalar operations whose results the table of results gives. -/
def Op.tabled (o : Op) : Bool := decide (o.code < 0x60) && o != .nop && o != .rdspec && o != .wrspec && o != .rand

theorem fit_scalar (ho : o.tabled = true) (hv : (srcOf src.toNat).vector = false) : Fit s c lan o src := by
  have hc : o.homeSlot = 0 := by revert ho; cases o <;> decide
  have hp : o.privileged = false := by revert ho; cases o <;> decide
  have hslot : (s.trigger c lan o src).slot = 0 := hc
  have hop : (s.trigger c lan o src).op = o := rfl
  refine ⟨fun h => by simp [hv] at h, fun h => by simp [hp] at h, ?_, ?_, ?_, ?_⟩
  · simp [Trig.marks, hslot]
  · have hs : (s.trigger c lan o src).sources = [] := by
      unfold Trig.sources
      rw [hop]
      revert ho
      cases o <;> first | (intro; rfl) | (intro h; exact absurd h (by decide))
    simp [otherSources, one_arvAny, hs]
  · simp only [State.trigCheck, hslot]
    unfold scalarCheck
    rw [hop]
    revert ho
    cases o <;> first | (intro; rfl) | (intro h; exact absurd h (by decide))
  · have ha : o ≠ .sys := by rintro rfl; revert ho; decide
    simp [State.gatedUnit, hslot, hop, ha]

/-- The context after a scalar operation that stands alone: the user cycle ends over its results. -/
theorem ctx_scalar (h : Alone s c lan g src) (ho : o.tabled = true) :
    (s.issued (s.trigger c lan o src)).ctx c lan =
      (({ (s.ctx c lan).setUnit 0 (s.trigger c lan o src).u with
          pipe := (s.ctx c lan).pipe ++ scalarPipes (s.trigger c lan o src) (scalarRes o (s.trigger c lan o src).scalarIn), np := 0 } : Ctx).advance (s.ctx c lan).pc).userCycle.1 := by
  have hc : o.homeSlot = 0 := by revert ho; cases o <;> decide
  have hslot : (s.trigger c lan o src).slot = 0 := hc
  have hop : (s.trigger c lan o src).op = o := rfl
  have hrun : ∃ w bad, ((s.latched (s.trigger c lan o src)).trigRun (s.trigger c lan o src))
      = (w, bad, .next, (s.latched (s.trigger c lan o src)).pushScalar (s.trigger c lan o src) (scalarRes o (s.trigger c lan o src).scalarIn)) := by
    simp only [State.trigRun, hslot]
    unfold State.scalarRun
    rw [hop]
    revert ho
    cases o <;> first | (intro; exact ⟨_, _, rfl⟩) | (intro h; exact absurd h (by decide))
  obtain ⟨w, bad, hrun⟩ := hrun
  have hputs : (s.trigger c lan o src).puts = [] := by
    have : o ≠ .wrspec := by rintro rfl; simp [Op.tabled] at ho
    simp [Trig.puts, hop, this]
  rw [State.issued_eq hrun]
  · have hctx : ∀ u : State, (if bad then u.mismatch (s.trigger c lan o src) else u).ctx c lan = u.ctx c lan := by
      intro u
      cases bad
      · rfl
      · exact State.ctx_mismatch u (s.trigger c lan o src) lan
    have hsame : SameLine s (if bad then ((s.latched (s.trigger c lan o src)).pushScalar (s.trigger c lan o src) (scalarRes o (s.trigger c lan o src).scalarIn)).mismatch (s.trigger c lan o src)
        else (s.latched (s.trigger c lan o src)).pushScalar (s.trigger c lan o src) (scalarRes o (s.trigger c lan o src).scalarIn)) c := by
      have h1 : SameLine s ((s.latched (s.trigger c lan o src)).pushScalar (s.trigger c lan o src) (scalarRes o (s.trigger c lan o src).scalarIn)) c :=
        (sameLine_latched s (s.trigger c lan o src)).trans (sameLine_pushScalar _ (s.trigger c lan o src) _)
      cases bad
      · exact h1
      · exact h1.trans (sameLine_mismatch _ (s.trigger c lan o src))
    rw [hputs]
    have hnb : lan = false → (((if bad then ((s.latched (s.trigger c lan o src)).pushScalar (s.trigger c lan o src) (scalarRes o (s.trigger c lan o src).scalarIn)).mismatch (s.trigger c lan o src)
        else (s.latched (s.trigger c lan o src)).pushScalar (s.trigger c lan o src) (scalarRes o (s.trigger c lan o src).scalarIn))).modCtx c lan (fun y => y)).atBoundary c (s.ctx c lan).pc = none := by
      intro hl
      rw [(hsame.trans (sameLine_modCtx _ c lan (fun y => y) (fun _ => rfl))).atBoundary]
      exact h.line hl
    have hct := State.ctx_tail (s := ((if bad then ((s.latched (s.trigger c lan o src)).pushScalar (s.trigger c lan o src) (scalarRes o (s.trigger c lan o src).scalarIn)).mismatch (s.trigger c lan o src)
        else (s.latched (s.trigger c lan o src)).pushScalar (s.trigger c lan o src) (scalarRes o (s.trigger c lan o src).scalarIn))).modCtx c lan (fun y => y)) (c := c) (lan := lan) (pc := (s.ctx c lan).pc) hnb (fun hl => by
        rw [State.debugStep_modCtx]
        have h2 : (((s.latched (s.trigger c lan o src)).pushScalar (s.trigger c lan o src) (scalarRes o (s.trigger c lan o src).scalarIn)).core c).debugStep = false :=
          (State.debugStep_pushScalar _ (s.trigger c lan o src) _).trans ((State.debugStep_latched s (s.trigger c lan o src)).trans (h.free hl))
        cases bad
        · exact h2
        · exact (State.debugStep_mismatch _ (s.trigger c lan o src)).trans h2)
    refine hct.trans ?_
    rw [State.ctx_modCtx, hctx]
    have hps := State.ctx_pushScalar (s.latched (s.trigger c lan o src)) (s.trigger c lan o src) (scalarRes o (s.trigger c lan o src).scalarIn)
    have hla := State.ctx_latched s (s.trigger c lan o src)
    rw [show ((s.latched (s.trigger c lan o src)).pushScalar (s.trigger c lan o src) (scalarRes o (s.trigger c lan o src).scalarIn)).ctx c lan = _ from hps, hla, hslot]
    rfl
  · intro hl
    rw [State.injMask_pushScalar, State.injMask_latched]
    exact h.quiet hl
  · intro hm
    rw [hop] at hm
    subst hm
    simp [Op.tabled, Op.code] at ho
  · simp [hslot]

end

end Sys2Proof.Machine
end

