-- ==== Sys2Proof/Tests/Desk.lean ====
section
/-! SUPPORT. Small states for the tests and the witnesses, and the conditions of a lone move as decidable propositions. -/
namespace Sys2Proof.Tests
open Sys2Proof.Machine

/-- `Alone` as a test. -/
def aloneB (s : State) (c : Nat) (lan : Bool) (g : BitVec 3) (src : BitVec 10) : Bool :=
  decide (s.actor = side c lan) && (lan || (!(s.usr c).inSeg && decide ((s.core c).injMask = 0) && !(s.core c).debugStep && decide (s.atBoundary c (s.ctx c lan).pc = none)))
    && (s.ctx c lan).pred g.toNat && (s.ctx c lan).readable src

theorem alone_iff (s : State) (c : Nat) (lan : Bool) (g : BitVec 3) (src : BitVec 10) : Alone s c lan g src ↔ aloneB s c lan g src = true := by
  constructor
  · rintro ⟨a, b, d, k, e, f, g⟩
    cases lan <;> simp_all [aloneB]
  · intro h
    cases lan <;> simp only [aloneB, Bool.and_eq_true, Bool.or_eq_true, Bool.not_eq_true', decide_eq_true_eq] at h <;> constructor <;> simp_all

/-- `Fit` as a test. -/
def fitB (s : State) (c : Nat) (lan : Bool) (o : Op) (src : BitVec 10) : Bool :=
  (!(srcOf src.toNat).vector || decide (o.homeSlot = 3)) && (!o.privileged || lan)
    && (s.trigger c lan o src).marks.all (fun n => !(s.ctx c lan).pending n)
    && (otherSources (Bundle.one 0 0) [s.trigger c lan o src]).all (fun n => (s.ctx c lan).full n)
    && decide (s.trigCheck (s.trigger c lan o src) = .ok) && decide (s.gatedUnit (s.trigger c lan o src) = none)

theorem fit_iff (s : State) (c : Nat) (lan : Bool) (o : Op) (src : BitVec 10) : Fit s c lan o src ↔ fitB s c lan o src = true := by
  constructor
  · rintro ⟨a, b, d, e, f, g⟩
    simp only [fitB, Bool.and_eq_true, Bool.or_eq_true, Bool.not_eq_true', decide_eq_true_eq]
    refine ⟨⟨⟨⟨⟨?_, ?_⟩, d⟩, e⟩, f⟩, g⟩
    · cases h : (srcOf src.toNat).vector <;> simp_all
    · cases h : o.privileged <;> simp_all
  · intro h
    simp only [fitB, Bool.and_eq_true, Bool.or_eq_true, Bool.not_eq_true', decide_eq_true_eq] at h
    obtain ⟨⟨⟨⟨⟨a, b⟩, d⟩, e⟩, f⟩, g⟩ := h
    exact ⟨fun h => by simp_all, fun h => by simp_all, d, e, f, g⟩

/-- A package that has started, with every byte of memory 0, and core 0 with a running task of a launch of continuation
0x1000 in partition 0, an empty scratchpad, and the first 2 MiB translated. -/
def desk : State :=
  { mem := {}, mod := { booted := true, powered := true }
    cores := [(0, { usr := { task := some { launch := 0, tx := 0, ty := 0, team := 0, st := .running }, spad := {} }, tlb := [firstPage] })]
    launches := [(0, { lonely with block := 0x1000 })], regions := [(0, { st := .accel })]
    clusters := [(0, { home := some 0, cur := some 0, gated := false })]
    parts := { en := true } :: List.replicate 15 {}
    conts := [(0x1000, { block := 0x1000, st := .running, resident := true })] }

/-- The desk with one side of core 0 as the actor. -/
def deskOf (lan : Bool) : State := { desk with actor := side 0 lan }

/-- The operand in s1 and the ports b, c and d of a unit. -/
def args (s : State) (lan : Bool) (u a b c d : Nat) : State :=
  s.modCtx 0 lan (fun x => { x with
    s := rset x.s 1 { v := BitVec.ofNat 64 a }
    u := rset x.u u { b := .sc (BitVec.ofNat 64 b), c := BitVec.ofNat 64 c, d := BitVec.ofNat 64 d } })

/-- The desk with page tables from 0x10000 on that map the first 2 MiB onto themselves, and no translation held. -/
def paged : State :=
  let ptr (n : Nat) : List Byte := toBytesLE 8 (n * 2 ^ 10 + 1)
  let atp : Word := BitVec.ofNat 64 (10 * 2 ^ 60 + 0x10)
  { (desk.modCore 0 (fun w => { w with tlb := [] })).modCont 0x1000 (fun q => { q with atp := atp }) with
    mem := (((({} : Mem).wrN 0x10000 (ptr 0x11)).wrN 0x11000 (ptr 0x12)).wrN 0x12000 (ptr 0x13)).wrN 0x13000 (toBytesLE 8 0xD7) }

/-- A record whose prologue and kernel begin at bundle 0 and whose epilogue at bundle 1, with two iterations, that may be split
and stolen. -/
def recSample : LRec := { w1 := BitVec.ofNat 64 (32 + 2 * 2 ^ 32), w3 := 3 }

end Sys2Proof.Tests
end

