-- ==== Sys2Proof/Tests/Ring.lean ====
section
/-! SUPPORT. Streams for the witnesses: packets in the ring of the desk's continuation, and what starts a packet as a test. -/
namespace Sys2Proof.Tests
open Sys2Proof.Machine

theorem got_iff {α : Type} [DecidableEq α] (g : Got α) (a : α) : g = .ok a ↔ (match g with | .ok x => decide (x = a) | _ => false) = true := by
  cases g <;> simp

theorem got_some {α : Type} (g : Got α) : (∃ a, g = .ok a) ↔ (match g with | .ok _ => true | _ => false) = true := by
  cases g <;> simp

/-- The words of a packet: its type, its flags, and its fields with their data. -/
def packet (ty flags : Nat) (fields : List (Nat × List Nat)) : List Nat :=
  let body := fields.flatMap (fun ((t, d) : Nat × List Nat) => (t + 8 * d.length * 2 ^ 16) :: d)
  (ty + flags + (1 + body.length) * 2 ^ 16) :: body

/-- The paged desk with leaf entry `leaf`, and words in the ring of its continuation. -/
def ring (leaf : Nat) (f : Cont → Cont) (words : List Nat) : State :=
  { paged.modCont 0x1000 (fun q => f { q with sbase := 0x2000 }) with
    mem := ((paged.mem.wrN 0x13000 (toBytesLE 8 leaf)).wrN 0x1010 (toBytesLE 8 words.length)).wrN 0x2000 (words.flatMap (toBytesLE 8)) }

/-- A leaf entry for a C page, and for a K page. -/
def cLeaf : Nat := 0xD7
def kLeaf : Nat := 0x2D7

/-- The continuation once its words have been read, and the packet that it then finds. -/
def qOf (s : State) : Cont := ((s.fill 0x1000).conts.find? 0x1000).getD { block := 0, st := .free }
def rOf (s : State) : Nat × Scan := match (s.fill 0x1000).look (qOf s) with | .pkt h r => (h, r) | _ => (0, {})

def atPacketB (s : State) : Bool :=
  (match s.conts.find? 0x1000 with | some q => q.streaming && q.stream.headReady && decide (q.stream.live < 16) | none => false)
    && ((s.fill 0x1000).conts.find? 0x1000).isSome && decide ((qOf s).block = 0x1000)
    && (match (s.fill 0x1000).look (qOf s) with | .pkt _ _ => true | _ => false)
    && (!pktBarrier (pkType (rOf s).1) || decide ((qOf s).stream.live = (qOf s).stream.depth)) && !(qOf s).stream.capturing

theorem atPacket_of (s : State) (h : atPacketB s = true) : AtPacket s 0x1000 (qOf s) (rOf s).1 (rOf s).2 := by
  simp only [atPacketB, Bool.and_eq_true, Bool.or_eq_true, Bool.not_eq_true', decide_eq_true_eq] at h
  obtain ⟨⟨⟨⟨⟨a, b⟩, c⟩, d⟩, e⟩, f⟩ := h
  refine ⟨?_, ?_, c, ?_, ?_, f⟩
  · revert a
    cases s.conts.find? 0x1000 with
    | none => simp
    | some q => intro a; simp only [Bool.and_eq_true, decide_eq_true_eq] at a; exact ⟨q, rfl, a.1.1, a.1.2, a.2⟩
  · obtain ⟨q, hq⟩ := Option.isSome_iff_exists.mp b
    simp [qOf, hq]
  · revert d
    unfold rOf
    cases (s.fill 0x1000).look (qOf s) <;> simp
  · intro hb
    rcases e with e | e
    · rw [e] at hb; simp at hb
    · exact e

/-- What a stream finds, as a test. -/
def finds (s : State) (l : Look) : Bool :=
  match (s.fill 0x1000).look (qOf s), l with
  | .bad h x, .bad h' x' => decide (h = h' ∧ x = x')
  | .fault a h, .fault a' h' => decide (a = a' ∧ h = h')
  | .ret, .ret => true
  | _, _ => false

end Sys2Proof.Tests
end

