-- ==== Sys2Proof/Tests/Slice0.lean ====
section
/-! SUPPORT. Tests of decoding, of well-formedness, and of single steps. The words of the decoding tests are written out from the
layout of a move (R28: guard, E, source, destination), the opcodes of the table, and the R-type layout of R91 and R307. -/
namespace Sys2Proof.Tests
set_option Elab.async false
open Sys2Proof.Machine

/-! ### Decoding -/

/-- A trigger's word: guard 101, E 1, source 10 1010 0101, destination 10 and an opcode. -/
def trig (code : Nat) : Nat := 0b101_1_1010100101_10_00000000 + code

theorem test_decode_scalar :
    ∀ p ∈ ([(0x00, .add), (0x01, .sub), (0x02, .addw), (0x03, .subw), (0x04, .mul), (0x05, .mulh), (0x06, .mulhu), (0x07, .mulw),
        (0x08, .div), (0x09, .divu), (0x0A, .rem), (0x0B, .remu), (0x0C, .and), (0x0D, .or), (0x0E, .xor), (0x0F, .andn),
        (0x10, .sll), (0x11, .srl), (0x12, .sra), (0x13, .rol), (0x14, .clz), (0x15, .ctz), (0x16, .popc), (0x17, .brev),
        (0x18, .min), (0x19, .max), (0x1A, .minu), (0x1B, .maxu), (0x1C, .abs), (0x1D, .neg), (0x1E, .adds), (0x1F, .subs),
        (0x20, .ceq), (0x21, .cne), (0x22, .clt), (0x23, .cltu), (0x24, .cle), (0x25, .cleu), (0x26, .ctst), (0x27, .cbit),
        (0x28, .sel), (0x29, .ext), (0x2A, .extu), (0x2B, .ins), (0x2C, .lea), (0x2D, .lea2), (0x2E, .movk), (0x2F, .crc),
        (0x30, .pand), (0x31, .por), (0x32, .pxor), (0x33, .pnot), (0x34, .pandn), (0x35, .pmov), (0x36, .pget), (0x37, .pall),
        (0x38, .chkeq), (0x39, .chkp), (0x3A, .rdspec), (0x3B, .wrspec), (0x3C, .rand), (0x3D, .mix), (0x3E, .bswap), (0x3F, .nop)] : List (Nat × (BitVec 3 → Bool → BitVec 10 → Instr))),
      decodeTableWord 24 (trig p.1) = some (p.2 0b101 true 0b1010100101) := by decide +kernel

theorem test_decode_float :
    ∀ p ∈ ([(0x40, .faddD), (0x41, .fsubD), (0x42, .fmulD), (0x43, .ffmaD), (0x44, .fdivD), (0x45, .fsqrtD), (0x46, .fminD),
        (0x47, .fmaxD), (0x48, .faddS), (0x49, .fsubS), (0x4A, .fmulS), (0x4B, .ffmaS), (0x4C, .fdivS), (0x4D, .fsqrtS),
        (0x4E, .fminS), (0x4F, .fmaxS), (0x50, .fceqD), (0x51, .fcltD), (0x52, .fcleD), (0x53, .fceqS), (0x54, .fcltS),
        (0x55, .fcleS), (0x56, .fclass), (0x57, .fcvtSD), (0x58, .fcvtDS), (0x59, .fcvtDL), (0x5A, .fcvtLD), (0x5B, .fcvtSW),
        (0x5C, .fcvtWS), (0x5D, .fcvtBfS), (0x5E, .fcvtSBf), (0x5F, .frnd)] : List (Nat × (BitVec 3 → Bool → BitVec 10 → Instr))),
      decodeTableWord 24 (trig p.1) = some (p.2 0b101 true 0b1010100101) := by decide +kernel

theorem test_decode_memory :
    ∀ p ∈ ([(0x60, .ldB), (0x61, .ldH), (0x62, .ldW), (0x63, .ldD), (0x64, .ldsB), (0x65, .ldsH), (0x66, .ldsW), (0x67, .stB),
        (0x68, .stH), (0x69, .stW), (0x6A, .stD), (0x6B, .vld), (0x6C, .vst), (0x6D, .vgath), (0x6E, .vscat), (0x6F, .ldr),
        (0x70, .amo), (0x71, .cas), (0x72, .qincb), (0x73, .qincw), (0x74, .qdecp), (0x75, .qaddl), (0x76, .ctradd),
        (0x77, .ctrwait), (0x78, .ctrrd), (0x79, .barinit), (0x7A, .barv), (0x7B, .barw), (0x7C, .fence), (0x7D, .tlook),
        (0x7E, .tset), (0x7F, .bnd)] : List (Nat × (BitVec 3 → Bool → BitVec 10 → Instr))),
      decodeTableWord 24 (trig p.1) = some (p.2 0b101 true 0b1010100101) := by decide +kernel

theorem test_decode_vector :
    ∀ p ∈ ([(0x80, .vadd), (0x81, .vsub), (0x82, .vmul), (0x83, .vfma), (0x84, .vfms), (0x85, .vmin), (0x86, .vmax), (0x87, .vabs),
        (0x88, .vneg), (0x89, .vdiv), (0x8A, .vsqrt), (0x8B, .vrcp), (0x8C, .vrsq), (0x8D, .vexp2), (0x8E, .vlog2),
        (0x8F, .vsincos), (0x90, .vcmul), (0x91, .vconj), (0x92, .vbfly), (0x93, .vand), (0x94, .vor), (0x95, .vxor),
        (0x96, .vshl), (0x97, .vshr), (0x98, .vceq), (0x99, .vclt), (0x9A, .vcle), (0x9B, .vsel), (0x9C, .vcvt), (0x9D, .vperm),
        (0x9E, .vshuf), (0x9F, .vbcast), (0xA0, .vredadd), (0xA1, .vredmax), (0xA2, .vredmin), (0xA3, .vscan), (0xA4, .vidx),
        (0xA5, .vextr), (0xA6, .vinsr), (0xA7, .vqop), (0xA8, .vqpop), (0xA9, .vchk), (0xAA, .vdot), (0xAB, .vclamp),
        (0xAC, .vrnd), (0xAD, .vmovq), (0xAE, .vpack), (0xAF, .vunpk)] : List (Nat × (BitVec 3 → Bool → BitVec 10 → Instr))),
      decodeTableWord 24 (trig p.1) = some (p.2 0b101 true 0b1010100101) := by decide +kernel

theorem test_decode_matrix :
    ∀ p ∈ ([(0xB0, .mma), (0xB1, .mmag), (0xB2, .mzero), (0xB3, .mldc), (0xB4, .mstc), (0xB5, .mcvt), (0xB6, .tidw), (0xB7, .tidr),
        (0xB8, .cbld), (0xB9, .mseq), (0xBA, .mstat), (0xBB, .mwin), (0xBC, .macc), (0xBD, .mtrn), (0xBE, .mchk), (0xBF, .mscale)] : List (Nat × (BitVec 3 → Bool → BitVec 10 → Instr))),
      decodeTableWord 24 (trig p.1) = some (p.2 0b101 true 0b1010100101) := by decide +kernel

theorem test_decode_transfer :
    ∀ p ∈ ([(0xC0, .cpset), (0xC1, .cpgo), (0xC2, .cpstat), (0xC3, .cpabrt), (0xC4, .cpkey), (0xC5, .bussel), (0xC6, .msg),
        (0xC7, .rwr), (0xC8, .ramo), (0xC9, .rred), (0xCA, .wquiet), (0xCB, .jobr), (0xCC, .pstart), (0xCD, .psig), (0xCE, .pstat),
        (0xCF, .cpfence)] : List (Nat × (BitVec 3 → Bool → BitVec 10 → Instr))),
      decodeTableWord 24 (trig p.1) = some (p.2 0b101 true 0b1010100101) := by decide +kernel

theorem test_decode_control :
    ∀ p ∈ ([(0xD0, .br), (0xD1, .bri), (0xD2, .call), (0xD3, .ret), (0xD4, .loop), (0xD5, .lpost), (0xD6, .lrun), (0xD7, .lsplit),
        (0xD8, .tend), (0xD9, .tgrp), (0xDA, .sys), (0xDB, .trap), (0xDC, .twait), (0xDD, .rdv), (0xDE, .ropen), (0xDF, .rjoin),
        (0xE0, .rvote), (0xE1, .rabort), (0xE2, .rleave), (0xE3, .rstat), (0xE4, .epop), (0xE5, .epush), (0xE6, .estat),
        (0xE7, .estop), (0xE8, .cancel), (0xE9, .launch), (0xEA, .sleep), (0xEB, .prio), (0xEC, .sched), (0xED, .dbg),
        (0xEE, .wdog), (0xEF, .hint)] : List (Nat × (BitVec 3 → Bool → BitVec 10 → Instr))),
      decodeTableWord 24 (trig p.1) = some (p.2 0b101 true 0b1010100101) := by decide +kernel

theorem test_decode_lantern :
    ∀ p ∈ ([(0xF0, .eret), (0xF1, .snap), (0xF2, .snapr), (0xF3, .segrew), (0xF4, .inj), (0xF5, .fcsr), (0xF6, .tlbi), (0xF7, .faultq),
        (0xF8, .park), (0xF9, .unpark), (0xFA, .dump), (0xFB, .fwshare), (0xFC, .slotw), (0xFD, .keyop), (0xFE, .idle),
        (0xFF, .ill)] : List (Nat × (BitVec 3 → Bool → BitVec 10 → Instr))),
      decodeTableWord 24 (trig p.1) = some (p.2 0b101 true 0b1010100101) := by decide +kernel

theorem test_decode_moves :
    decodeTableWord 24 0b101_1_1010100101_00_10010110 = some (.moveRegister 0b101 true 0b1010100101 0b10010110) ∧
    decodeTableWord 24 0b101_1_1010100101_01_110_10111 = some (.movePort 0b101 true 0b1010100101 0b110 0b10111) ∧
    decodeTableWord 24 0b101_1_1010100101_11_00000000 = some (.discard 0b101 true 0b1010100101) ∧
    decodeTableWord 24 0b101_1_1010100101_11_00000001 = some (.busdrive 0b101 true 0b1010100101) ∧
    decodeTableWord 24 0b101_1_1010100101_11_00000010 = some (.busland 0b101 true 0b1010100101) ∧
    decodeTableWord 24 0b101_1_1010100101_11_00000011 = none ∧ decodeTableWord 24 0 = some .emptyMove := by decide +kernel

/-- A word of custom-0: funct7, rs2, rs1, funct3, rd, opcode 0001011. -/
def rword (f7 rs2 rs1 f3 rd : Nat) : Nat := f7 * 2 ^ 25 + rs2 * 2 ^ 20 + rs1 * 2 ^ 15 + f3 * 2 ^ 12 + rd * 2 ^ 7 + 0b0001011

theorem test_decode_hart :
    ∀ p ∈ ([(rword 0 0 21 0 9, .cpost 9 21), (rword 1 22 21 0 9, .cjoin 22 21 9), (rword 2 0 21 0 9, .cquery 9 21), (rword 3 0 0 0 9, .ckill 9),
        (rword 0 22 21 1 9, .ccreate 22 21 9), (rword 1 0 21 1 9, .cfree 9 21), (rword 2 0 21 1 9, .cbind 9 21), (rword 3 0 21 1 9, .csave 9 21),
        (rword 4 0 21 1 9, .cload 9 21), (rword 5 22 21 1 9, .cresume 22 21 9), (rword 6 0 21 1 9, .cadopt 9 21), (rword 7 0 21 1 9, .cckpt 9 21)] : List (Nat × Instr)),
      decodeTableWord 32 p.1 = some p.2 := by decide +kernel

theorem test_decode_porter :
    ∀ p ∈ ([(rword 0 22 21 3 9, .pld 22 21 9), (rword 1 22 21 3 9, .pst 22 21 9), (rword 2 0 21 3 9, .plds 21 9), (rword 3 22 21 3 9, .pgath 22 21 9),
        (rword 4 22 21 3 9, .pctr 22 21 9), (rword 5 22 21 3 9, .pwait 22 21 9), (rword 6 22 21 3 9, .ptok 22 21 9), (rword 7 0 0 3 9, .psigw 9), (rword 8 0 0 3 9, .pfence 9)] :
        List (Nat × Instr)),
      decodeTableWord 32 p.1 = some p.2 := by decide +kernel

/-- Fields that a word must leave 0, and opcodes that no row names. -/
theorem test_decode_refuses :
    decodeTableWord 32 (rword 0 1 21 0 9) = none ∧ decodeTableWord 32 (rword 3 0 1 0 9) = none ∧ decodeTableWord 32 (rword 4 0 21 0 9) = none ∧
    decodeTableWord 32 (rword 8 0 21 1 9) = none ∧ decodeTableWord 32 (rword 9 0 0 3 9) = none ∧ decodeTableWord 32 (rword 0 22 21 2 9) = none := by decide +kernel

/-- What the encoder gives is the word of the table. -/
theorem test_encode :
    encode (.ldD 5 true 63) = some (24, 0b101_1_0000111111_1001100011) ∧ encode (.cjoin 3 2 1) = some (32, 0b0000001_00011_00010_000_00001_0001011) ∧
    encode (.porterRv32imInstruction 0x00510093) = some (32, 0x00510093) ∧ encode .powerOn = none := by decide +kernel

/-! ### The vector extension of the harts (R18); words and values from the published set -/

/-- A hart with elements of 32 bits, LMUL 1, VL 3; v2 holds 1, 2, 3 and x5 an address. -/
def vecHart : Hart := { vs := 1, vtype := 0x10, vl := 3, pc := 0x100, x := (Vector.replicate 32 0).set 5 0x1000, v := (Vector.replicate 32 0).set 2 0x00000004000000030000000200000001 }

/-- VSE32.V v2, (x5), then VLE32.V v7, (x5): three elements. -/
theorem test_hart_vector_memory :
    (let s := (State.reset.setHart 0 vecHart).hartVector 0 4 0b000_0_00_1_00000_00101_110_00010_0100111
     let t := s.hartVector 0 4 0b000_0_00_1_00000_00101_110_00111_0000111
     ((t.hart 0).pc, rget 0 (t.hart 0).v 7)) = (0x108, 0x000000030000000200000001) := by decide +kernel

/-- VSETIVLI x1, 9, e16, m2, ta; VMACC.VX v2, x5, v2 with x5 = 4096; VRSUB.VI v3, v2, -1; VMSLT.VX under a mask is refused on v0. -/
theorem test_hart_vector_registers :
    (vecHart.vsetOp 0b11_0001001001_01001_111_00001_1010111).map (fun y => (y.vl, y.vtype, y.rd 1)) = some (9, 0x49, 9) ∧
    (vecHart.opv 0 0b101101_1_00010_00101_110_00010_1010111).map (fun y => rget 0 y.v 2) = some 0x00000004000030030000200200001001 ∧
    (vecHart.opv 0 0b000011_1_00010_11111_011_00011_1010111).map (fun y => rget 0 y.v 3) = some 0xFFFFFFFCFFFFFFFDFFFFFFFE ∧
    (vecHart.opv 0 0b000000_0_00010_00010_000_00000_1010111).isNone = true := by decide +kernel

/-! ### Terms that are not well formed -/

theorem test_wf_refuses_moves :
    (Instr.bundleIssue (Bundle.one 0 0b000_0_0000000001_1000000000)).wf = false ∧ (Instr.bundleIssue (Bundle.one 0 0)).wf = false ∧
    (Instr.bundleIssue { Bundle.one 0 0 with w1 := 0b000_0_0000000001_1000000000 }).wf = true ∧
    (Instr.moveRegister 0 false 0 0).wf = false ∧ (Instr.moveRegister 0 false 0 1).wf = true ∧ (Instr.porterRv32imInstruction 0).wf = false := by decide +kernel

theorem test_wf_refuses_cores :
    ∀ f ∈ ([.resultLanding, .arrivalOnRetire, .segmentCommit, .rewindDone, .mseqStepStart, .idleWake, .sysReissue, .coreResume, .imageSaved, .scoutProbe, .stealArrival, .twaitTimeout,
        .watchdogExpiry, .rendezvousTimeout, .shareViolation, .debugHold, .debugStep, .debugRelease, .pageWalk, .ownershipTimeout, .gatedUnitWake, .barrierBankService, .wquietTimeout,
        .lanternImageSwitch, fun c => .globalRequestAccept c 0, fun c => .storePerform c 0, fun c => .loadPerform c 0, fun c => .waitLimitExpiry c 0, fun c => .regionDirectoryAccess c 0,
        fun c => .porterEcall c 0, fun c => .porterException c 0, fun c => .porterFault c 0, fun c => .porterBlockComplete c 0, fun c => .porterWake c 0] : List (Nat → Instr)),
      (f 2047).wf = true ∧ (f 2048).wf = false := by decide +kernel

theorem test_wf_refuses_other_numbers :
    ∀ p ∈ ([(1024, .arrayOpComplete), (16, .shareChangeEffect), (4, fun d => .slotCellEffect d 0), (16384, .slotCellEffect 0), (192, .cjoinTimeout), (16, .attentionRetry), (16, .launchPlace),
        (64, .clusterReclaim), (64, .reclaimRetry), (64, .clusterReturn), (64, .rendezvousRelease), (16, .partitionReset), (4, fun d => .dieCacheWriteback d 0), (2, .porterEcall 0),
        (2, .porterException 0), (2, .porterFault 0), (2, .porterBlockComplete 0), (2, .porterWake 0), (1024, .regionLocksHeld), (1024, .regionLinesWritten), (1024, .regionEntriesDiscarded),
        (1024, .regionFreed), (96, .portTrain), (96, .portTrainingTimeout), (96, .laneLost), (96, .retryExhausted), (64, .windowInstalled), (16, .pcieFlr 0), (4, fun p => .pcieFlr p 0),
        (4, .pcieDpcContainment), (4, .pcieLinkTraining), (4, .pcieDpcRelease), (4, .thermalTrip)] : List (Nat × (Nat → Instr))),
      (p.2 (p.1 - 1)).wf = true ∧ (p.2 p.1).wf = false := by decide +kernel

end Sys2Proof.Tests
end

