-- ==== Sys2Proof/Tests/WitnessCore.lean ====
section
/-! SUPPORT. Witnesses: for each statement a concrete state and operands that meet its hypotheses, clause by clause, at the ends of
the ranges where a clause has one: decoding, the scalar and vector units, accesses, counters and barriers. -/
namespace Sys2Proof.Tests
set_option Elab.async false
open Sys2Proof.Machine

/-! ### Words, steps, moves and bundles -/

theorem witness_DecodeOfEncode :
    (Instr.bundleIssue { hdr := 0, w0 := 1, w1 := 2, w2 := 0, w3 := 0, w4 := 0, w5 := 0, w6 := 0, w7 := 0 }).wf = true ∧
    (encode (.add 7 true 0x3FF)).isSome = true ∧ (Instr.add 7 true 0x3FF).wf = true ∧
    (encode (.moveRegister 0 false 0 1)).isSome = true ∧ (Instr.moveRegister 0 false 0 1).wf = true ∧
    (encode (.cjoin 31 31 31)).isSome = true ∧ (Instr.cjoin 31 31 31).wf = true := by decide +kernel

/-- The desk with a bundle of one ADD at address 0, and the agent that is about to take it. -/
def atWork (lan : Bool) : State := { desk with
  mem := ({} : Mem).wrN 0 (toBytesLE 32 (Bundle.one 0 0x200).toNat), agenda := [if lan then .lantern 0 else .core 0] }

theorem witness_StepRunsTheDecodedInstruction :
    (let s := atWork false
     let t := ({ s with agenda := [], actor := .core 0 } : State).modCtx 0 false (fun x => { x with cons := s.cyc + 1 })
     t.stopsHere 0 = false ∧ t.mayRun 0 = true ∧ (t.usr 0).ctx.idle = 0 ∧ (t.usr 0).task.map Task.killAt = some false ∧ (t.usr 0).after = [] ∧
      (t.usr 0).member.bind Member.noted = none ∧ t.draining 0 = false ∧ t.fetch 0 false = .bundle (Bundle.one 0 0x200)) ∧
    (let t : State := { atWork true with agenda := [], actor := .lantern 0, cores := [] }
     t.lanternMay 0 = true ∧ (t.core 0).lan.idle = none ∧ (t.core 0).lan.ctx.idle = 0) ∧
    -- CJOIN at either turn, CSAVE at the engine's and before it, ADDI x1, x2, 5 and its compressed form C.ADDI x1, 1, VADD.VV v3, v1, v2
    (let at' (w : Nat) (here : Bool) : State := { (State.reset.placeHart (BitVec.ofNat 32 w)) with agenda := [if here then .engine 0 else .hart 0], engine := if here then [0] else [] }
     let free (s : State) : Bool := decide ((s.hart 0).wait = .none ∧ (s.hart 0).irq = none)
     let got (s : State) : HFetch := ({ s with agenda := [], actor := .hart 0, engine := [] } : State).hartFetch 0
     let join : Nat := 0b0000001_00011_00010_000_00001_0001011
     let save : Nat := 0b0000011_00000_00010_001_00001_0001011
     let addi : Nat := 0b000000000101_00010_000_00001_0010011
     let caddi : Nat := 0b000_0_00001_00001_01
     let vadd : Nat := 0b000000_1_00001_00010_000_00011_1010111
     (∀ here, free (at' join here) = true ∧ got (at' join here) = .word join 4 ∧ free (at' addi here) = true ∧ got (at' addi here) = .word addi 4 ∧
       got (at' caddi here) = .word caddi 2 ∧ free (at' vadd here) = true ∧ got (at' vadd here) = .word vadd 4) ∧
     hartInstr join 4 = some (.cjoin 3 2 1) ∧ enginePlace (.cjoin 3 2 1) = none ∧
     free (at' save false) = true ∧ got (at' save false) = .word save 4 ∧ hartInstr save 4 = some (.csave 1 2) ∧ enginePlace (.csave 1 2) ≠ none ∧
     hartInstr addi 4 = none ∧ Rv64.decode addi = some (.opImm false 0 false 1 2 5) ∧
     hartInstr caddi 2 = none ∧ Rv64.decodeC caddi = some (.opImm false 0 false 1 1 1) ∧
     hartInstr vadd 4 = none ∧ Rv64.decode vadd = none ∧ vectorWord vadd = true) ∧
    (let w : BitVec 32 := 0b000000000101_00010_000_00001_0010011
     let s := State.reset.placePorter w
     let t := ({ s with agenda := [], actor := .porter 0 0 } : State).modPorter 0 0 (fun p => { p with cons := s.cyc + 1 })
     s.agenda = [.porter 0 0] ∧ t.porterFetch 0 0 = .inl w ∧ decodePorter w = some (.porterRv32imInstruction w)) := by decide +kernel

theorem witness_BundleIsItsMove : decodeMove 0x200 = some (.add 0 false 0) ∧ homeSlot 0x200 = 0 ∧
    decodeMove 0x2B0 = some (.mma 0 false 0) ∧ homeSlot 0x2B0 = 5 := by decide +kernel

theorem witness_MoveResults :
    (∀ lan, Alone (deskOf lan) 0 lan 0 1) ∧ (∀ lan, Alone (deskOf lan) 0 lan 0 0x40) ∧
    (∀ r ∈ ([0, 63, 0x40, 0x5F, 0x60, 0x6F, 0x71, 0x77, 0x78, 0x7F, 0x8F, 0x90, 0x92] : List (BitVec 8)),
      wfMove 0 false 1 r = true ∧ regWritable r.toNat = true ∧ (srcOf 1).vector = false) ∧
    (desk.ctx 0 false).pipe = [] ∧
    operandPort 0 1 = true ∧ operandPort 7 3 = true ∧ operandPort 5 6 = true ∧ (srcOf 0x40).vector = true ∧ isVReg 0x5F = true ∧ (Dst.port 3 1).takesVector 0 = true ∧
    (let s := desk.modUsr 0 (fun u => { u with claim := 1 })
     Alone s 0 false 0 0x40 ∧ (s.usr 0).claim.getLsbD (s.cyc % 32) = true) ∧
    (let s := args desk false 0 (spadTop - 64) 0 0 0
     Alone s 0 false 0 1 ∧ (s.given 0 false 1).word.toNat + 64 ≤ spadTop ∧ (s.given 0 false 1).word.toNat % 16 = 0) := by
  simp only [alone_iff]; decide +kernel

theorem witness_GuardFalseDoesNothing :
    decodeMove 0x200200 = some (.add 1 false 0) ∧ desk.actor = side 0 false ∧ (desk.usr 0).inSeg = false ∧ (desk.core 0).debugStep = false ∧
    desk.atBoundary 0 (desk.ctx 0 false).pc = none ∧ srcOf (fld 0x200200 10 10) ≠ .long ∧
    Mv.static { k := homeSlot 0x200200, w := 0x200200 } false = none ∧ (desk.ctx 0 false).pred (fld 0x200200 21 3) = false := by decide +kernel

/-- s1 to s2 and s2 to s1 in slots 0 and 1. -/
def swapBundle : Bundle := { Bundle.one 0 0 with w0 := 0x402, w1 := 0x801 }

theorem witness_BundleReadsBeforeItWrites : swapBundle.hdr = 0 ∧ desk.actor = side 0 false ∧ (desk.usr 0).inSeg = false ∧ (desk.core 0).debugStep = false ∧
    desk.atBoundary 0 (desk.ctx 0 false).pc = none ∧
    (∀ k, k < 8 → swapBundle.word k ≠ 0 → fld (swapBundle.word k).toNat 21 3 = 0 ∧ fld (swapBundle.word k).toNat 10 10 < 64 ∧
      fld (swapBundle.word k).toNat 0 10 < 64 ∧ ((desk.ctx 0 false).sreg (fld (swapBundle.word k).toNat 10 10)).full = true) ∧
    swapBundle.word 1 ≠ 0 ∧ (∀ j, j < 8 → 1 < j → swapBundle.word j ≠ 0 → fld (swapBundle.word j).toNat 0 10 ≠ fld (swapBundle.word 1).toNat 0 10) := by
  decide +kernel

/-! ### Scalar and vector operations -/

theorem witness_ScalarIntegerResults : ∀ lan, Alone (args (deskOf lan) lan 0 (2 ^ 64 - 1) (2 ^ 63) 0 0) 0 lan 0 1 ∧ (srcOf 1).vector = false := by
  simp only [alone_iff]; decide +kernel

theorem witness_ScalarPredicateResults : ∀ lan, Alone (args (deskOf lan) lan 0 5 5 0 0) 0 lan 0 1 ∧ (srcOf 1).vector = false := by
  simp only [alone_iff]; decide +kernel

theorem witness_ScalarFloatResults : ∀ lan, Alone (args (deskOf lan) lan 0 0x3FF0000000000000 0 0 0) 0 lan 0 1 ∧ (srcOf 1).vector = false := by
  simp only [alone_iff]; decide +kernel

theorem witness_ScalarSpecialResults :
    (∀ n ∈ [0x80, 0x8F, 0x90, 0x92], let s := args desk false 0 n 1 0 0
      Alone s 0 false 0 1 ∧ (s.given 0 false 1).word.toNat % 256 = n) ∧ (srcOf 1).vector = false ∧
    (let s := args desk false 0 2 1 0 0
     (s.given 0 false 1).word ≠ ((s.ctx 0 false).unit 0).b.word ∧ (s.given 0 false 1).word.getLsbD 0 ≠ ((s.ctx 0 false).unit 0).b.word.getLsbD 0) := by
  simp only [alone_iff]; decide +kernel

theorem witness_ScalarFrame :
    (∀ n ∈ [0x80, 0x8F, 0x90, 0x92], let s := args desk false 0 n 1 0 0
      Alone s 0 false 0 1 ∧ (s.given 0 false 1).word.toNat % 256 = n) ∧
    (srcOf 1).vector = false ∧ Op.rdspec.homeSlot = 0 ∧ Op.wrspec.homeSlot = 0 ∧ Op.add.homeSlot = 0 := by
  simp only [alone_iff]; decide +kernel

theorem witness_VectorOperationsDeliver :
    Alone desk 0 false 0 0x40 ∧ 0x80 ≤ Op.vadd.code ∧ Op.vadd.code < 0xB0 ∧
    vIllegal .vadd ((desk.ctx 0 false).unit 3).c ((desk.ctx 0 false).unit 3).m = false ∧
    (let s := args desk false 3 0 0 8 0
     Alone s 0 false 0 0x40 ∧ vIllegal .vceq ((s.ctx 0 false).unit 3).c ((s.ctx 0 false).unit 3).m = false ∧
      vIllegal .vchk ((s.ctx 0 false).unit 3).c ((s.ctx 0 false).unit 3).m = false) := by
  simp only [alone_iff]; decide +kernel
theorem witness_VectorElementResults :
    (let i (c : Word) : VIn := { a := 0, b := 0, x := 0, c := ⟨c⟩, m := some 1, rm := .rne }
     (i 0).c.ty = some .i32 ∧ VTy.i32.isInt = true ∧ 63 < VTy.i32.count ∧ (i 9).c.ty = some .n8 ∧ VTy.n8.isInt = true ∧ 255 < VTy.n8.count ∧
      (i 2).c.ty = some .f32 ∧ VTy.f32.cls = .F ∧ 63 < VTy.f32.count ∧ (i 3).c.ty = some .f64 ∧ VTy.f64.cls = .F ∧ 31 < VTy.f64.count) ∧
    (fadd fp32 .rne 0 0).1 < 2 ^ 32 := by decide +kernel

theorem witness_VectorLanesAndMasks :
    let i (c : Word) : VIn := { a := 0, b := 0, x := 0, c := ⟨c⟩, m := some 1, rm := .rne }
    (i 0).c.ty = some .i32 ∧ 63 < VTy.i32.count ∧ VTy.i32.isInt = true ∧ VTy.i32.width ≤ 32 ∧ VTy.i32.cls = .I ∧
      (i 8).c.ty = some .i8 ∧ 255 < VTy.i8.count ∧ VTy.i8.isInt = true ∧ VTy.i8.width ≤ 32 ∧ (i (2 ^ 16)).c.k % 2 ≠ 0 ∧ (i 0).c.k % 2 = 0 := by
  decide +kernel

/-! ### Accesses, counters and barriers -/

theorem witness_AccessesIssue :
    (∀ o ∈ [Op.ldB, .ldD, .stB, .stD, .vld, .vst, .amo, .cas, .qaddl, .barw], let s := args desk false 2 0x100 0 1 1
      let o' : Op := o
      Alone s 0 false 0 1 ∧ 0x60 ≤ o'.code ∧ o'.code < 0x7C ∧ (o' ≠ .vld → Fit s 0 false o' 1) ∧ s.emulated (s.trigger 0 false o' 1) = false) ∧
    (let s := args desk false 2 0x100 0 1 0x40
     Fit s 0 false .vld 1) ∧
    (let s := args desk false 2 0x100 0 1 1
     fld ((s.ctx 0 false).sreg 1).v.toNat 40 23 = 0) ∧
    (let s := args desk false 2 0x100 1 1 1
     Fit s 0 false .barinit 1 ∧ Fit s 0 false .barv 1 ∧ Fit s 0 false .barw 1 ∧ barinitBad 1 = false) := by
  simp only [alone_iff, fit_iff]; decide +kernel

/-- The desk with the first 2 MiB a K page that partition 0 may reach in every cell. -/
def counters (lan : Bool) : State :=
  { deskOf lan with
    cores := [(0, { usr := { task := some { launch := 0, tx := 0, ty := 0, team := 0, st := .running }, spad := {} }, tlb := [{ firstPage with attr := .K }] })]
    launches := [(0, { lonely with block := 0x1000, opts := 1 })] }

theorem witness_RefusedSyncOperandsDeliverError :
    (let s := args ((counters false).modCtx 0 false (fun x => { x with s := rset x.s 2 { v := BitVec.ofNat 64 (2 ^ 40) } })) false 2 0x100 0 0 2
     Alone s 0 false 0 1 ∧ Fit s 0 false .ctrwait 1 ∧ fld ((s.ctx 0 false).sreg 2).v.toNat 40 23 ≠ 0) ∧
    (let s := args desk false 2 0x100 0 1 2
     Alone s 0 false 0 1 ∧ Fit s 0 false .barinit 1 ∧ barinitBad 0 = true ∧ Fit s 0 false .barv 1) ∧
    (let s := args desk false 2 0x100 16 1 2
     Fit s 0 false .barv 1 ∧ Fit s 0 false .barw 1 ∧ 15 < 16) := by
  simp only [alone_iff, fit_iff]; decide +kernel

theorem witness_WaivedAccessTrapsFirmwareAssist :
    let s := args (desk.modUsr 0 (fun u => { u with waive := true })) false 2 0x101 0 1 2
    Alone s 0 false 0 1 ∧ Op.ldD.isLoad = true ∧ Op.stD.isStore = true ∧ Fit s 0 false .ldD 1 ∧ Fit s 0 false .stD 1 ∧
      s.emulated (s.trigger 0 false .ldD 1) = true ∧ s.emulated (s.trigger 0 false .stD 1) = true := by
  simp only [alone_iff, fit_iff]; decide +kernel

theorem witness_FenceAndTagResults :
    (let s := args desk false 2 0 0 0 2
     Alone s 0 false 0 1 ∧ Fit s 0 false .fence 1 ∧ Fit s 0 false .tlook 1 ∧ Fit s 0 false .tset 1 ∧ 0 / 2 ^ 17 = 0 ∧ Fit s 0 false .bnd 1) ∧
    (let s := args (desk.modSpad 0 (fun m => m.wrN 0 [1])) false 2 0 64 0 2
     Fit s 0 false .bnd 1 ∧ bindOf (s.spadNum (s.trigger 0 false .bnd 1) 0 8) (s.spadNum (s.trigger 0 false .bnd 1) 8 8) = none) ∧
    (let s := args desk false 2 0 (2 ^ 17) 0 2
     Fit s 0 false .tset 1) ∧
    (let s := args desk false 2 1 0 0 2
     Fit s 0 false .tset 1 ∧ 0 / 4 ≠ (1 % 1024) ^^^ (1 / 1024 % 1024)) ∧
    (let s := args (desk.modSpad 0 (fun m => m.wrN 0 (toBytesLE 16 (12 * 2 ^ 120)))) false 2 0 63 0 2
     Fit s 0 false .bnd 1 ∧ (bindOf (s.spadNum (s.trigger 0 false .bnd 1) 0 8) (s.spadNum (s.trigger 0 false .bnd 1) 8 8)).isSome = true ∧
      (s.contOf? 0).map (fun q => (q.binds.length, decide (s.conts.find? q.block = some q))) = some (64, true)) := by
  simp only [alone_iff, fit_iff]; decide +kernel

/-! ### Accesses are performed -/

/-- The desk with one access of core 0 under way. -/
def under (m : MemOp) : State := desk.modUsr 0 (fun u => { u with mops := [m] })

/-- An access of 8 bytes at an address of a place. -/
def access (o : Op) (p : Place) (pa : Nat) : MemOp :=
  { id := 7, op := o, place := p, pieces := [{ off := 0, pa := pa, len := 8 }], ctl := 0, b := .sc 5, reg := if o.isStore then none else some 9
    issue := 0, acc := some 0 }

theorem witness_StorePerformResults :
    (let m := access .stD (.spad 0) (spadTop - 8)
     let s := under m
     s.findOp 0 7 = some m ∧ m.op.isStore = true ∧ m.handle = none ∧ s.ready 0 m = true ∧ (∀ p ∈ m.pieces, p.off + p.len ≤ m.b.bytes.length) ∧
      s.rslots = [] ∧ s.awakeAt m.place = true ∧ m.byteAt (.spad 0) (spadTop - 1) = some 0) ∧
    -- a gather of two places: page attributes C and B
    (let m : MemOp := { access .vscat (.glob .C) 0x100 with
       pieces := [{ off := 0, pa := 0x100, len := 4, place := none }, { off := 4, pa := 0x80, len := 4, place := some (.glob .B) }]
       b := .vec (BitVec.ofNat 2048 (7 + 9 * 2 ^ 32)) }
     let s := { under m with cyc := 40 }
     s.findOp 0 7 = some m ∧ m.op.isStore = true ∧ m.handle = none ∧ s.ready 0 m = true ∧
      (∀ p ∈ m.pieces, p.off + p.len ≤ m.b.bytes.length ∧ s.awakeAt (m.placeOf p) = true)) ∧
    (let m := access .stD (.glob .B) 0x100
     let s := { under m with cyc := 5 }
     s.findOp 0 7 = some m ∧ s.ready 0 m = true ∧ dieOf 0 < s.dies.length ∧ m.byteAt (.glob .B) 0x100 = some 5 ∧ m.byteAt (.glob .B) 0x108 = none) := by decide +kernel

theorem witness_LoadPerformResults :
    ∀ o ∈ [Op.ldD], let m := access o (.glob .C) 0x100
     let s := { under m with cyc := 5 }
     s.findOp 0 7 = some m ∧ m.op.isLoad = true ∧ m.handle = none ∧ s.ready 0 m = true ∧ m.place ≠ .glob .B ∧ m.reg = some 9 ∧
      m.pieces = [{ off := 0, pa := 0x100, len := 8 }] ∧ (∀ x ∈ s.ownStores 0, x.op.isStore = false) ∧ s.awakeAt m.place = true ∧ s.rslots = [] := by
  decide +kernel

theorem witness_GatherAndForwardResults :
    let m : MemOp := { access .vgath (.glob .C) 0x100 with pieces := [{ off := 0, pa := 0x100, len := 4 }, { off := 252, pa := 0x200, len := 4 }], reg := some 0x40 }
    let s := { under m with cyc := 5 }
    s.findOp 0 7 = some m ∧ m.op.isLoad = true ∧ m.handle = none ∧ s.ready 0 m = true ∧ m.place ≠ .glob .B ∧
      (∀ p ∈ m.pieces, m.placeOf p ≠ .glob .B ∧ s.awakeAt (m.placeOf p) = true) ∧ isVReg 0x40 = true ∧ s.rslots = [] := by
  decide +kernel

theorem witness_AtomicPerformResults :
    (∀ o ∈ [Op.amo, .cas, .qincb, .qincw, .qdecp, .qaddl], let m := access o (.spad 0) 0x100
     let s := under m
     s.findOp 0 7 = some m ∧ m.op.isAtomic = true ∧ m.handle = none ∧ s.ready 0 m = true ∧ m.place ≠ .glob .B ∧ s.awakeAt m.place = true ∧ m.reg = some 9 ∧ s.rslots = []) ∧
    (let m := access .amo (.glob .C) 0x100
     let s := { under m with cyc := 5 }
     s.ready 0 m = true ∧ s.windowOf (s.blockOf 0) m.va.toNat = none) ∧
    -- window 3 of the desk's continuation, of job 7, an i64 window on 8 bytes at 0x100
    (let m := { access .amo (.glob .C) 0x100 with va := 0x100 }
     let w : RWin := { en := true, w0 := 0x100, w1 := BitVec.ofNat 64 (1 * 2 ^ 4 + 2 * 2 ^ 24 + 7 * 2 ^ 48) }
     let s := { under m with cyc := 5, fab := { jobs := [(7, { holder := 0x1000 })], wins := [(3, w)] } }
     s.findOp 0 7 = some m ∧ s.ready 0 m = true ∧ rwJob w = 7 ∧ s.windowOf (s.blockOf 0) m.va.toNat = some (3, w) ∧ s.fab.jobs.find? (rwJob w) = some { holder := 0x1000 }) := by
  decide +kernel

theorem witness_CounterPerformResults :
    ∀ o ∈ [Op.ctradd, .ctrrd, .ctrwait], let m := access o (.glob .K) 0x100
     let s := { under m with cyc := 5 }
     s.findOp 0 7 = some m ∧ m.handle = none ∧ s.ready 0 m = true ∧ m.reg = some 9 ∧ s.rslots = [] ∧ ctlOrd m.ctl = 0 ∧
      s.mem.num 0x100 8 < m.b.word.toNat ∧ ({ s with mem := s.mem.wrN 0x100 (toBytesLE 8 5) } : State).mem.num 0x100 8 = m.b.word.toNat ∧
      homeDie 0x100 < s.dies.length ∧ (s.die (homeDie 0x100)).park.length < 1024 := by decide +kernel

theorem witness_BarrierBankResults :
    (∀ o ∈ [Op.barinit, .barv, .barw], let m := access o (.spad 0) 0x100
     let s := under m
     s.bankNext 0 = some (0, m) ∧ s.awakeAt (.spad 0) = true ∧ m.handle = none ∧ m.arv = false ∧ m.reg = some 9 ∧ barInvalid ((s.spad 0).num 0x108 8) = true) ∧
    (∀ o ∈ [Op.barv, .barw], let m := access o (.spad 0) 0x100
     let s := (under m).modSpad 0 (fun x => x.wrN 0x108 [5])
     let w1 := (s.spad 0).num 0x108 8
     s.bankNext 0 = some (0, m) ∧ barInvalid w1 = false ∧ 5 ≤ w1 % 2 ^ 16 - (s.spad 0).num 0x100 8 % (w1 % 2 ^ 16) ∧ (0 / 5 % 16 + 16 - 5 % 16) % 16 = 11 ∧
      (s.core 0).park.length < 64) ∧
    (let m := access .barv (.spad 0) 0x100
     let s := (under m).modSpad 0 (fun x => x.wrN 0x108 [4])
     s.bankNext 0 = some (0, m) ∧ barInvalid ((s.spad 0).num 0x108 8) = false ∧ 4 - 0 % 4 < 5) ∧
    (let m := { access .barw (.spad 0) 0x100 with b := .sc 8 }
     let s := (under m).modSpad 0 (fun x => x.wrN 0x108 [4])
     s.bankNext 0 = some (0, m) ∧ barInvalid ((s.spad 0).num 0x108 8) = false ∧ (0 / 4 % 16 + 16 - 8 % 16) % 16 = 8) := by decide +kernel

theorem witness_WaitLimitAndFenceResults :
    (let p : Park := { core := 0, id := 7, reg := 9, place := .glob .K, pa := 0x100, va := 0x100, kind := .ctr 5, limit := some 3, tbit := true }
     let s := { desk.modDie 0 (fun d => { d with park := [p] }) with cyc := 3 }
     (s.dies.flatMap Die.park ++ s.cores.flatMap (fun ((_, w) : Nat × WCore) => w.park)).find? (fun (q : Park) => decide (q.core = 0 ∧ q.id = 7)) = some p ∧
      p.limit = some 3 ∧ 3 ≤ s.cyc) ∧
    (let m : MemOp := { access .fence (.glob .C) 0 with pieces := [] }
     let s := under m
     s.findOp 0 7 = some m ∧ m.handle = none ∧ m.atBank = none ∧ m.reg = some 9 ∧
      (∀ x ∈ (s.usr 0).mops ++ (s.core 0).lan.mops, x.id < m.id → x.op ≠ .fence → x.inClass (fencePred m) = false) ∧
      s.arrayWrites 0 m.id = false ∧ s.fabricPending 0 m.id (fencePred m) = false) ∧
    -- a FENCE of core scope behind a global store of the lantern context
    (let m : MemOp := { access .fence (.glob .C) 0 with pieces := [], va := 0x20 }
     let x : MemOp := { access .stD (.glob .C) 0x100 with id := 5, acc := none, lan := true }
     let s := (under m).modLan 0 (fun l => { l with mops := [x] })
     s.findOp 0 7 = some m ∧ fenceScope m = 0 ∧ x.inClass (fencePred m) = true ∧ x.op.isStore = true ∧ x.handle = none ∧ x.local' = false ∧
      s.arrayWrites 0 m.id = false) := by decide +kernel

/-- An open region in slot 0 with one member. -/
def oneRegion : RSlot := { handle := 0, gen := 0, members := [{ pkg := 0, launch := 0, tile := 0 }] }

theorem witness_RegionAccessResults :
    (let m := { access .stD (.glob .C) 0x100 with handle := some 0 }
     let s := { under m with cyc := 5, rslots := [(0, oneRegion)] }
     s.findOp 0 7 = some m ∧ s.ready 0 m = true ∧ (∀ p ∈ s.rslots, p.2.locked = false) ∧ (s.regionLines (s.slotKey 0) true [2]).1 = true ∧
      (∀ p ∈ m.pieces, p.off + p.len ≤ m.b.bytes.length) ∧ (m.pieces.flatMap (fun p => linesOf p.pa p.len)) = [2] ∧
      (({ s with rslots := [] } : State).regionLines (s.slotKey 0) true [2]).1 = false) ∧
    (let m := { access .ldD (.glob .C) 0x100 with handle := some 0 }
     let s := { under m with cyc := 5, rslots := [(0, oneRegion)] }
     s.findOp 0 7 = some m ∧ s.ready 0 m = true ∧ m.reg = some 9 ∧ (s.regionLines (s.slotKey 0) false [2]).1 = true ∧
      (({ s with rslots := [] } : State).regionLines (s.slotKey 0) false [2]).1 = false) := by decide +kernel

/-! ### Translation and ownership -/

theorem witness_TranslationAndOwnershipEvents :
    (let m := { access .ldD (.glob .C) 0x100 with reqs := [0], acc := none }
     let s := (under m).modDie 0 (fun d => { d with cells := [(0, 0)] })
     ((s.askers 0).find? (fun (a : Asker) => decide (a.id = 7))).map (fun a => s.winsCell a && decide (a.die < s.dies.length)) = some true) ∧
    (let s := desk.modCore 0 (fun w => { w with walk := some (0x100, false) })
     (s.core 0).walk = some (0x100, false) ∧ findTlb (s.die (dieOf 0)).tlb (atpAsid (s.atpOf 0)) 0x100 false = none ∧
      s.walk (some (dieOf 0)) (s.atpOf 0) 0x100 false false = .fault cPAGE_PROTECTION ∧
      findTlb ((s.modDie 0 (fun d => { d with tlb := [firstPage] })).die (dieOf 0)).tlb (atpAsid (s.atpOf 0)) 0x100 false = some firstPage) ∧
    (paged.walk (some (dieOf 0)) (paged.atpOf 0) 0x100 false true = .ok { firstPage with glob := false } ∧ dieOf 0 < paged.dies.length) ∧
    ((desk.modCore 0 (fun w => { w with wake := some (191, 3) })).core 0).wake = some (191, 3) ∧
    (({ desk with shoot := { go := true } } : State).shoot.go = true ∧ (0x40000 : Word).toNat / 2 ^ 20 % 2 ^ 43 = 0 ∧ (0x40000 : Word).getLsbD 63 = false) ∧
    (desk.shoot.go = false ∧ (0x8000000000000000 : Word).toNat / 2 ^ 20 % 2 ^ 43 = 0 ∧ (0x8000000000000000 : Word).getLsbD 63 = true ∧
      (0x8000000000000000 : Word).toNat / 2 ^ 18 % 4 ≠ 3) ∧
    (∀ d, d < 4 → desk.dieSettled d 1 = true) ∧
    (∀ here, ((desk.modDie 3 (fun d => { d with blines := [(2, { data := 5, dirty := 1, here := here })] })).die 3).blines.find? 2 =
      some { data := 5, dirty := 1, here := here }) ∧
    (let s := { desk with regions := [(1, { wantA := true })] }
     (s.regions.getD 1 {}).st = .proc ∧ (s.regions.getD 1 {}).since = none ∧ (s.regions.getD 1 {}).wantA = true) ∧
    (let s := { desk with regions := [(1, { st := .accel, wantP := true, since := some 0 })], cyc := 2400 }
     (s.regions.getD 1 {}).st = .accel ∧ (s.regions.getD 1 {}).wantP = true) ∧
    (({ desk with regions := [(1, { st := .toAccel })] } : State).regions.getD 1 {}).st = .toAccel ∧
    (({ desk with regions := [(1, { st := .toProc })] } : State).regions.getD 1 {}).st = .toProc ∧ desk.hostq = [] ∧
    (let s := { (desk.modCore 0 (fun w => { w with waitFrom := some (0, 0x100) })) with regions := [], cyc := ownLimit + 1 }
     (s.core 0).waitFrom = some (0, 0x100) ∧ 0 + ownLimit < s.cyc ∧ (s.core 0).walkFault = none ∧ s.coreTlb 0 0x100 false = some firstPage ∧ s.owned (firstPage.phys 0x100) = false) := by
  decide +kernel

end Sys2Proof.Tests
end

