-- ==== Sys2Proof/Tests/WitnessUnits.lean ====
section
/-! SUPPORT. Witnesses: for each statement a concrete state and operands that meet its hypotheses, clause by clause, at the ends of
the ranges where a clause has one: copies, porters, the fabric, the array, the matrix unit, control, records and regions. -/
namespace Sys2Proof.Tests
set_option Elab.async false
open Sys2Proof.Machine

/-! ### The copy unit and the porters -/

/-- A transfer of channel 0 with a program of zeros. -/
def oneXfer : Xfer := { id := 1, ch := 0, prog := List.replicate 16 0, reg := 9, op := 5, pc := 0 }

/-- The desk with transfers. -/
def copying (xs : List Xfer) : State := desk.modUsr 0 (fun u => { u with xfers := xs })

theorem witness_CopyTriggerResults :
    (let s := args desk false 6 3 0x3F 0 9
     Alone s 0 false 0 1 ∧ Fit s 0 false .cpset 1 ∧ (s.usr 0).chans[0x3F / 16]? = some ({} : Chan) ∧ 0x3F % 16 < ({} : Chan).prog.length ∧
      Fit s 0 false .cpgo 1 ∧ (s.usr 0).chans[3]? = some ({} : Chan) ∧ Fit s 0 false .cpstat 1 ∧ (s.usr 0).xfers = []) ∧
    (∀ n ∈ [0, 4, 8, 12, 15], let s := args (copying [oneXfer]) false 6 n 0 0 9
     Alone s 0 false 0 1 ∧ Fit s 0 false .cpstat 1) ∧
    (∀ n ∈ [0, 4], let s := args (copying [oneXfer]) false 6 n 0 0 9
     Alone s 0 false 0 1 ∧ Fit s 0 false .cpabrt 1 ∧ oneXfer.ran = false) ∧
    (let x := { oneXfer with st := .inFlight, pos := 1 }
     let s := args (copying [x]) false 6 0 0 0 9
     Alone s 0 false 0 1 ∧ Fit s 0 false .cpabrt 1 ∧ x.ran = true ∧ x.zeroing = false ∧ cpCrypt x.prog = 0) ∧
    (let s := args desk false 6 0 4 0 9
     Alone s 0 false 0 1 ∧ Fit s 0 false .cpkey 1 ∧ (s.usr 0).chans[4 % 4]? = some ({} : Chan)) ∧
    (let s := args { desk with mod := { desk.mod with keys := [{ handle := 0, bits := 7 }] } } false 6 0 3 0 9
     Alone s 0 false 0 1 ∧ Fit s 0 false .cpkey 1 ∧ 3 / 4 % 2 = 0) ∧
    (let s := args (copying [oneXfer]) false 6 0x21 0 0 9
     Alone s 0 false 0 1 ∧ Fit s 0 false .cpfence 1 ∧ (s.usr 0).xfers.filter (fun x => (0x21 % 16).testBit x.ch) ≠ []) ∧
    (let s := args desk false 6 0xFF 0 0 9
     Alone s 0 false 0 1 ∧ Fit s 0 false .cpfence 1 ∧ (s.usr 0).xfers.filter (fun x => (0xFF % 16).testBit x.ch) = []) ∧
    (let s := args desk false 6 0xFFFFFFFF 0 0 9
     Alone s 0 false 0 1 ∧ Fit s 0 false .bussel 1) := by
  simp only [alone_iff, fit_iff]; decide +kernel

theorem witness_TransferEventResults :
    (let s := copying [oneXfer]
     (s.usr 0).xfers.find? (fun y => decide (y.ch = 0 ∧ y.id = 1)) = some oneXfer ∧ oneXfer.st = .issued ∧ oneXfer.held = false ∧
      ((s.usr 0).xfers.filter (fun y => decide (y.ch = 0) && (y.st == .inFlight || y.st == .faulted))).length < 4 ∧ oneXfer.preds = [] ∧
      (∀ y ∈ (s.usr 0).xfers, y.ch = 0 → y.op < oneXfer.op → y.st ≠ .issued) ∧ s.undone 0 oneXfer.point 3 4 = false) ∧
    (let x := { oneXfer with st := .inFlight, pos := 1, zeroing := true }
     let s := copying [x]
     (s.usr 0).xfers.find? (fun y => decide (y.ch = 0 ∧ y.id = 1)) = some x ∧ cpTotal x.prog ≤ x.pos) ∧
    (∀ k ∈ [0, 1, 2], let x := { oneXfer with st := .inFlight, pos := 1, prog := [0, 0, BitVec.ofNat 64 (k * 2 ^ 28)] ++ List.replicate 13 0, key := some 0 }
     let s := { copying [x] with mod := { desk.mod with keys := [{ handle := 0, bits := 7 }] } }
     (s.usr 0).xfers.find? (fun y => decide (y.ch = 0 ∧ y.id = 1)) = some x ∧ cpTotal x.prog ≤ x.pos ∧ x.zeroing = false ∧ s.awakeAt (.spad 0) = true ∧ cpCrypt x.prog = k) ∧
    (let x := { oneXfer with st := .inFlight, pos := 1, prog := [0, 0, BitVec.ofNat 64 (2 * 2 ^ 28)] ++ List.replicate 13 0, key := some 0 }
     let s := { copying [x] with mod := { desk.mod with keys := [{ handle := 0, bits := 7 }] } }
     let tag := (gcmTag (roundKeys (s.keyBytes 0)) (progW x.prog 14) x.id (x.acc.map BitVec.toNat)).map (BitVec.ofNat 8)
     (s.spad 0).rdN (cpTag x.prog) 16 ≠ tag ∧ ((s.spad 0).wrN (cpTag x.prog) tag).rdN (cpTag x.prog) 16 = tag) ∧
    (∀ k ∈ [cPAGE_ABSENT, cCOPY_FAULT], let x := { oneXfer with st := .inFlight, cause := k }
     let s := copying [x]
     (s.usr 0).xfers.find? (fun y => decide (y.ch = 0 ∧ y.id = 1)) = some x ∧ (s.launchOf? 0).map Launch.block = some 0x1000 ∧ x.cause ≠ 0 ∧
      (s.conts.find? 0x1000).map (fun q => (q.st, q.parking)) = some (.running, false)) := by
  decide +kernel

/-- The paged desk with a porter of core 0 at side 0. -/
def porting (p : Porter) : State := { (paged.modDie 0 (fun d => { d with cells := [(0, 0)] })).modUsr 0 (fun u => { u with porters := [p, {}] }) with actor := .porter 0 0 }

theorem witness_PorterTriggerResults :
    (∀ st ∈ [PortSt.idle, .error, .running], let s := args { porting { st := st } with actor := .core 0 } false 6 0x1FFC 0 0 9
     Alone s 0 false 0 1 ∧ (s.usr 0).porters.length = 2 ∧ Fit s 0 false .pstart 1 ∧ (s.porter 0 0).st = st) ∧
    (∀ b ∈ [0, 3], let s := args desk false 6 0xFFFFFFFF b 0 9
     Alone s 0 false 0 1 ∧ (s.usr 0).porters.length = 2 ∧ Fit s 0 false .psig 1) ∧
    (let s := args desk false 6 1 0 0 9
     Alone s 0 false 0 1 ∧ Fit s 0 false .pstat 1) := by
  simp only [alone_iff, fit_iff]; decide +kernel

/-- A porter with x1 = `a` and x2 = `b`. -/
def porterWith (a b : Nat) : Porter := { x := (Vector.replicate 32 0).set 1 (BitVec.ofNat 32 a) |>.set 2 (BitVec.ofNat 32 b), st := .running }

/-- The paged desk, its first 2 MiB a K page, with a porter of core 0. -/
def kPorter (p : Porter) : State :=
  { (paged.modUsr 0 (fun u => { u with porters := [p, {}] })) with mem := paged.mem.wrN 0x13000 (toBytesLE 8 0x2D7), actor := .porter 0 0 }

theorem witness_PorterProgramResults :
    (let s := porting (porterWith 0x100 (spadTop - 16))
     let p := s.porter 0 0
     let q := p.rd 2
     s.actor = .porter 0 0 ∧ 0 < (s.usr 0).porters.length ∧ (p.rd 1).toNat % 16 = 0 ∧ (q.toNat % 2 ^ 20) % 16 = 0 ∧
      q.toNat % 2 ^ 20 + 16 * (q.toNat / 2 ^ 20 + 1) ≤ spadTop ∧ p.blocks.length < 16) ∧
    (let p := { porterWith 0x100 0 with blocks := List.replicate 16 { ga := 0, lo := 0, len := 16, out := false } }
     16 ≤ ((porting p).porter 0 0).blocks.length ∧ (p.rd 1).toNat % 16 = 0 ∧ (p.rd 2).toNat % 2 ^ 20 % 16 = 0) ∧
    (let p := (porting (porterWith 1 0)).porter 0 0
     (p.rd 1).toNat % 16 ≠ 0) ∧
    (let p := (porting (porterWith 0 (spadTop - 16 + 2 ^ 20))).porter 0 0
     (p.rd 2).toNat % 2 ^ 20 % 16 = 0 ∧ spadTop < (p.rd 2).toNat % 2 ^ 20 + 16 * ((p.rd 2).toNat / 2 ^ 20 + 1)) ∧
    (∀ q ∈ [0, 2 ^ 20], let s := (porting (porterWith 0x100 q)).modSpad 0 (fun m => m.wrN 0x100 (toBytesLE 4 4096))
     let p := s.porter 0 0
     let list (i : Nat) : Nat := (s.spad 0).num ((p.rd 1).toNat + 4 * i) 4
     s.awakeAt (.spad 0) = true ∧ (p.rd 1).toNat % 4 = 0 ∧ (p.rd 1).toNat + 4 * ((p.rd 2).toNat / 2 ^ 20 + 2) ≤ spadTop ∧ list 0 = 4096 ∧ list (p.sent + 1) % 16 = 0 ∧
      ((p.rd 2).toNat % 2 ^ 20 + p.sent * list 0) % 16 = 0 ∧ (p.rd 2).toNat % 2 ^ 20 + p.sent * list 0 + list 0 ≤ spadTop ∧ p.blocks.length < 16) ∧
    (let s := porting { porterWith 0x100 0 with one := some { id := 1, reqs := [], ready := 0 } }
     s.porterXlate 0 0x100 4 false = .ok [({ off := 0, pa := 0x100, len := 4 }, .C)] ∧ ((s.porter 0 0).rd 1).toNat % 4 = 0) ∧
    (∀ b ∈ [0, 1], let s := kPorter { porterWith 0x100 b with one := some { id := 1, reqs := [], ready := 0 } }
     ((s.porter 0 0).rd 1).toNat % 8 = 0 ∧ s.owned 0x100 = true ∧ s.rslots = [] ∧ (s.porter 0 0).blocks = [] ∧
      s.porterCtr 0 0x100 true = .inl 0x100 ∧ s.porterCtr 0 0x100 false = .inl 0x100 ∧ s.dies = List.replicate 4 {} ∧
      (s.mem.num 0x100 8 < ((s.porter 0 0).rd 2).toNat ↔ b = 1)) ∧
    (let p := (porting { porterWith 9 0 with sigs := [(9, 4)] }).porter 0 0
     p.sigs.find? (fun z => decide (z.1 = (p.rd 1).toNat % 256)) = some (9, 4) ∧ p.blocks = []) ∧
    (∀ z ∈ ((porting (porterWith 9 0)).porter 0 0).sigs, z.1 ≠ 9) ∧
    (let s := porting { porterWith 0 0 with mbox := some 5, sigPt := 8 }
     let t := s.modUsr 0 (fun u => { u with mops := [access .stD (.spad 0) 0] })
     (s.porter 0 0).mbox = some 5 ∧ s.spadBehind 0 (s.porter 0 0).sigPt = false ∧ t.spadBehind 0 (t.porter 0 0).sigPt = true) ∧ ((porting (porterWith 0 0)).porter 0 0).mbox = none ∧
    (let d (w : BitVec 32) := Rv32.decode w
     d 0x002081B3 = some (.op 0 false 3 1 2) ∧ d 0xFFF08193 = some (.opImm 0 false 3 1 0xFFFFFFFF) ∧ d 0x000010B7 = some (.lui 1 0x1000) ∧
      d 0x008000EF = some (.jal 1 8) ∧ d 0x0000A103 = some (.load 2 2 1 0) ∧ d 0x0020A023 = some (.store 2 1 2 0) ∧
      d 0x00000073 = some .ecall ∧ d 0x00100073 = some .ebreak ∧ d 0 = none) ∧
    (let p := (porting (porterWith (spadTop - 4) 0)).porter 0 0
     (p.rd 1 + 0).toNat % 4 = 0 ∧ (p.rd 1 + 0).toNat + 4 ≤ spadTop ∧ (BitVec.ofNat 32 p.pc + 8).toNat % 4 = 0) ∧
    (let p := (porting (porterWith spadTop 0)).porter 0 0
     spadTop < (p.rd 1 + 0).toNat + 4) := by
  refine ⟨?_, ?_, ?_, ?_, ?_, ?_, ?_, ?_, ?_, ?_⟩ <;> decide +kernel

theorem witness_PorterEventResults :
    (let s := porting { porterWith 0 0 with token := some (9, 4) }
     0 < (s.usr 0).porters.length ∧ (s.porter 0 0).st = .running ∧ (s.porter 0 0).token = some (9, 4)) ∧
    ((porting { porterWith 0 0 with trap := some 2 }).porter 0 0).trap = some 2 ∧
    (let s := porting { porterWith 0 0 with fault := some (cPAGE_ABSENT, 0x100, false) }
     (s.porter 0 0).fault = some (cPAGE_ABSENT, 0x100, false) ∧ (s.porter 0 0).st ≠ .faulted ∧ (s.launchOf? 0).map Launch.block = some 0x1000 ∧
      (s.conts.find? 0x1000).map (fun q => (q.st, q.parking)) = some (.running, false)) ∧
    (∀ out, let b : PBlock := { ga := 0x100, lo := spadTop - 16, len := 16, out := out, cells := some { id := 1, reqs := [], ready := 0 } }
     let s := porting { porterWith 0 0 with blocks := [b] }
     let ps : List (Piece × Attr) := [({ off := 0, pa := 0x100, len := 16 }, .C)]
     s.awakeAt (.spad 0) = true ∧ (s.porter 0 0).blocks = [b] ∧ s.porterXlate 0 b.ga b.len b.out = .ok ps ∧ s.badPieces ps = false ∧ (s.rdPieces 0 ps).length = b.len) ∧
    (let s := porting { porterWith 0 0 with st := .waiting, store := [(0, 0x1000308B)] }
     (s.porter 0 0).st = .waiting ∧ s.porterCanGo 0 0 = true) := by decide +kernel

/-! ### The fabric and PCI Express -/

/-- The desk with job 3, which the continuation of core 0's task holds and its launch names. -/
def joined : State := { desk with
  launches := [(0, { lonely with block := 0x1000, job := some 3 })], fab := { jobs := [(3, { holder := 0x1000 })] } }

theorem witness_FabricTriggerResults :
    (let s := args joined false 6 0 0 8 9
     Alone s 0 false 0 1 ∧ Fit s 0 false .msg 1 ∧ Fit s 0 false .rwr 1 ∧ Fit s 0 false .ramo 1) ∧
    (let s := args { joined with fab := { joined.fab with wins := [(0, { w0 := 0, w1 := BitVec.ofNat 64 (3 * 2 ^ 48 + 2 ^ 24 + 16), en := true })] } } false 6 0 0 0 9
     Alone s 0 false 0 1 ∧ Fit s 0 false .rred 1) ∧
    (let s := args joined false 6 3 0 0 9
     Alone s 0 false 0 1 ∧ Fit s 0 false .wquiet 1 ∧ s.fab.jobs.find? 3 = some { holder := 0x1000 } ∧ (s.contOf? 0).map Cont.block = some 0x1000 ∧ ((s.ctx 0 false).sreg 9).v = 0) ∧
    (∀ n ∈ [3, 3 + 6 * 2 ^ 16, 3 + 7 * 2 ^ 16], let s := args joined false 6 n 0 0 9
     Alone s 0 false 0 1 ∧ Fit s 0 false .jobr 1 ∧ Fit s 0 false .wquiet 1) ∧
    (let s := args joined false 6 4 0 0 9
     Fit s 0 false .wquiet 1 ∧ Fit s 0 false .jobr 1 ∧ s.fab.jobs.find? 4 = none) := by
  simp only [alone_iff, fit_iff]; decide +kernel

theorem witness_PortEventResults :
    (desk.port' 95).st = .down ∧
    (∀ st ∈ [PortSt'.training, .up, .degraded], let s := { desk with fab := { ports := [(95, { st := st })] }, cyc := 12000000 }
     (s.port' 95).st = st ∧ (s.port' 95).began + 12000000 ≤ s.cyc) ∧
    (let words : List Word := [BitVec.ofNat 64 (1 + 4 * 2 ^ 4), 5, 0, 0]
     (nth 0 words 0).toNat % 16 = 1 ∧ msgOf words = some ({ seq := 5, src := 4, dst := 0, job := 0, key := 0, kind := .rwr 0 [], ref := 5 }, false) ∧ (4, 5) ∉ desk.fab.seen ∧
      (4, 5) ∈ ({ desk with fab := { seen := [(4, 5)] } } : State).fab.seen) ∧
    (∀ n ∈ [15, 16], let s := { desk with fab := { ports := [(95, { st := .up, fails := n })] } }
     (s.port' 95).st = .up ∧ (s.port' 95).fails = n ∧ (14 : Word).toNat % 16 = 14) := by decide +kernel

/-- Job 3 on the paged desk with one message of kind `k`. -/
def posted (k : MsgKind) (held : Bool) : State := { paged with
  launches := [(0, { lonely with block := 0x1000, job := some 3, loops := [{}] })]
  fab := { jobs := [(3, { holder := 0x1000 })], msgs := [{ seq := 1, src := 0, dst := 0, job := 3, key := 0, kind := k, held := held }] } }

theorem witness_FabricMessageResults :
    (let k : MsgKind := .rwr 0x100 (List.replicate 16 5)
     let s := posted k false
     (s.fab.msgs.find? (fun x => decide (x.seq = 1))).map Msg.kind = some k ∧ s.fab.jobs.find? 3 = some { holder := 0x1000 } ∧ (s.holder 3).map Cont.block = some 0x1000 ∧
      s.behind { seq := 1, src := 0, dst := 0, job := 3, key := 0, kind := k } = false ∧ s.rslots = [] ∧
      (∀ i, i < 2 → s.jobPhys 3 (0x100 + 8 * i) true = .inl { firstPage with glob := false } ∧ firstPage.phys (0x100 + 8 * i) = 0x100 + 8 * i)) ∧
    (let s := posted (.ramo 0x100 0 false 5 false) false
     s.jobPhys 3 0x100 true = .inl { firstPage with glob := false } ∧ firstPage.attr = .C) ∧
    -- an atomic of a package beyond port 0, whose old value goes back there
    (let s := { posted (.ramo 0x100 0 true 5 true) false with fab := { (posted (.ramo 0x100 0 true 5 true) false).fab with ports := [(0, { st := .up, peer := 4 })] } }
     s.route = some 0 ∧ (4 : Nat) ≠ s.plan.pkg) ∧
    (let w : RWin := { w0 := 0, w1 := BitVec.ofNat 64 (3 * 2 ^ 48 + 1 * 2 ^ 24 + 16), en := true }
     let s := { posted (.amoWin 0 5) false with fab := { (posted (.amoWin 0 5) false).fab with wins := [(0, w)] } }
     s.windowOf (some 0x1000) 0 = some (0, w) ∧ rwExpect w = 1 ∧ rwType w = 0 ∧ rwOp w = 0 ∧ s.rslots = [] ∧
      s.jobPhys (rwJob w) (rwBase w) true = .inl { firstPage with glob := false } ∧ firstPage.attr = .C) ∧
    (∀ k ∈ [MsgKind.rwr 0 [], .ramo 0 0 false 0 false, .rred 0 0, .msg 0 0 0 []], let s := { posted k false with conts := [] }
     s.holder 3 = none ∧ k.fetches = false) ∧
    (let w : RWin := { w0 := 0, w1 := BitVec.ofNat 64 (3 * 2 ^ 48 + 2 * 2 ^ 24 + 16), en := true }
     let s := { posted (.rred 0 5) false with fab := { (posted (.rred 0 5) false).fab with wins := [(0, w)] } }
     s.windowOf (some 0x1000) 0 = some (0, w) ∧ s.fab.wins.find? 0 = some w ∧ (w.got.filter (fun x => decide (x.elem = 0))).length + 1 < rwExpect w) ∧
    (∀ held, let l : Launch := { lonely with block := 0x1000, job := some 3, bundles := 3, loops := [recSample] }
     let a : Alloc := BitVec.ofNat 64 (2 ^ 45 + 256 * 2 ^ 20)
     let s := { posted (.msg 0 0 240 (List.replicate 16 5)) held with launches := [(0, { l with allocs := [a] })] }
     recSample.valid 3 = true ∧ s.jobLaunch 3 0 = some (0, { l with allocs := [a] }) ∧ a.shared = true ∧ a.covers 240 16 = true ∧ s.msgRoom 0 0 = true ∧ s.awakeAt (.spad 0) = true) := by decide +kernel

theorem witness_WaveResults :
    (let q : Ask := { op := .ramo, reg := 9, id := 4 }
     let s := desk.modUsr 0 (fun u => { u with asks := [q] })
     s.askBy 4 = some (s.usr 0, q) ∧ s.coreWaiting 4 = some 0) ∧
    desk.fab.wave = none ∧ joined.fab.jobs.find? 3 = some { holder := 0x1000 } ∧
    (∀ x ∈ [(1, JobSt.probing), (2, .confirming), (2, .active)], let s : State := { joined with fab := { jobs := [(3, { holder := 0x1000, st := x.2 })], wave := some (x.1, 0) } }
     s.fab.wave = some (x.1, 0) ∧ s.fab.jobs.find? 3 = some { holder := 0x1000, st := x.2 }) ∧
    (let q : Ask := { op := .wquiet, reg := 9, id := 4, limit := some 0 }
     let s := desk.modUsr 0 (fun u => { u with asks := [q] })
     q ∈ (s.usr 0).asks ∧ 0 ≤ s.cyc) := by decide +kernel

theorem witness_LandingResults :
    (∀ w ∈ [0, 63, 64], (joined.rwin w).en = false) ∧ (({ desk with fab := { wins := [(0, { en := true })] } } : State).rwin 0).en = true ∧
    (let v := BitVec.ofNat 64 (3 * 2 ^ 48 + 2 ^ 24 + 16 + 1)
     let y : RWin := { joined.rwin 0 with w1 := v }
     v.getLsbD 0 = true ∧ y.ok = true ∧ (joined.fab.jobs.find? (rwJob y)).isSome = true ∧ joined.fab.wins = []) ∧
    (({ desk with fab := { wins := [(0, { installing := true })] } } : State).rwin 0).installing = true ∧
    (∀ n ∈ [16, 36], 16 ≤ (BitVec.ofNat 64 n).toNat % 64 ∧ (BitVec.ofNat 64 n).toNat % 64 ≤ 36) ∧
    (let s : State := { desk with plan := { parts := [{ part := 0, clusters := [0], hard := false, rprio := 0, mem := [0] }] } }
     (s.lwin 0 15).base % 2 ^ (s.lwin 0 15).slog = 0 ∧ s.granted 0 (s.lwin 0 15).base (2 ^ (s.lwin 0 15).slog) = true ∧ s.granted 0 (2 ^ 21 - 8) 8 = true ∧
      desk.granted 0 (desk.lwin 0 15).base (2 ^ (desk.lwin 0 15).slog) = false) ∧
    (let s : State := { desk with fab := { pcie := [(3, { up := true })], land' := [(15 * 16 + 15, { w1 := 1 }), (15, { w1 := 1 })] } }
     (s.pcie 3).up = true ∧ (s.pcie 3).dpc = false ∧ (s.lwin 15 15).en = true ∧ (s.part 15).closed = false ∧ (2 ^ 16 - 1) + 1 ≤ 2 ^ (s.lwin 15 15).slog ∧
      s.rslots = [] ∧ s.parts.length = 16 ∧ 2 ^ (s.lwin 15 15).slog < 2 ^ 16 + 1) := by decide +kernel

/-! ### The matrix unit -/

/-- A ready 32 by 32 BF16 tensor at scratchpad offset 0. -/
def bfTid : Tid := { w0 := BitVec.ofNat 64 (32 * 2 ^ 16 + 32), w1 := BitVec.ofNat 64 (4 * 2 ^ 16 + 6), st := .ready }

/-- The desk with ready tensors 0 and 1, and a window of 64 cycles for the core's pair. -/
def matrixDesk (f : User → User) : State :=
  ({ desk.modUsr 0 (fun u => f { u with tids := [(0, bfTid), (1, bfTid)] }) with pairs := [(0, { len := 64 })] } : State)

theorem witness_ArrayResults :
    (∀ n ∈ [0xFF, 0x1FF, 0x2FF], let s := args (matrixDesk id) false 5 n 0 0 0
     Alone s 0 false 0 1 ∧ (s.usr 0).accs.length = 8 ∧ Fit s 0 false .mzero 1) ∧
    (let s := args (matrixDesk id) false 5 0 0 (2 * 2 ^ 4) 0
     Alone s 0 false 0 1 ∧ Fit s 0 false .mldc 1 ∧ mldcTag 2 = some (.f32, 32) ∧ Fit s 0 false .mstc 1 ∧ mstcWidth .f32 2 = some 32) ∧
    (let s := args (matrixDesk id) false 5 0 0 (2 ^ 9) 0
     Alone s 0 false 0 1 ∧ Fit s 0 false .macc 1) ∧
    (let s := args (matrixDesk id) false 5 0 0 7 0
     Alone s 0 false 0 1 ∧ Fit s 0 false .mcvt 1 ∧ Fit s 0 false .mtrn 1 ∧ Fit s 0 false .mscale 1) ∧
    (let s := args (matrixDesk id) false 5 0 1 7 0
     Alone s 0 false 0 1 ∧ Fit s 0 false .mma 1 ∧ (tidPairing (s.tid 0 0) (s.tid 0 1)).isSome = true) ∧
    (let s := (args (matrixDesk id) false 5 0 1 7 0).modCtx 0 false (fun x => { x with u := rset x.u 5 { b := .sc 1, c := 7, g := 0x40 } })
     Alone s 0 false 0 1 ∧ Fit s 0 false .mmag 1) ∧
    (let q : Mseq := { a := 0, b := 1, c := 7, ta := bfTid, tb := bfTid, steps := 2, id := 4 }
     let s := matrixDesk (fun u => { u with mseq := some q })
     (s.usr 0).mseq = some q ∧ (s.usr 0).goes = true ∧ s.arrayFits 0 (s.prodOcc 0 0 1 q.ta q.tb) = true) ∧
    (let r : ArrOp := { core := 0, op := .mseq, id := 4, endc := 0, accs := List.replicate 8 {}, bytes := [(0, 5)] }
     let q : Mseq := { a := 0, b := 1, c := 7, ta := bfTid, tb := bfTid, steps := 2, id := 4, next := 2 }
     let s := { matrixDesk (fun u => { u with mseq := some q }) with pairs := [(0, { run := some r })] }
     (s.pair 0).run = some r ∧ r.endc ≤ s.cyc ∧ s.arrayKept 0 r.id = false ∧ s.awakeAt (.spad 0) = true ∧ r.bad = none ∧ q.steps ≤ q.next) ∧
    -- a mismatch outside a segment, in one, and in the lantern context
    (∀ lan, let r : ArrOp := { core := 0, op := .mchk, id := 4, endc := 0, accs := List.replicate 8 {}, bytes := [], bad := some (5, 0x40), lan := lan }
     let s := { matrixDesk id with pairs := [(0, { run := some r })] }
     let t := s.modUsr 0 (fun u => { u with seg := { u.seg with st := .open' } })
     (s.pair 0).run = some r ∧ r.endc ≤ s.cyc ∧ r.bytes = [] ∧ (s.usr 0).inSeg = false ∧ (s.usr 0).after = [] ∧ (t.usr 0).inSeg = true) := by
  simp only [alone_iff, fit_iff]; refine ⟨?_, ?_, ?_, ?_, ?_, ?_, ?_, ?_, ?_⟩ <;> decide +kernel

theorem witness_MatrixUnitResults :
    (∀ x ∈ [({} : Acc), { ckValid := true }, { ckValid := true, ckRow := 1 }],
     let s := args (matrixDesk (fun u => { u with accs := x :: List.replicate 7 {} })) false 5 0 0 0 0
     Alone s 0 false 0 1 ∧ (s.usr 0).accs.length = 8 ∧ Fit s 0 false .mchk 1) ∧
    (let s := args (matrixDesk (fun u => { u with accs := { ckValid := true } :: List.replicate 7 {} })) false 5 0 0 0 0
     BitVec.ofNat 2048 (packGo 32 (rowOf ((s.accSet 0 0).vals .f32) 0)) = 0) ∧
    (∀ n ∈ [0, 1], let s := args (matrixDesk id) false 5 n 0 0 0
     Alone s 0 false 0 1 ∧ Fit s 0 false .mstat 1) ∧
    (let s := args (matrixDesk id) false 5 (2 ^ 10 + 63) 0 0 0
     Alone s 0 false 0 1 ∧ Fit s 0 false .tidw 1 ∧ (2 ^ 10 + 63).testBit 10 = true) ∧
    (let s := args (matrixDesk id) false 5 0 0 0 0
     Fit s 0 false .tidw 1 ∧ ({ s.tid 0 0 with w0 := 0 } : Tid).check = false) ∧
    (let s := args (matrixDesk id) false 5 0 (32 * 2 ^ 16 + 32) 0 0
     Fit s 0 false .tidw 1 ∧ bfTid.check = true ∧ bfTid.fmt ≠ .cb4) ∧
    (∀ full ∈ [false, true], let t : Tid := { bfTid with w1 := BitVec.ofNat 64 (0x1000 * 2 ^ 32 + 4 * 2 ^ 16 + 0xC), cb := if full = true then some 0 else none }
     let s := args (matrixDesk (fun u => { u with tids := [(0, t)] })) false 5 (2 ^ 8) (0x1000 * 2 ^ 32 + 4 * 2 ^ 16 + 0xC) 0 0
     Fit s 0 false .tidw 1 ∧ t.check = true ∧ t.fmt = .cb4 ∧ t.fmt? = some .cb4) ∧
    (∀ n ∈ [0, 2 ^ 8, 2 * 2 ^ 8], let s := args (matrixDesk id) false 5 n 0 0 0
     Fit s 0 false .tidr 1) ∧
    (let t : Tid := { bfTid with w1 := BitVec.ofNat 64 (0x1000 * 2 ^ 32 + 4 * 2 ^ 16 + 0xC) }
     let s := args (matrixDesk (fun u => { u with tids := [(0, t)] })) false 5 0x100 0 0 0
     Fit s 0 false .cbld 1) ∧
    (let s := args (matrixDesk id) false 5 0 1 0 0
     Fit s 0 false .mwin 1 ∧ (s.launchOf? 0).isSome = true ∧ Fit s 0 false .mseq 1) := by
  simp only [alone_iff, fit_iff]; refine ⟨?_, ?_, ?_, ?_, ?_, ?_, ?_, ?_, ?_, ?_⟩ <;> decide +kernel

/-! ### The control unit, regions and estimates -/

theorem witness_ControlTransferResults :
    (∀ lan, let s := args (deskOf lan) lan 7 0x40 1 0 9
     Alone s 0 lan 0 1 ∧ Fit s 0 lan .br 1 ∧ Fit s 0 lan .bri 1 ∧ Fit s 0 lan .call 1 ∧ Fit s 0 lan .loop 1 ∧ Fit s 0 lan .trap 1 ∧ Fit s 0 lan .dbg 1 ∧
      Fit s 0 lan .wdog 1 ∧ Fit s 0 lan .sleep 1 ∧ Fit s 0 lan .prio 1 ∧ Fit s 0 lan .hint 1 ∧ innermost (s.ctx 0 lan).ret = none ∧
      (s.part (((s.launchOf? 0).map Launch.part).getD (s.partOf 0))).dbg = false) ∧
    (∀ a ∈ [0, 1, 2 ^ 58 - 1], let s := args desk false 7 a 0 0 9
     Alone s 0 false 0 1 ∧ Fit s 0 false .loop 1) ∧
    (let s := { args desk false 7 0 0 0 9 with parts := List.replicate 16 { dbg := true } }
     Alone s 0 false 0 1 ∧ Fit s 0 false .dbg 1 ∧ (s.part 0).dbg = true ∧ Fit s 0 false .wdog 1) ∧
    (let f : RecFrame := { ret := some 0x40, r := recSample, counted := false }
     ∀ fr ∈ [Frame.plain 0x40, .rcd f], let s := args (desk.modCtx 0 false (fun x => { x with ret := [fr], pc := 0x40 })) false 7 31 0 0 9
     Alone s 0 false 0 1 ∧ Fit s 0 false .ret 1 ∧ Fit s 0 false .prio 1 ∧ (s.ctx 0 false).ret = [fr] ∧ innermost [Frame.rcd f] = some f) := by
  simp only [alone_iff, fit_iff]; decide +kernel

theorem witness_RecordResults :
    (∀ n ∈ [0, 32], let s := args ({ (desk.modUsr 0 (fun u => { u with deque := List.replicate n {} })) with
        launches := [(0, { lonely with block := 0x1000, bundles := 3, loops := [recSample] })] }) false 7 (2 ^ 63) 0 0 9
     Alone s 0 false 0 1 ∧ Fit s 0 false .lpost 1 ∧ Fit s 0 false .lrun 1 ∧ (s.recOf (s.trigger 0 false .lrun 1)).trip ≠ 0) ∧
    (∀ dq ∈ [[], [recSample]], let s := args (desk.modUsr 0 (fun u => { u with deque := dq })) false 7 (2 ^ 64 - 1) 0 0 9
     Alone s 0 false 0 1 ∧ Fit s 0 false .lrun 1) ∧ recSample.trip ≠ 0 ∧
    (let f : RecFrame := { ret := some 0x40, r := recSample, counted := false }
     let s := args (desk.modCtx 0 false (fun x => { x with ret := [.rcd f], pc := 0x40 })) false 7 1 0 0 9
     Alone s 0 false 0 1 ∧ Fit s 0 false .lsplit 1 ∧ innermost (s.ctx 0 false).ret = some f ∧ f.r.split = true) ∧
    (let s := args desk false 7 0 0 0 9
     Alone s 0 false 0 1 ∧ Fit s 0 false .lsplit 1 ∧ innermost (s.ctx 0 false).ret = none ∧ Fit s 0 false .twait 1 ∧ Fit s 0 false .tend 1 ∧ Fit s 0 false .cancel 1 ∧
      (s.task? 0).map (fun k => k.st.over') = some false ∧ (s.usr 0).member = none) ∧
    (∀ late, let s := args (desk.modTask 0 (fun k => { k with rdvGo := some (0, late) })) false 7 0 0 0 9
     Alone s 0 false 0 1 ∧ Fit s 0 false .rdv 1 ∧ (s.task? 0).map Task.rdvGo = some (some (s.cyc, late))) ∧
    (∀ n ∈ [1, 2], let s := args desk false 7 n 0 0 9
     Alone s 0 false 0 1 ∧ Fit s 0 false .cancel 1 ∧ Fit s 0 false .twait 1) := by
  simp only [alone_iff, fit_iff]; decide +kernel

theorem witness_GroupAndCallResults :
    (∀ n ∈ [0, 255, 256, 511, 512], let s := args desk false 7 n 0 0 9
     Alone s 0 false 0 1 ∧ Fit s 0 false .tgrp 1 ∧ Fit s 0 false .sched 1 ∧ (s.task? 0).isSome = true ∧ (s.launchOf? 0).isSome = true ∧ (lonely.W, lonely.H) = (1, 1)) ∧
    (∀ n ∈ [2 ^ 20, 7 * 2 ^ 17, 0, 2 ^ 17], let s := args desk false 7 n 0 0 9
     Alone s 0 false 0 1 ∧ Fit s 0 false .sys 1 ∧ (s.contOf? 0).map (fun q => decide (s.conts.find? q.block = some q)) = some true) ∧
    sysBadArg (0, 0) = false ∧ sysBadArg (2 ^ 63, 2 ^ 63) = true ∧
    (let s := args desk false 7 0 0 0 9
     Alone s 0 false 0 1 ∧ Fit s 0 false .launch 1) := by
  simp only [alone_iff, fit_iff]; decide +kernel

theorem witness_RegionAndEstimateTriggers :
    (∀ n ∈ [0, 1], let s := args desk false 7 n (2 ^ 64 - 1) 0 8
     Alone s 0 false 0 1 ∧ Fit s 0 false .ropen 1 ∧ Fit s 0 false .rjoin 1 ∧ Fit s 0 false .rabort 1 ∧ Fit s 0 false .rstat 1 ∧ s.region? 1 = none) ∧
    (let full : Tab RSlot := (List.range 256).map (fun i => (i, oneRegion))
     ∀ i, i < 256 → (full.find? i).map RSlot.st = some .open') ∧
    (∀ n ∈ [2 ^ 40, 2 ^ 58], let s := args desk false 7 n 0 0 8
     Alone s 0 false 0 1 ∧ Fit s 0 false .rjoin 1 ∧ Fit s 0 false .rabort 1 ∧ Fit s 0 false .rstat 1) ∧
    (let s := args { desk with plan := { joined := [0, 1] } } false 7 (2 ^ 58) 0 0 8
     Alone s 0 false 0 1 ∧ Fit s 0 false .rstat 1 ∧ s.plan.joined.contains 1 = true) ∧
    (let s := { args (desk.modUsr 0 (fun u => { u with member := some { handle := 0 } })) false 7 0 0 0 8 with rslots := [(0, oneRegion)] }
     Alone s 0 false 0 1 ∧ Fit s 0 false .rvote 1 ∧ Fit s 0 false .rleave 1 ∧ Fit s 0 false .rstat 1 ∧ s.region? 0 = some oneRegion) ∧
    (∀ n ∈ [0, 1, 7, 8], let cfg : EstCfg := { n := 4, seed := 0, mode := 0, k := 0, nmin := 2, tol := 0, z := 0, record := 0 }
     let s : State := { args desk false 7 n 0 0 8 with
       launches := [(0, { lonely with block := 0x1000, est := some cfg })]
       ests := [(0, { cfg := cfg, outst := [(0, 0), (1, 0), (7, 0), (8, 0)] })] }
     Alone s 0 false 0 1 ∧ Fit s 0 false .epop 1 ∧ Fit s 0 false .epush 1 ∧ Fit s 0 false .estat 1 ∧ Fit s 0 false .estop 1) := by
  simp only [alone_iff, fit_iff]; refine ⟨?_, ?_, ?_, ?_, ?_, ?_⟩ <;> decide +kernel

end Sys2Proof.Tests
end

