-- ==== Sys2Proof/Tests/WitnessFirmware.lean ====
section
/-! SUPPORT. Witnesses: for each statement a concrete state and operands that meet its hypotheses, clause by clause, at the ends of
the ranges where a clause has one: the lantern context's services and the control of cores. -/
namespace Sys2Proof.Tests
set_option Elab.async false
open Sys2Proof.Machine

theorem witness_RegionEventResults :
    (∀ o ∈ [Op.rjoin, .rleave, .rvote, .rabort], ∀ st ∈ [RegSt.open', .voting, .committing],
     let q : Ask := { op := o, reg := 9, id := 4 }
     let r : RSlot := { oneRegion with st := st, members := { pkg := 0, launch := 0, tile := 0 } :: (if o = .rvote then [] else [{ pkg := 0, launch := 0, tile := 1 }]) }
     let s := { desk.modUsr 0 (fun u => { u with asks := [q] }) with rslots := [(0, r)] }
     s.askBy 4 = some (s.usr 0, q) ∧ q ∈ (s.usr 0).asks ∧ s.coreWaiting 4 = some 0 ∧ s.rslots.find? 0 = some r ∧ (s.usr 0).member = none ∧
      s.slotKey 0 = 0 ∧ r.handle = 0 ∧ r.locking = false ∧ r.job = ((s.launchOfUser (s.usr 0)).bind (fun p => p.2.job)).getD 0 ∧ r.members.length < 4096 ∧
      r.votes + 1 = r.members.length - (if o = .rvote then 0 else 1) ∧ s.userKey (s.usr 0) = (0, 0) ∧ r.members ≠ [] ∧
      (∀ x ∈ r.members, x.pkg = s.plan.pkg) ∧ (∀ x ∈ (s.usr 0).asks, x.id = 4 → x = q)) ∧
    -- a member votes, the last and not the last, or aborts what it has voted for
    (∀ o ∈ [Op.rvote, .rabort], ∀ n ∈ [1, 2],
     let q : Ask := { op := o, reg := 9, id := 4 }
     let v : Ask := { op := .rvote, reg := 10, id := 3 }
     let r : RSlot := { oneRegion with members := (List.range n).map (fun i => { pkg := 0, launch := 0, tile := i }) }
     let s := { desk.modUsr 0 (fun u => { u with asks := if o = .rabort then [v, q] else [q], member := some { handle := 0 } }) with rslots := [(0, r)] }
     s.askBy 4 = some (s.usr 0, q) ∧ (s.usr 0).member.map Member.handle = some 0 ∧ q.b = 0 ∧ r.members.length = n ∧ (o = .rabort → (∀ x ∈ (s.usr 0).asks, x.id = 4 → x = q) ∧
       (s.usr 0).asks.find? (fun x => x.op == .rvote) = some v ∧ s.coreWaiting 3 = some 0)) ∧
    desk.region? 0 = none ∧
    (∀ st ∈ [RegSt.voting, .committing, .aborting, .committed, .aborted], let r : RSlot := { oneRegion with st := st, locking := true, tent := [(0x100, 5)], members := [{ pkg := 0, launch := 0, tile := 0, told := true }] }
     let s : State := { desk with rslots := [(0, r)] }
     s.rslots.find? 0 = some r ∧ r.tent.sorted = true ∧ (∀ x ∈ r.members, x.told = true)) ∧
    (∀ st ∈ [RegSt.committed, .aborted], let r : RSlot := { oneRegion with st := st, cause := if st = .aborted then cREGION_ABORT else 0 }
     let q : Ask := { op := .rvote, reg := 9, id := 4 }
     let s := { desk.modUsr 0 (fun u => { u with asks := [q], member := some { handle := 0, voted := true } }) with rslots := [(0, r)] }
     s.rslots.find? 0 = some r ∧ r.members[0]? = some { pkg := 0, launch := 0, tile := 0 } ∧ s.plan.pkg = 0 ∧ cREGION_ABORT ≠ 0 ∧
      s.users.find? (fun u => decide (s.userKey u = (0, 0)) && decide (u.member.map Member.handle = some r.handle)) = some (s.usr 0) ∧
      (s.usr 0).asks.find? (fun q => q.op == .rvote) = some q ∧ s.coreWaiting q.id = some 0) := by
  refine ⟨?_, ?_, ?_, ?_, ?_⟩ <;> decide +kernel

/-! ### The lantern context -/

/-- Core 0 with a task that trapped at a load, held for firmware. -/
def heldDesk (seg : Segment) (emul after : Bool) : State :=
  deskOf true |>.modUsr 0 (fun u => { u with
    task := some { launch := 0, tx := 0, ty := 0, team := 0, st := .trapped, trap := some { cause := cMISALIGNED, emul := emul, after := after } }
    seg := seg, latched := some { op := .ldD, u := { b := .sc 5 } } })

theorem witness_FirmwareTrapResults :
    (∀ a ∈ [0, 1, 2, 3, 4, 5, 6], ∀ b ∈ [0, 8], let s := args (heldDesk {} true false) true 7 a b 0 9
     Alone s 0 true 0 1 ∧ Fit s 0 true .eret 1 ∧ Fit s 0 true .segrew 1 ∧ (s.task? 0).map Task.st = some .trapped ∧ ((s.task? 0).bind Task.trap).isSome = true ∧
      (s.launchOf? 0).map Launch.bundles = some 1) ∧
    (∀ st ∈ [SegSt.open', .replaying], ∀ a ∈ [0, 1, 2], let s := args (heldDesk { st := st, jr := some { ctx := {}, nexts := [1, 1, 1, 1], accs := List.replicate 8 {} } } true false) true 7 a 0 0 9
     Alone s 0 true 0 1 ∧ Fit s 0 true .segrew 1 ∧ (s.usr 0).seg.st = st ∧ (s.usr 0).seg.jr.isSome = true) ∧
    (∀ n ∈ [0, 12, 15, 256, 8 + 2 ^ 16 * 0x6F, 8 + 2 ^ 8 + 2 ^ 16 * 63], let s := args (heldDesk {} true false) true 7 n 0 0 9
     Alone s 0 true 0 1 ∧ Fit s 0 true .fcsr 1 ∧ (s.usr 0).latched = some { op := .ldD, u := { b := .sc 5 } }) ∧
    (∀ n ∈ [0x40, 0xBF], let s := args (heldDesk {} true false) true 7 n 0 0 9
     Alone s 0 true 0 1 ∧ Fit s 0 true .faultq 1 ∧ (s.conts.find? 0x1000).map (fun q => (q.st, q.parking)) = some (.running, false)) ∧
    (∀ n ∈ [2 ^ 11 - 1, 2 ^ 11], ∀ b ∈ [0, 2, 3, 4], let s := args (deskOf true) true 7 n b 0 9
     Alone s 0 true 0 1 ∧ Fit s 0 true .inj 1) ∧ Nat.land 1 0x6E4 = 0 ∧ Nat.land 4 0x6E4 ≠ 0 ∧
    (let s := args (deskOf true) true 7 63 0 0 9
     Alone s 0 true 0 1 ∧ Fit s 0 true .dump 1 ∧ (s.ctx 0 true).pipe = []) := by
  simp only [alone_iff, fit_iff]; refine ⟨?_, ?_, ?_, ?_, ?_, ?_, ?_, ?_⟩ <;> decide +kernel

/-- Core 0 with a task in a state, its lantern context the actor, and the ports of the control unit set. -/
def serviced (st : TaskSt) (a b : Nat) : State := args ((deskOf true).modTask 0 (fun k => { k with st := st })) true 7 a b 0 9

theorem witness_FirmwareServiceResults :
    (∀ st ∈ [TaskSt.preempted, .running, .placed], ∀ a ∈ [0, 16, 8], let s := serviced st a 0
     Alone s 0 true 0 1 ∧ Fit s 0 true .snap 1 ∧ Fit s 0 true .snapr 1 ∧ (s.core 0).stop = none ∧ (s.task? 0).map Task.st = some st) ∧
    (∀ b ∈ [0, 2 ^ 19 - 1 - 2 ^ 16, 2 ^ 19, 3 * 2 ^ 16], let s := serviced .running 0 b
     Alone s 0 true 0 1 ∧ Fit s 0 true .tlbi 1 ∧ dieOf 0 < s.dies.length) ∧
    (let s := (serviced .preempted (4 * 2 ^ 20) 0).modCont 0x1000 (fun q => { q with pbase := 4 * 2 ^ 20, plog := 21 })
     Alone s 0 true 0 1 ∧ Fit s 0 true .park 1 ∧ (s.launchOf? 0).map Launch.saved = some [] ∧ s.imagePlace 0 0x1000 (BitVec.ofNat 64 (4 * 2 ^ 20)) = some (.inr (4 * 2 ^ 20)) ∧
      s.imagePlace 0 0x1000 1 = none) ∧
    (let s := serviced .preempted 1 0
     Alone s 0 true 0 1 ∧ Fit s 0 true .park 1) ∧
    (let s := serviced .preempted 1 0
     Fit s 0 true .unpark 1 ∧ s.imageAt 0 1 = none ∧ (s.usr 0).task ≠ none) ∧
    (let i : Image := { launch := 0, tile := 0, usr := {}, at' := some 0x400000 }
     let s := args ({ ((deskOf true).modUsr 0 (fun u => { u with task := none })) with launches := [(0, { lonely with block := 0x1000, saved := [i] })] }) true 7 0x400000 0 0 9
     Alone s 0 true 0 1 ∧ Fit s 0 true .unpark 1 ∧ s.imageAt 0 0x400000 = some i ∧ (s.usr 0).task = none ∧ i.bad = false) ∧
    (∀ a ∈ [3, 4, 10, 11], let s := serviced .running a 0
     Alone s 0 true 0 1 ∧ Fit s 0 true .fwshare 1 ∧ s.corePart 0 = some 0) ∧
    (∀ a ∈ [0, 2 ^ 16 - 1 - 0xC0, 2 ^ 16, 2 ^ 6], ∀ b ∈ [0, 1, 15, 16, 0x1F], let s := serviced .running a b
     Alone s 0 true 0 1 ∧ Fit s 0 true .slotw 1 ∧ s.partBusy 1 = false ∧ s.partBusy 0 = true) ∧
    (∀ a ∈ [0, 1, 2, 3, 4], let s := { serviced .running a (2 ^ 58) with mod := { desk.mod with keys := [{ handle := BitVec.ofNat 64 (2 ^ 58), bits := 7 }] } }
     Alone s 0 true 0 1 ∧ Fit s 0 true .keyop 1 ∧ s.keyValid (BitVec.ofNat 64 (2 ^ 58)) = true ∧ (BitVec.ofNat 64 (2 ^ 58)).toNat / 2 ^ 60 = (s.corePart 0).getD 16 ∧
      (BitVec.ofNat 64 (2 ^ 58)).toNat / 2 ^ 58 % 4 = 1) ∧
    (let s := { serviced .running 1 (2 ^ 58) with launches := [], mod := { desk.mod with keys := [{ handle := BitVec.ofNat 64 (2 ^ 58), bits := 7 }] } }
     Fit s 0 true .keyop 1 ∧ s.launches = []) ∧
    (∀ a ∈ [0, 1], let s := serviced .running a 0
     Alone s 0 true 0 1 ∧ Fit s 0 true .keyop 1 ∧ s.keyValid 0 = false ∧ Fit s 0 true .idle 1) := by
  simp only [alone_iff, fit_iff]; refine ⟨?_, ?_, ?_, ?_, ?_, ?_, ?_, ?_, ?_, ?_, ?_⟩ <;> decide +kernel

theorem witness_IllegalOpcodeTraps : ∀ lan, (deskOf lan).actor = side 0 lan ∧ ((deskOf lan).ctx 0 lan).readable 1 = true ∧ (srcOf 1).vector = false ∧
    ((deskOf lan).usr 0).inSeg = false ∧ ((deskOf lan).task? 0).isSome = true := by decide +kernel

/-! ### Events of a core, of launches and of partitions -/

theorem witness_CoreLandingResults :
    (let p : Pipe := { unit := 0, port := 0, val := .sc 5, rem := 1, slot := 0, pc := 0 }
     let s := desk.modCtx 0 false (fun x => { x with idle := 1, pipe := [p] })
     (s.ctx 0 false).idle = 0 + 1 ∧ (s.ctx 0 false).pipe = [p]) ∧
    (∀ bad, let d : Deliv := { id := 4, reg := 9, val := .sc 5, due := 0, trap := some cCOUNTER_TIMEOUT, bad := bad }
     let s := desk.modUsr 0 (fun u => { u with delivs := [d] })
     (s.dueDelivs 0).find? (fun (d : Deliv) => decide (d.id = 4)) = some d ∧ (s.usr 0).inSeg = false ∧ (s.usr 0).after = []) ∧
    (let s := (desk.modCtx 0 false (fun x => { x with idle := 1 })).modCore 0 (fun w => { w with debugStep := true })
     (s.ctx 0 false).idle = 0 + 1 ∧ (s.core 0).debugStep = true ∧ (s.task? 0).isSome = true) ∧
    (∀ n ∈ [31, 32], let s := desk.modUsr 0 (fun u => { u with deque := List.replicate n {}, transit := [(0, recSample)] })
     (s.usr 0).transit = [(0, recSample)] ∧ 0 ≤ s.cyc ∧ (s.usr 0).deque.length = n) ∧
    (let a : Arv := { place := .spad 0, pa := 0x100, va := 0x100, slot := 0, pc := 0, at' := .cycle 0 }
     a ∈ ((desk.modCtx 0 false (fun x => { x with arvs := [a] })).ctx 0 false).arvs ∧ a.due desk.cyc = true) ∧
    (let b : Bundle := { Bundle.one 0 0x200 with hdr := BitVec.ofNat 64 (2 ^ 22) }
     let s := { desk.modUsr 0 (fun u => { u with seg := { st := .open', count := 1, entry := 0x40 } }) with mem := ({} : Mem).wrN 0 (toBytesLE 32 b.toNat) }
     s.fetch 0 false = .bundle b ∧ s.gate 0 b = .commit) ∧
    (let s := { desk.modUsr 0 (fun u => { u with seg := { st := .rewinding, began := 0 } }) with cyc := 32 }
     (s.usr 0).seg.st = .rewinding ∧ (s.usr 0).seg.began + 32 ≤ s.cyc) := by decide +kernel

/-- Cores 0 and 1 with the two tiles of one launch; core 0 has nothing left to do, core 1 holds the records `dq`. -/
def team (dq : List LRec) : State := { desk with
  launches := [(0, { lonely with block := 0x1000, gx := 2, wlog := 1, opts := 16 })]
  cores := [(0, { usr := { task := some { launch := 0, tx := 0, ty := 0, team := 0, st := .ended }, spad := {} } }),
            (1, { usr := { task := some { launch := 0, tx := 1, ty := 0, team := 0, st := .running }, spad := {}, deque := dq } })] }

theorem witness_ScoutProbe :
    (team []).probes 0 = true ∧ (team []).candidates 0 ≠ [] ∧
    (∀ dq ∈ [[recSample], [recSample, recSample], []], let s := team dq
     let v := nth 0 (s.candidates 0) ((lfsrStep (s.usr 0).lfsr).toNat % (s.candidates 0).length)
     v = 1 ∧ s.oneTeam 0 v = true ∧ (s.usr v).deque.filter LRec.port = dq) ∧ recSample.split = true ∧ 2 ≤ recSample.trip := by decide +kernel

theorem witness_CoreControlResults :
    (let q : Ask := { op := .idle, reg := 9, id := 4, limit := some 0 }
     let s := desk.modCore 0 (fun w => { w with lan := { w.lan with idle := some q } })
     (s.core 0).lan.idle = some q ∧ s.held 0 = false ∧ s.servesStep 0 = false ∧ (s.core 0).stop = none ∧ (s.core 0).debugStep = false ∧ (heldDesk {} true false).held 0 = true ∧ (s.core 0).lan.called = false ∧
      ((s.modLan 0 (fun l => { l with called := true })).core 0).lan.called = true ∧
      (s.core 0).lan.trapSeen = false) ∧
    (let s := (desk.modTask 0 (fun k => { k with st := .preempted })).modUsr 0 (fun u => { u with resume := some (3, 3) })
     s.snaprDue 0 = none ∧ (s.usr 0).resume = some (3, 3) ∧ (s.task? 0).map Task.st = some .preempted) ∧
    (let q : Ask := { op := .snapr, reg := 9, id := 4, limit := some 64 }
     let s := { (desk.modTask 0 (fun k => { k with st := .preempted })).modCore 0 (fun w => { w with lan := { w.lan with asks := [q] } }) with cyc := 64 }
     s.snaprDue 0 = some q) ∧
    ((desk.modTask 0 (fun k => { k with drains := [.twait 0 9 4 (some 0) 0x20 false] })).task? 0).map Task.drains = some [.twait 0 9 4 (some 0) 0x20 false] ∧
    ((desk.modCtx 0 false (fun x => { x with wdog := some 0 })).ctx 0 false).wdog = some 0 ∧
    (let s := desk.modCore 0 (fun w => { w with debugHeld := true })
     (s.core 0).debugHeld = true) ∧
    (let s := { desk with parts := { en := true, dbg := true } :: List.replicate 15 {} }
     s.mayDebug 0 = true ∧ (s.task? 0).map Task.st = some .running ∧ (s.core 0).stop = none) ∧ isDebug cBREAKPOINT = true := by
  refine ⟨?_, ?_, ?_, ?_, ?_, ?_, ?_, ?_⟩ <;> decide +kernel

end Sys2Proof.Tests
end

