-- ==== Sys2Proof/Tests/WitnessHub.lean ====
section
/-! SUPPORT. Witnesses: for each statement a concrete state and operands that meet its hypotheses, clause by clause, at the ends of
the ranges where a clause has one: launches, partitions, host harts and continuations. -/
namespace Sys2Proof.Tests
set_option Elab.async false
open Sys2Proof.Machine

/-! ### Launches and partitions -/

/-- A READY launch beside the desk's, in a partition of all 64 clusters. -/
def arbiter (l : Launch) (busy : Bool) : State := { desk with
  launches := (1, l) :: (if busy then [(0, { lonely with block := 0x1000, gx := 64, gy := 32, wlog := 6, hlog := 5 })] else [])
  cores := if busy then desk.cores else []
  clusters := (List.range 64).map (fun k => (k, { home := some 0, cur := some 0 }))
  conts := [(0x1000, { block := 0x1000, st := .running, resident := true, plog := 40 })] }

/-- A launch of one tile that waits for its place. -/
def waiting : Launch := { lonely with block := 0x1000, st := .ready, teams := [], eff := 8, readyAt := 0 }

theorem witness_LaunchEventResults :
    (let s := arbiter waiting false
     s.head 0 = some (1, waiting) ∧ s.launches.find? 1 = some waiting ∧ (s.part 0).en = true ∧ waiting.est = none ∧ s.candidate waiting = some (0, 0) ∧
      ({ waiting with x0 := 0, y0 := 0 } : Launch).rect.all (fun (c : Nat) => s.coreQuiet c && !s.expected c) = true ∧
      s.canEvict ({ waiting with x0 := 0, y0 := 0 } : Launch).rect = true ∧ waiting.nextTeam (waiting.teams.length + 1) waiting.cur = some 0 ∧ waiting.team 0 ≠ .swapped) ∧
    (let w : Launch := { lonely with block := 0x1000 }
     let s := { arbiter waiting false with launches := [(1, { waiting with wlog := 6, hlog := 5 }), (0, w)] }
     let l : Launch := { waiting with wlog := 6, hlog := 5 }
     s.head 0 = some (1, l) ∧ s.candidate l = none ∧ s.victimRect l = some (0, 0) ∧ s.holders 0 0 l.W l.H = [0] ∧ s.launches.find? 0 = some w ∧ w.holds = true ∧
      w.team w.cur = .running ∧ reserve w.rect (s.advertising w.part) (s.unitsFree w.block) = some [(0, some 1)] ∧ desk.task? 0 ≠ none) ∧
    (let s := { arbiter waiting false with cyc := 12000000 }
     s.launches.find? 1 = some waiting ∧ waiting.st = .ready ∧ waiting.aged + 12000000 ≤ s.cyc) ∧
    (let l : Launch := { lonely with block := 0x1000, startAt := some 0 }
     let s := { desk.modTask 0 (fun k => { k with st := .placed }) with launches := [(0, l)] }
     s.launches.find? 0 = some l ∧ l.startAt = some 0 ∧ s.cyc % s.shareOf l.part ≠ s.shareOf l.part - 1 ∧ l.rect.Nodup ∧ (s.task? 0).map Task.st = some .placed) ∧
    (let l : Launch := { lonely with block := 0x1000, gx := 2, teams := [(0, .running)], quantumEnd := 0 }
     let s := { desk with launches := [(0, l)] }
     s.launches.find? 0 = some l ∧ l.st = .active ∧ l.team l.cur = .running ∧ l.quantumEnd ≤ s.cyc + 1 ∧ l.teamOver l.cur = false ∧ l.otherTeam ≠ none ∧
      reserve l.rect (s.advertising l.part) (s.unitsFree l.block) = some [(0, some 1)] ∧ ({ l with gx := 1 } : Launch).otherTeam = none) ∧
    (let p : Stop := { at' := 0, reached := true, park := true }
     let s := (desk.modTask 0 (fun k => { k with st := .preempted })).modCore 0 (fun w => { w with stop := some p })
     s.canSave 0 = true ∧ (s.core 0).stop = some p ∧ (s.launchOf? 0).isSome = true ∧ (∀ c2 ∈ lonely.rect, c2 ≠ 0 → (s.core c2).stop = none)) ∧
    (let l : Launch := { lonely with block := 0x1000, st := .draining }
     let s := { desk.modTask 0 (fun k => { k with st := .ended }) with launches := [(0, l)] }
     s.drained 0 = true ∧ s.launches.find? 0 = some l ∧ (∀ d ∈ s.dies, d.blines = []) ∧ (s.conts.find? 0x1000).map (fun q => q.stream.started) = some []) := by
  refine ⟨?_, ?_, ?_, ?_, ?_, ?_, ?_⟩ <;> decide +kernel

theorem witness_PartitionEventResults :
    (∀ ls ∈ [([] : Tab Launch), [(0, { lonely with block := 0x1000 })]], let s := { desk with
        clusters := [(63, { home := some 1, cur := some 0, retryAt := some 0 })], launches := ls.map (fun ((k, l) : Nat × Launch) => (k, { l with x0 := 63, y0 := 31 })),
        parts := { en := true } :: { en := true, rprio := 1 } :: List.replicate 14 {} }
     (s.cluster 63).home = some 1 ∧ (s.cluster 63).cur = some 0 ∧ (s.part 0).rprio < (s.part 1).rprio ∧ s.anchored 63 = false ∧ (s.cluster 63).reclaim = false ∧
      s.holders (8 * (63 % 8)) (4 * (63 / 8)) 8 4 = ls.map Prod.fst ∧ (s.cluster 63).retryAt = some 0 ∧ s.mayShift lonely = true) ∧
    -- at its home's wish, and without it
    (∀ need : Bool, let s := { desk with
        clusters := [(63, { home := some 1, cur := some 0, retryAt := some 0 })], launches := if need then [(1, { lonely with block := 0x1000, part := 1, st := .ready, teams := [] })] else []
        parts := { en := true } :: { en := true, rprio := 1 } :: List.replicate 14 {} }
     let s1 := s.modCluster 63 (fun x => { x with retryAt := none })
     s1.wantsBack 1 = if need then [63] else []) ∧
    (let l : Launch := { lonely with block := 0x1000, x0 := 63, y0 := 31 }
     ∀ room : Bool, let s := { desk with
        clusters := (63, { home := some 1, cur := some 0 }) :: if room then [(0, { home := some 0, cur := some 0 })] else []
        conts := [], launches := [(0, l)], parts := { en := true } :: { en := true, rprio := 1 } :: List.replicate 14 {} }
     let s1 := s.modCluster 63 (fun x => { x with reclaim := true, retryAt := none })
     l.holds = true ∧ l.team l.cur = .running ∧ s.mayShift l = true ∧ s.anchored 63 = false ∧ (s.cluster 63).reclaim = false ∧
      s.holders (8 * (63 % 8)) (4 * (63 / 8)) 8 4 = [0] ∧ (reserve l.rect (s1.advertising l.part) (s1.unitsFree l.block)).isSome = room) ∧
    (let s := { desk with clusters := [(63, { home := some 1, cur := some 0 })], launches := [] }
     (s.cluster 63).home = some 1 ∧ (s.cluster 63).cur ≠ some 1 ∧ s.bare 63 = true ∧ (clusterCores 63).all (fun (c : Nat) => s.coreQuiet c && !s.expected c) = true ∧
      desk.bare 0 = false ∧ (∀ c ∈ clusterCores 63, (s.core c).biv = none) ∧ s.holders (8 * (63 % 8)) (4 * (63 / 8)) 8 4 = [] ∧ s.anchored 63 = false) ∧
    -- a cluster of no partition that rests, one that is reclaimed and keeps an image, and one that a launch holds
    (let s := { desk with clusters := [(63, { home := none, cur := some 0 })], launches := [] }
     (s.cluster 63).home ≠ (s.cluster 63).cur ∧ s.holders (8 * (63 % 8)) (4 * (63 / 8)) 8 4 = []) ∧
    (let s := { ({ desk with clusters := [(63, { home := some 1, cur := some 0, reclaim := true })] } : State).modCore 2047 (fun w => { w with
        biv := some { launch := 0, tile := 0, usr := {} } }) with conts := (desk.modCont 0x1000 (fun q => { q with plog := 24 })).conts }
     (s.cluster 63).reclaim = true ∧ (s.core 2047).biv ≠ none ∧ 2047 ∈ clusterCores 63 ∧ s.canEvict (clusterCores 63) = true) ∧
    (let s := { desk with clusters := [(0, { home := some 1, cur := some 0 })] }
     s.holders 0 0 8 4 ≠ []) ∧
    desk.cellsFree {} = true ∧ (desk.modDie 0 (fun d => { d with cells := [(0, 0)] })).cellsFree {} = false ∧
    (let x : ShareWr := { part := 15, share := 10, core := 0, due := 0, reg := 9, id := 4 }
     x ∈ ({ desk with shareWrs := [x] } : State).shareWrs ∧ 15 < desk.parts.length) ∧
    (let x : SlotWr := { die := 3, cell := 16383, owner := 15, core := 0, due := 0, reg := 9, id := 4 }
     x ∈ ({ desk with slotWrs := [x] } : State).slotWrs ∧ 3 < desk.dies.length) ∧ desk.parts.length = 16 ∧
    (desk.conts.find? 0x1000).map (fun q => (q.part, q.st)) = some (0, .running) := by
  refine ⟨?_, ?_, ?_, ?_, ?_, ?_, ?_⟩ <;> decide +kernel

/-! ### Host harts and continuations -/

/-- The desk with hart 0 as the actor, its x1 = `a`, x2 = `b`, bound to `k`. -/
def hosted (s : State) (a b k : Nat) (sup : Bool) : State := { s with
  actor := .hart 0, harts := [(0, { x := (Vector.replicate 32 0).set 1 (BitVec.ofNat 64 a) |>.set 2 (BitVec.ofNat 64 b), binding := k, sup := sup })] }

/-- The desk with its continuation as `f` makes it, and a host hart. -/
def withCont (a b : Nat) (f : Cont → Cont) : State := hosted (desk.modCont 0x1000 f) a b 0x1000 true

/-- A control block whose fields pass the checks. -/
def goodBlock (s : State) (b : Nat) : State := { s with
  mem := (((s.mem.wrN (b + 8) (toBytesLE 8 12)).wrN (b + 0x50) (toBytesLE 8 12)).wrN (b + 0x58) (toBytesLE 8 16)).wrN (b + 0x40) (toBytesLE 8 (10 * 2 ^ 60)) }

theorem witness_HostInstructionResults :
    (let s := hosted desk 0 0 0 false
     s.actor = .hart 0 ∧ (s.hart 0).binding = 0 ∧ (s.hart 0).sup = false) ∧
    (let s := hosted desk 0x101 0 0 true
     (s.hart 0).sup = true ∧ ((s.hart 0).rd 1).toNat % 256 ≠ 0) ∧
    (let s := hosted desk (2 ^ 50) 0 0 true
     ((s.hart 0).rd 1).toNat % 256 = 0 ∧ s.hartPhys 0 .load ((s.hart 0).rd 1) = .inr 5) ∧
    (∀ a ∈ [0, 9, 10], let s := hosted desk a 0 0x1000 false
     (s.hart 0).binding = 0x1000 ∧ (s.cont? 0x1000).map (fun q => (q.block, q.xp, q.st, q.progress)) = some (0x1000, false, .running, 0) ∧ s.rslots = [] ∧ s.hostq = [] ∧ ({ s with hostq := [(0x3000, [1])] } : State).hostq ≠ [] ∧ ((s.hart 0).rd 2).toNat = 0) ∧
    (let s := hosted (desk.modCont 0x1000 (fun q => { q with xp := true })) 5 0 0x1000 false
     (s.cont? 0x1000).map Cont.xp = some true) ∧
    (let s := hosted desk 1 1 0x1000 false
     (s.cont? 0x1000).map Cont.progress = some 0 ∧ 0 < ((s.hart 0).rd 1).toNat ∧ ((s.hart 0).rd 2).toNat ≠ 0) ∧
    (∀ st ∈ [ContSt.orphaned, .dead, .killing, .parked, .idle, .faulted], let s := withCont 0x1000 0 (fun q => { q with st := st })
     (s.cont? 0x1000).map Cont.st = some st ∧ s.hostq = [] ∧ inHbm 0x1000 = true ∧ s.hartPhys 0 .load ((s.hart 0).rd 1) = .inl 0x1000) ∧
    (let s := hosted desk 0 0 0x1000 true
     (s.hart 0).rd 1 = 0 ∧ s.hostq = []) ∧
    (let s := hosted desk ctlPage 0 0x1000 true
     s.hartPhys 0 .load ((s.hart 0).rd 1) = .inl ctlPage ∧ inHbm ctlPage = false ∧ ctlPage % 256 = 0) ∧
    (let s := hosted desk 0x2000 0 0 true
     s.hartPhys 0 .load ((s.hart 0).rd 1) = .inl 0x2000 ∧ s.cont? 0x2000 = none ∧ s.badFields 0x2000 = true) ∧
    (let s := goodBlock (hosted desk 0x2000 0 0 true) 0x2000
     s.badFields 0x2000 = false ∧ (s.part 0).en = true ∧ (s.cluster (clusterOf 0)).cur = some 0 ∧ s.conts.length < 2 ^ 32 ∧ s.slotFree = true ∧
      (({ s with clusters := [] } : State).cluster (clusterOf 0)).cur ≠ some 0) ∧
    (let s := { goodBlock (hosted desk 0x2000 0 0 true) 0x2000 with parts := List.replicate 16 {} }
     s.badFields 0x2000 = false ∧ (s.part 0).en = false) ∧
    (let s := { withCont 0x1000 0 (fun q => { q with plog := 16 }) with launches := [] }
     (s.beginPark 0x1000).isSome = true ∧ (s.cont? 0x1000).map Cont.parking = some false) ∧
    (let s := { withCont 0x1000 0 (fun q => { q with plog := 16 }) with
        clusters := [], launches := [(0, { lonely with block := 0x1000, wlog := 1 })] }
     (s.beginPark 0x1000).isNone = true) ∧
    (let s := withCont 0x1000 0 (fun q => { q with st := .parked, ckpt := false })
     s.engineFree = true ∧ (s.cont? 0x1000).map (fun q => (s.anchorReady q, q.fate, q.ckpt)) = some (true, none, false) ∧ (({ s with clusters := [] } : State).cont? 0x1000).map (fun q => ({ s with clusters := [] } : State).anchorReady q) = some false) ∧
    (let s := goodBlock (withCont 0x1000 0 (fun q => { q with st := .orphaned })) 0x1000
     atpMode (BitVec.ofNat 64 (s.mem.num 0x1040 8)) = 10 ∧ (s.cont? 0x1000).map Cont.saveable = some true ∧ s.mod.pending = none ∧ s.mod.areaLost = false ∧
      (s.modMod (fun m => { m with areaLost := true })).mod.areaLost = true ∧ s.beginPark 0x1000 ≠ none ∧
      ((s.modMod (fun m => { m with pending := some [0x1000] })).mod.pending.getD []).contains 0x1000 = true ∧
      atpMode (BitVec.ofNat 64 ((withCont 0x1000 0 id).mem.num 0x1040 8)) ≠ 10) ∧
    (∀ op ∈ [0, 1, 2, 3], let f : FRec := { cls := 1, cause := cPAGE_ABSENT, obj := .task 0 0 }
     let s := (withCont 0x1000 op (fun q => { q with st := .faulted, fault := some f })).modTask 0 (fun k => { k with st := .trapped, posted := true, trap := some { cause := cPAGE_ABSENT } })
     ((s.hart 0).rd 2).toNat = op ∧ (s.cont? 0x1000).map (fun q => (q.st, q.fault, q.parking)) = some (.faulted, some f, false) ∧ s.coreOfTile 0 0 = some 0 ∧
      s.tileUser 0 0 = some (s.usr 0) ∧ (s.task? 0).map (fun k => (k.launch, k.tile lonely, k.posted)) = some (0, 0, true)) ∧
    (∀ op ∈ [0, 1], let f : FRec := { cls := 1, cause := cPAGE_ABSENT, obj := .task 0 0 }
     let s := withCont 0x1000 op (fun q => { q with st := .parked, pst := .faulted, fault := some f })
     (s.cont? 0x1000).map (fun q => (q.st, q.pst, q.fault)) = some (.parked, .faulted, some f) ∧ f.cls ≠ 2) ∧
    (let f : FRec := { cls := 3, cause := cSTREAM_FETCH_FAULT, obj := .stream }
     let s := withCont 0x1000 0 (fun q => { q with st := .faulted, fault := some f, stream := { q.stream with st := .fetchFault } })
     (s.cont? 0x1000).map (fun q => (q.st, q.fault, q.stream.st)) = some (.faulted, some f, .fetchFault)) := by
  refine ⟨?_, ?_, ?_, ?_, ?_, ?_, ?_, ?_, ?_, ?_, ?_, ?_, ?_, ?_, ?_, ?_, ?_⟩ <;> decide +kernel

/-! ### Continuations, their calls and their attention entries -/

/-- The paged desk whose call ring, of one slot, stands at 0x3000, with the words of its slot 0 and of the ring's head. -/
def calling (w : List (Nat × Nat)) (f : Cont → Cont) : State :=
  let s := paged.modCont 0x1000 (fun q => f { q with cring := 0x3000, clog := 12 })
  { s with mem := w.foldl (fun (m : Mem) ((a, v) : Nat × Nat) => m.wrN a (toBytesLE 8 v)) s.mem }

/-- A call in flight of operation 4 of core 0, which delivers to register 9. -/
def theCall : SysCall := { n := 0, strong := false, core := 0, launch := 0, tile := 0, reg := 9, id := 4, published := true }

/-- A full engine: 4096 resident continuations, of which 0x1000 is the youngest, and one that waits. -/
def crowd : State :=
  let one (k p : Nat) : Nat × Cont := (k, { block := k, st := .running, resident := true, plog := 16, prio := p })
  { desk with
    conts := one 0x1000 1 :: (0x900000, { block := 0x900000, st := .parked, pst := .running, prio := 2 }) :: (List.range 4095).map (fun (i : Nat) => one (0x10000 + 256 * i) 9)
    launches := [] }

theorem witness_ContinuationEventResults :
    (let s := { desk with harts := [(0, { binding := 0x1000, wait := .join 1 5 (some 0) })] }
     (s.hart 0).wait = .join 1 5 (some 0) ∧ 0 ≤ s.cyc ∧ s.cont? (s.hart 0).binding ≠ none) ∧
    (crowd.parkDue = some 0x1000 ∧ crowd.launches = [] ∧ (crowd.conts.find? 0x1000).map (fun q => (q.parking, q.st)) = some (false, .running)) ∧
    (∀ p ∈ [ContSt.faulted, .running], let q : Cont := { block := 0x1000, st := .parked, pst := p }
     let s := { desk with conts := [(0x1000, q)], launches := [] }
     s.nextWaiting = some q ∧ s.conts.find? 0x1000 = some q ∧ s.engineFree = true ∧ q.fate = none ∧ q.later = []) ∧
    (let s := { desk.modCont 0x1000 (fun q => { q with st := .killing }) with launches := [], harts := [(3, { wait := .kill 1 0x1000 })] }
     (s.conts.find? 0x1000).map Cont.st = some .killing ∧ s.killComplete 0x1000 = true ∧ (s.harts.map Prod.fst).Nodup ∧ (s.hart 3).wait = .kill 1 0x1000) ∧
    (let s := { desk.modMod (fun m => { m with ckNext := some 0, interval := 5 }) with launches := [] }
     s.mod.ckNext = some 0 ∧ 0 ≤ s.cyc ∧ s.mod.interval ≠ 0 ∧ s.mod.pending = none ∧ s.conts.map Prod.fst = [0x1000] ∧
      (s.conts.find? 0x1000).map Cont.saveable = some true ∧ (s.beginPark 0x1000).isSome = true) ∧
    (let s := { (desk.modCont 0x1000 (fun q => { q with st := .parked })).modMod (fun m => { m with pending := some [0x1000] }) with launches := [], harts := [(0, { wait := .ckpt 1 })] }
     s.mod.areaLost = false ∧ ({ s with mod := { s.mod with areaLost := true } } : State).ckptReady = true ∧ s.mod.pending = some [0x1000] ∧ s.ckptReady = true ∧ [0x1000].Nodup ∧ (s.harts.map Prod.fst).Nodup ∧ (s.conts.find? 0x1000).map Cont.st = some .parked ∧ (s.hart 0).wait = .ckpt 1) ∧
    (∀ v ∈ [0, 0x80], let s := { desk.modPart 15 (fun p => { p with ring := 0x3000, waiting := [(0x1000, 5)], hart := 191 }) with mem := desk.mem.wrN 0x3000 (toBytesLE 8 v) }
     15 < s.parts.length ∧ (s.part 15).waiting = [(0x1000, 5)] ∧ (s.part 15).ring = 0x3000 ∧ (s.part 15).next = 0 ∧ s.rslots = [] ∧ s.mem.num 0x3000 8 / 2 ^ 7 % 2 = v / 0x80) ∧
    (let s := { desk.modPart 0 (fun p => { p with hart := 0xFF }) with mem := desk.mem.wrN 0x3000 [0x80] }
     s.parts.length = 16 ∧ 192 ≤ (s.part 0).hart ∧ (s.mem.num (fld 0x3000 11 45 * 2 ^ 11 + 8 * 0) 8).testBit 7 = true ∧ 0x3000 % 256 < 192) ∧
    (let s := (calling [(0x3810, 2 ^ 63)] (fun q => { q with stream := { q.stream with calls := [theCall] } })).modUsr 0 (fun u => { u with asks := [{ id := 4, reg := 9, op := .sys }] })
     (s.conts.find? 0x1000).map (fun q => q.stream.calls.filter (s.callDone q)) = some [theCall] ∧ s.coreWaiting 4 = some 0) ∧
    (let r : TrapRec := { cause := cSYS_RING_FULL }
     let s := (calling [] id).modTask 0 (fun k => { k with st := .trapped, trap := some r })
     (s.contOf? 0).map (fun q => s.ringFull q) = some false ∧ (s.task? 0).map (fun k => (k.st, k.trap)) = some (.trapped, some r)) ∧
    desk.parts.length = 16 ∧
    (inHbm 0x3000 = true ∧ inHbm 0x3007 = true ∧ desk.hostq = [] ∧ desk.rslots = [] ∧ (∀ r ∈ regionsOf 0x400000 8, (desk.region (r * 2 ^ 21)).st = .proc) ∧
      (∀ r ∈ regionsOf 0x3000 8, (desk.region (r * 2 ^ 21)).st ≠ .proc) ∧ regionsOf 0x3000 8 = [0] ∧ (desk.conts.map Prod.fst) = [0x1000] ∧
      ctlPage % 8 = 0 ∧ (∀ i ∈ List.range 8, desk.postByte (0x400000 + i) = false) ∧ inHbm (2 ^ 50) = false ∧ (2 ^ 50 < ctlPage ∨ ctlPage + 2 ^ 16 < 2 ^ 50)) := by
  refine ⟨?_, ?_, ?_, ?_, ?_, ?_, ?_, ?_, ?_, ?_, ?_⟩ <;> decide +kernel

end Sys2Proof.Tests
end

