-- ==== Sys2Proof/Tests/WitnessStream.lean ====
section
/-! SUPPORT. Witnesses: for each statement a concrete state and operands that meet its hypotheses, clause by clause, at the ends of
the ranges where a clause has one: the packets of a stream. -/
namespace Sys2Proof.Tests
set_option Elab.async false
open Sys2Proof.Machine

/-! ### Packets -/

/-- A state stands at a packet of a type that takes effect, and the rest of the clause's hypotheses hold. -/
def Met (s : State) (ty : Nat) (p : Prop) : Prop :=
  AtPacket s 0x1000 (qOf s) (rOf s).1 (rOf s).2 ∧ pkType (rOf s).1 = ty ∧ ¬ (pkP (rOf s).1 = true ∧ (qOf s).stream.pred = false) ∧
    (qOf s).stream.started.all (fun (y : Started) => !y.done) = true ∧ p

theorem met_of {s : State} {ty : Nat} {p : Prop} (a : atPacketB s = true)
    (b : (decide (pkType (rOf s).1 = ty) && !(pkP (rOf s).1 && !(qOf s).stream.pred) && (qOf s).stream.started.all (fun (y : Started) => !y.done)) = true) (c : p) : Met s ty p := by
  simp only [Bool.and_eq_true, decide_eq_true_eq, Bool.not_eq_true'] at b
  refine ⟨atPacket_of s a, b.1.1, ?_, b.2, c⟩
  rintro ⟨h1, h2⟩
  simp [h1, h2] at b

/-- Under P with a false predicate. -/
def Skipped (s : State) (ty : Nat) (p : Prop) : Prop :=
  AtPacket s 0x1000 (qOf s) (rOf s).1 (rOf s).2 ∧ pkType (rOf s).1 = ty ∧ pkP (rOf s).1 = true ∧ (qOf s).stream.pred = false ∧ p

/-- The words of the packets that the witnesses use, in a ring whose pages have a leaf entry `leaf`. -/
def stands (leaf ty : Nat) (fields : List (Nat × List Nat)) (f : Cont → Cont := id) : State := ring leaf f (packet ty 0 fields)

/-- The words of a small kernel image: one bundle, and no table. -/
def imageAt (s : State) (a : Nat) : State := { s with
  clusters := [(0, { home := some 0, cur := some 0 })]
  mem := ((s.mem.wrN a (toBytesLE 8 0x14B473957)).wrN (a + 8) (toBytesLE 8 (1 + 2 ^ 32))).wrN (a + 16) (toBytesLE 8 (0x100 * 2 ^ 32)) }

/-- A continuation inside an indirect buffer at 0x2000, reached by a CALL. -/
def inside (d : Nat) (q : Cont) : Cont :=
  let up : BufLevel := { base := 0x2000, size := 64, next := 0, call := some { ty := 7, tag := 0, depth := d - 1, off := 0, hdr := 0, over' := false } }
  { q with stream := { q.stream with levels := List.replicate d up ++ q.stream.levels } }

def atSkipped : State := ring cLeaf (fun q => { q with stream := { q.stream with pred := false } }) (packet 1 (2 ^ 13) [])
def atSkippedLoop : State := ring cLeaf (fun q => { q with stream := { q.stream with pred := false } }) (packet 6 (2 ^ 13) [(1, [3]), (2, [2])])
def atNop : State := stands cLeaf 1 []
def atLaunch : State := imageAt (stands cLeaf 2 [(1, [0x4000]), (2, [0]), (3, [1 + 2 ^ 32])]) 0x4000
def atWait : State := stands kLeaf 3 [(1, [0x5000]), (2, [7])]
def atSignal : State := stands kLeaf 4 [(1, [0x5000]), (2, [7])]
def atPred : State := stands cLeaf 5 [(1, [0x5000]), (2, [7]), (3, [5])]
def atLoop : State := stands cLeaf 6 [(1, [65535]), (2, [128])]
def atCall : State := stands cLeaf 7 [(1, [0x6000]), (2, [2 ^ 24])]
def atCallTooDeep : State := stands cLeaf 7 [(1, [0x6000]), (2, [1])] (inside 4)
def atRet : State := stands cLeaf 8 [] (inside 1)
def atRetOutside : State := stands cLeaf 8 []
def atFfence : State := stands cLeaf 9 []
def atMark : State := stands cLeaf 0xA [(1, [0x5000])]
def atCopy : State := stands cLeaf 0xB [(1, [0x5000]), (2, [0x6000]), (3, [2 ^ 40])]
def atCopyDone : State := stands kLeaf 0xB [(1, [0x5000]), (2, [0x6000]), (3, [8]), (4, [0x7000, 1])]
def atBind : State := stands cLeaf 0xC [(1, [63]), (2, [0x5000]), (3, [12]), (4, [0x1000])]
def atUnknown : State := stands cLeaf 0xD []
def atFetchFault : State := { ring cLeaf (fun q => { q with stream := { q.stream with levels := { base := 2 ^ 21 - 8, size := 64, next := 0 } :: q.stream.levels } }) [] with
  mem := ((ring cLeaf id []).mem.wrN (2 ^ 21 - 8) (toBytesLE 8 (5 + 7 * 2 ^ 16))) }

theorem witness_PacketResults_skipped :
    Skipped atSkipped 1 True := ⟨atPacket_of _ (by decide +kernel), by decide +kernel⟩

theorem witness_PacketResults_skippedLoop :
    Skipped atSkippedLoop 6 (1 ≤ (rOf atSkippedLoop).2.get 2 ∧ (rOf atSkippedLoop).2.get 2 ≤ 128) := ⟨atPacket_of _ (by decide +kernel), by decide +kernel⟩

theorem witness_PacketResults_nop :
    Met atNop 1 True := met_of (by decide +kernel) (by decide +kernel) (by decide +kernel)

theorem witness_PacketResults_launch :
    Met atLaunch 2 (∃ l, (atLaunch.fill 0x1000).launchOf (qOf atLaunch) (rOf atLaunch).2 (qOf atLaunch).prio (qOf atLaunch).prio = .ok l) := met_of (by decide +kernel) (by decide +kernel) ((got_some _).mpr (by decide +kernel))

theorem witness_PacketResults_wait :
    Met atWait 3 ((atWait.fill 0x1000).vCounter (qOf atWait).atp ((rOf atWait).2.get 1) false = .ok 0x5000) := met_of (by decide +kernel) (by decide +kernel) (by simp only [got_iff]; decide +kernel)

theorem witness_PacketResults_signal :
    Met atSignal 4 ((atSignal.fill 0x1000).vCounter (qOf atSignal).atp ((rOf atSignal).2.get 1) true = .ok 0x5000 ∧ atSignal.rslots = [] ∧ 0x1100 ≤ 0x5000 ∧ (qOf atSignal).stream.record = 0) := met_of (by decide +kernel) (by decide +kernel) (by simp only [got_iff]; decide +kernel)

theorem witness_PacketResults_pred :
    Met atPred 5 ((rOf atPred).2.get 1 % 8 = 0 ∧ (rOf atPred).2.get 3 ≤ 5 ∧ (atPred.fill 0x1000).vNum (qOf atPred).atp ((rOf atPred).2.get 1) 8 = .ok 0) := met_of (by decide +kernel) (by decide +kernel) (by simp only [got_iff]; decide +kernel)

theorem witness_PacketResults_loop :
    Met atLoop 6 (1 ≤ (rOf atLoop).2.get 1 ∧ (rOf atLoop).2.get 1 ≤ 65535 ∧ 1 ≤ (rOf atLoop).2.get 2 ∧ (rOf atLoop).2.get 2 ≤ 128 ∧ (qOf atLoop).stream.loops.length < 2 ∧ (qOf atLoop).stream.bound = none) := met_of (by decide +kernel) (by decide +kernel) (by decide +kernel)

theorem witness_PacketResults_call :
    Met atCall 7 ((qOf atCall).stream.levels ≠ [] ∧ (rOf atCall).2.get 1 % 8 = 0 ∧ 1 ≤ (rOf atCall).2.get 2 ∧ (rOf atCall).2.get 2 ≤ 2 ^ 24 ∧ (qOf atCall).stream.depth < 4) := met_of (by decide +kernel) (by decide +kernel) (by decide +kernel)

theorem witness_PacketResults_callTooDeep :
    Met atCallTooDeep 7 ((rOf atCallTooDeep).2.get 1 % 8 = 0 ∧ 1 ≤ (rOf atCallTooDeep).2.get 2 ∧ (rOf atCallTooDeep).2.get 2 ≤ 2 ^ 24 ∧ 4 ≤ (qOf atCallTooDeep).stream.depth ∧ (qOf atCallTooDeep).parking = false) := met_of (by decide +kernel) (by decide +kernel) (by decide +kernel)

theorem witness_PacketResults_ret :
    Met atRet 8 (1 ≤ (qOf atRet).stream.depth ∧ (qOf atRet).stream.inner (qOf atRet).stream.next = none ∧ (qOf atRet).stream.top.call ≠ none ∧ (qOf atRet).stream.started = [] ∧ (qOf atRet).stream.record = 0) := met_of (by decide +kernel) (by decide +kernel) (by decide +kernel)

theorem witness_PacketResults_retOutside :
    Met atRetOutside 8 ((qOf atRetOutside).stream.depth = 0 ∧ (qOf atRetOutside).parking = false) := met_of (by decide +kernel) (by decide +kernel) (by decide +kernel)

theorem witness_PacketResults_ffence :
    Met atFfence 9 True := met_of (by decide +kernel) (by decide +kernel) (by decide +kernel)

theorem witness_PacketResults_mark :
    Met atMark 0xA ((rOf atMark).2.get 1 % 32 = 0 ∧ ((rOf atMark).2.opt 1).getD (qOf atMark).stream.record = 0x5000 ∧ (qOf atMark).stream.started = [] ∧ (atMark.fill 0x1000).walk none (qOf atMark).atp 0x5000 true true = .ok { firstPage with glob := false } ∧ firstPage.attr ≠ .K ∧ firstPage.phys 0x5000 = 0x5000 ∧ 0x1100 ≤ 0x5000 ∧
       atMark.rslots = [] ∧ (qOf atMark).progress = 0 ∧ (qOf atMark).stream.depth = 0) := met_of (by decide +kernel) (by decide +kernel) (by decide +kernel)

theorem witness_PacketResults_copy :
    Met atCopy 0xB ((rOf atCopy).2.get 1 % 8 = 0 ∧ (rOf atCopy).2.get 2 % 8 = 0 ∧ 1 ≤ (rOf atCopy).2.get 3 ∧ (rOf atCopy).2.get 3 ≤ 2 ^ 40 ∧ (rOf atCopy).2.has 4 = false) := met_of (by decide +kernel) (by decide +kernel) (by decide +kernel)

theorem witness_PacketResults_copyDone :
    Met atCopyDone 0xB ((rOf atCopyDone).2.get 1 % 8 = 0 ∧ (rOf atCopyDone).2.get 2 % 8 = 0 ∧ 1 ≤ (rOf atCopyDone).2.get 3 ∧ (rOf atCopyDone).2.has 4 = true ∧
       (atCopyDone.fill 0x1000).vCounter (qOf atCopyDone).atp (nth 0 ((rOf atCopyDone).2.data 4) 0) true = .ok 0x7000) := met_of (by decide +kernel) (by decide +kernel) (by simp only [got_iff]; decide +kernel)

theorem witness_PacketResults_bind :
    Met atBind 0xC ((qOf atBind).binds.length = 64 ∧ (rOf atBind).2.get 1 < 64 ∧ (rOf atBind).2.get 3 < 256 ∧ (rOf atBind).2.get 4 / 2 ^ 56 = 0 ∧
       (bindOf ((rOf atBind).2.get 2) ((rOf atBind).2.get 4 + 2 ^ 56 * (rOf atBind).2.get 3)).isSome = true) := met_of (by decide +kernel) (by decide +kernel) (by decide +kernel)

theorem witness_PacketResults_unknown :
    Met atUnknown 0xD (12 < 0xD) := met_of (by decide +kernel) (by decide +kernel) (by decide +kernel)

theorem witness_PacketResults_badPacket :
    (∀ w ∈ [0, 1 + 2 ^ 15 + 2 ^ 16], let s := ring cLeaf id [w]
     (s.conts.find? 0x1000).map (fun q => (q.streaming, q.stream.headReady, q.stream.live, q.parking)) = some (true, true, 0, false) ∧
      (s.fill 0x1000).conts.find? 0x1000 = some (qOf s) ∧ finds s (.bad w (decide (w ≠ 0))) = true) := by decide +kernel

theorem witness_PacketResults_fetchFault :
    (atFetchFault.conts.find? 0x1000).map (fun q => (q.streaming, q.stream.headReady, q.stream.live, q.parking)) = some (true, true, 1, false) ∧
      (atFetchFault.fill 0x1000).conts.find? 0x1000 = some (qOf atFetchFault) ∧ finds atFetchFault (.fault (2 ^ 21) (some (5 + 7 * 2 ^ 16))) = true := by decide +kernel


end Sys2Proof.Tests
end

