-- ==== Sys2Proof/Tests/WitnessModule.lean ====
section
/-! SUPPORT. Witnesses: for each statement a concrete state and operands that meet its hypotheses, clause by clause, at the ends of
the ranges where a clause has one: the other steps of a stream, the module, and the memory's form. -/
namespace Sys2Proof.Tests
set_option Elab.async false
open Sys2Proof.Machine

/-! ### The steps of a stream that are no packet -/

/-- The paged desk whose stream `f` changes. -/
def streamed (leaf : Nat) (f : Stream → Stream) (words : List Nat) : State := ring leaf (fun q => { q with stream := f q.stream }) words

/-- A COPY of 16 bytes from 0x5000 to 0x6000 with a DONE add, of which `n` bytes are moved. -/
def moving (n : Nat) : Started := { ty := 0xB, tag := 1, depth := 0, off := 0, hdr := 0, over' := true, src := 0x5000, dst := 0x6000, len := 16, pos := n, donePa := some 0x7000, amount := 2 }

/-- A WAIT for 5 at 0x5000 with a limit. -/
def waitsFor (n : Nat) : Started := { ty := 3, tag := 1, depth := 0, off := 0, hdr := 0, over' := false, src := 0x5000, dst := n, len := 7 }

theorem witness_StreamEventResults :
    (let s := streamed cLeaf (fun t => { t with levels := { base := 0x6000, size := 0, next := 0, call := some (moving 0) } :: t.levels }) []
     (s.conts.find? 0x1000).map (fun q => (q.streaming, q.stream.headReady, q.stream.top.call, q.stream.started, q.stream.record)) = some (true, true, some (moving 0), [], 0) ∧
      (match (s.conts.find? 0x1000).map s.look with | some .ret => true | _ => false) = true) ∧
    (let s := streamed cLeaf id [1 + 2 ^ 16]
     (s.conts.find? 0x1000).map (fun q => (q.streaming, q.stream.loops, q.stream.capturing, q.stream.next, s.fetchEnd q)) = some (true, [], false, 0, 1) ∧
      (match (s.conts.find? 0x1000).map (fun q => s.pktWord q 0) with | some (.ok w) => w | _ => 0) = 1 + 2 ^ 16) ∧
    (let s := { (streamed cLeaf id [1]).modCont 0x1000 (fun q => { q with sbase := 2 ^ 21 }) with launches := [] }
     (s.conts.find? 0x1000).map (fun q => (q.streaming, q.stream.loops, q.stream.capturing)) = some (true, [], false) ∧
      (s.conts.find? 0x1000).map (fun q => (q.stream.headReady, q.parking, q.stream.window.find? q.stream.next)) = some (true, false, none) ∧
      (match (s.conts.find? 0x1000).map (fun q => (decide (q.stream.next < s.fetchEnd q), s.pktWord q q.stream.next)) with | some (b, .fault a) => b && a == 2 ^ 21 | _ => false) = true) ∧
    (let s := streamed cLeaf (fun t => { t with refill := true }) []
     (s.conts.find? 0x1000).map (fun q => (q.streaming, q.stream.refill)) = some (true, true)) ∧
    (∀ n ∈ [0, 5], let s := { streamed kLeaf (fun t => { t with started := [waitsFor n], waiting := true }) [] with cyc := 7 }
     (s.conts.find? 0x1000).map (fun q => (q.streaming, q.stream.wait?, q.stream.started, q.stream.record)) = some (true, some (waitsFor n), [waitsFor n], 0) ∧
      (n = 0 → (waitsFor n).dst ≤ s.mem.num (waitsFor n).src 8) ∧ (n = 5 → s.mem.num (waitsFor n).src 8 < (waitsFor n).dst ∧ (waitsFor n).len ≠ 0 ∧ (waitsFor n).len ≤ s.cyc)) ∧
    (let s := { streamed cLeaf (fun t => { t with started := [moving 0] }) [] with agenda := [.hubCopy 0x1000] }
     s.agenda = [.hubCopy 0x1000] ∧ (s.conts.find? 0x1000).map (fun q => (q.stream.started.find? Started.moving, s.copyNext q (moving 0))) = some (some (moving 0), .move 0 16 0x5000 0x6000) ∧
      overlapOf ((moving 0).dst + (moving 0).pos) 16 (moving 0).src (moving 0).len = none ∧ s.rslots = []) ∧
    (let s := streamed cLeaf (fun t => { t with started := [moving 16] }) []
     (s.conts.find? 0x1000).map (fun q => (q.st, q.stream.started, q.stream.record)) = some (.running, [moving 16], 0) ∧ (moving 16).full = true ∧ s.rslots = [] ∧ 0x1100 ≤ 0x7000) ∧
    (let x : Started := { moving 0 with src := 2 ^ 56 }
     let s := streamed cLeaf (fun t => { t with started := [x] }) []
     (s.conts.find? 0x1000).map (fun q => (q.st, q.parking, q.stream.started.find? Started.moving)) = some (.running, false, some x) ∧
      (s.conts.find? 0x1000).map (fun q => s.copyNext q x) = some (.fault cADDRESS_RANGE (2 ^ 56))) ∧
    -- a source whose region is the other side's
    (let s := { streamed cLeaf (fun t => { t with started := [moving 0] }) [] with agenda := [.hubCopy 0x1000], regions := [] }
     (s.conts.find? 0x1000).map (fun q => s.copyNext q (moving 0)) = some (.wait 0x5000 0x5000)) := by
  refine ⟨?_, ?_, ?_, ?_, ?_, ?_, ?_, ?_, ?_⟩ <;> decide +kernel

/-! ### The module, and the canonical form -/

/-- The desk with an update in a state. -/
def updating (u : ImgSt) : State := desk.modMod (fun m => { m with upd := u, imageGen := 1 })

theorem witness_ModuleEventResults :
    (∀ u ∈ [ImgSt.none, .active, .rejected, .receiving, .verified, .staged, .activating], (updating u).mod.slots.length = 2 ∧ (updating u).mod.activeSlot < 2 ∧ (updating u).mod.updSlot < 2 ∧
      (updating u).mod.upd = u) ∧
    (([] : List Byte).length < 256) ∧
    (let s := { updating .activating with clusters := [(0, { home := some 0, cur := some 0 })], cyc := 63 }
     s.switchDue 0 = true ∧ s.switchDue 21 = (clusterCores 0).contains 21) ∧
    (let s := updating .none
     s.mod.restart.bootSlot = some 0 ∧ s.mod.ckpt = none ∧ s.plan.parts.map PlanPart.part = [] ∧ (s.modMod (fun m => { m with minSvn := 1 })).mod.restart.bootSlot = none) ∧
    (let g : Ckpt := { gen := 3, conts := [{ cont := { block := 0x1000, st := .running }, post := 0, owner := 0, launches := [], ests := [], pages := [] }] }
     let s := { desk.modMod (fun m => { m with ckpt := some g }) with plan := { desk.plan with parts := [{ part := 15, rprio := 7, clusters := [], hard := true }] } }
     s.mod.ckpt = some g ∧ s.mod.restart.bootSlot = some 0 ∧ (s.plan.parts.find? (fun (y : PlanPart) => decide (y.part = 15))).map PlanPart.rprio = some 7) ∧
    (desk.modMod (fun m => m.setSlot 0 { m.slot 0 with digest := [1] })).mod.slot (0 : Nat) ≠ {} ∧
    15 < 16 ∧ desk.mod.serial < 2 ^ 32 ∧ desk.mod.cap = 3000 ∧ desk.mod.below < 9 ∧ (desk.modMod (fun m => { m with below := 9, throttle := some 6 })).mod.throttle = some 6 := by
  refine ⟨?_, ?_, ?_, ?_, ?_, ?_⟩ <;> decide +kernel

theorem witness_MemoryKeepsItsForm : desk.memWf = true := by decide +kernel

end Sys2Proof.Tests
end

/-! ### The continuation engine's operations and events

SUPPORT, and the proof of O55. The engine writes its blocks back to memory while harts wait inside its instructions. First what a write to
memory (R370, R371) leaves of the hub, then one rule for each operation of the engine, then one for each event. -/

/-! #### Tables -/

namespace Sys2Proof.Tab

/-- A table whose values change keeps its keys, and finds what it found, changed. -/
theorem find?_map_value {α : Type} (t : Tab α) (f : α → α) (n : Nat) : find? (t.map (fun p => (p.1, f p.2))) n = (t.find? n).map f := by
  induction t with
  | nil => rfl
  | cons e t ih =>
    obtain ⟨k, v⟩ := e
    simp only [List.map_cons, find?]
    split
    · rfl
    · exact ih

/-- What an updated table holds is an old entry, or the changed one. -/
theorem mem_upd {α : Type} {t : Tab α} {n : Nat} {f : α → α} {p : Nat × α} (h : p ∈ t.upd n f) : p ∈ t ∨ ∃ x, (n, x) ∈ t ∧ p = (n, f x) := by
  induction t with
  | nil => simp [upd] at h
  | cons e t ih =>
    obtain ⟨k, v⟩ := e
    simp only [upd] at h
    split at h
    · next hk =>
      subst hk
      rcases List.mem_cons.1 h with rfl | h
      · exact .inr ⟨v, by simp, rfl⟩
      · exact .inl (by simp [h])
    · rcases List.mem_cons.1 h with rfl | h
      · exact .inl (by simp)
      · rcases ih h with h | ⟨x, hx, rfl⟩
        · exact .inl (by simp [h])
        · exact .inr ⟨x, by simp [hx], rfl⟩

theorem mem_of_find? {α : Type} {t : Tab α} {n : Nat} {x : α} (h : t.find? n = some x) : (n, x) ∈ t := by
  induction t with
  | nil => simp [find?] at h
  | cons e t ih =>
    obtain ⟨k, v⟩ := e
    simp only [find?] at h
    split at h
    · next hk => subst hk; cases h; exact List.mem_cons_self
    · exact List.mem_cons_of_mem _ (ih h)

/-- Changing the entries of distinct keys, each once. -/
theorem find?_foldl_upd {α : Type} (f : α → α) {l : List Nat} (nodup : l.Nodup) (t : Tab α) (k : Nat) :
    find? (l.foldl (fun t k => upd t k f) t) k = if k ∈ l then (t.find? k).map f else t.find? k := by
  induction l generalizing t with
  | nil => simp
  | cons j l ih =>
    rw [List.nodup_cons] at nodup
    rw [List.foldl_cons, ih nodup.2]
    by_cases e : j = k
    · subst e
      simp [nodup.1]
    · simp [find?_upd_other t f e, Ne.symm e]

end Sys2Proof.Tab

namespace Sys2Proof.Machine

/-! #### Writes to memory -/

/-- The harts stand as they did, but for reservations that they may have lost. -/
structure HartsStay (s t : State) : Prop where
  keys : t.harts.map Prod.fst = s.harts.map Prod.fst
  hart : ∀ h, t.hart h = { s.hart h with resv := (t.hart h).resv }

theorem HartsStay.refl (s : State) : HartsStay s s := ⟨rfl, fun _ => rfl⟩

theorem HartsStay.trans {s t u : State} (a : HartsStay s t) (b : HartsStay t u) : HartsStay s u :=
  ⟨b.keys.trans a.keys, fun h => by rw [b.hart h, a.hart h]⟩

/-- What a write to memory leaves of the hub: all but memory, the directories and the agenda; a hart may lose its reservation. -/
structure HubStays (s t : State) : Prop extends HartsStay s t where
  cyc : t.cyc = s.cyc
  mod : t.mod = s.mod
  conts : t.conts = s.conts
  launches : t.launches = s.launches
  cores : t.cores = s.cores
  parts : t.parts = s.parts

theorem HubStays.refl (s : State) : HubStays s s := ⟨.refl s, rfl, rfl, rfl, rfl, rfl, rfl⟩

theorem HubStays.trans {s t u : State} (a : HubStays s t) (b : HubStays t u) : HubStays s u where
  cyc := b.cyc.trans a.cyc
  mod := b.mod.trans a.mod
  conts := b.conts.trans a.conts
  launches := b.launches.trans a.launches
  cores := b.cores.trans a.cores
  parts := b.parts.trans a.parts
  toHartsStay := a.toHartsStay.trans b.toHartsStay

/-- A list of such writes leaves it too. -/
theorem HubStays.foldl {α : Type} {f : State → α → State} (hf : ∀ s x, HubStays s (f s x)) (l : List α) (s : State) : HubStays s (l.foldl f s) :=
  List.foldlRecOn l f (motive := HubStays s) (.refl s) (fun t ht x _ => ht.trans (hf t x))

/-- An operation that changes no field of the hub. -/
theorem HubStays.of_eq {s t : State} (cyc : t.cyc = s.cyc) (mod : t.mod = s.mod) (conts : t.conts = s.conts) (launches : t.launches = s.launches)
    (cores : t.cores = s.cores) (parts : t.parts = s.parts) (harts : t.harts = s.harts) : HubStays s t :=
  ⟨⟨congrArg _ harts, fun h => by simp only [State.hart, harts]⟩, cyc, mod, conts, launches, cores, parts⟩

theorem State.writeTentative_hub (s : State) (k : Nat) : HubStays s (s.writeTentative k) := by
  unfold State.writeTentative
  split
  · exact (HubStays.foldl (f := fun (s : State) ((pa, b) : Nat × Byte) => s.wrMem pa [b]) (fun _ _ => .of_eq rfl rfl rfl rfl rfl rfl rfl) _ s).trans
      (.of_eq rfl rfl rfl rfl rfl rfl rfl)
  · exact .refl s

theorem State.abortRegion_hub (s : State) (k cause : Nat) : HubStays s (s.abortRegion k cause) := by
  unfold State.abortRegion
  split
  · split
    · exact .of_eq rfl rfl rfl rfl rfl rfl rfl
    · exact .refl s
  · exact .refl s

/-- A hart without its reservation, if that meets a condition. -/
def Hart.dropResv (f : Nat → Bool) (x : Hart) : Hart := if x.resv.any f then { x with resv := none } else x

theorem State.hart_loseResv (s : State) (f : Nat → Bool) (h : Nat) : (s.loseResv f).hart h = (s.hart h).dropResv f := by
  have e : (s.loseResv f).harts.find? h = (s.harts.find? h).map (Hart.dropResv f) := Tab.find?_map_value s.harts (Hart.dropResv f) h
  simp only [State.hart, Tab.getD, e]
  cases s.harts.find? h <;> rfl

theorem State.loseResv_hub (s : State) (f : Nat → Bool) : HubStays s (s.loseResv f) where
  cyc := rfl
  mod := rfl
  conts := rfl
  launches := rfl
  cores := rfl
  parts := rfl
  keys := by simp [State.loseResv, Function.comp_def]
  hart h := by
    rw [State.hart_loseResv, Hart.dropResv]
    split <;> rfl

theorem State.unlockLines_hub (s : State) (ls : List Nat) : HubStays s (s.unlockLines ls) :=
  .foldl (f := fun (s : State) (k : Nat) => (s.writeTentative k).soon [.event (.regionLinesWritten k)])
    (fun s k => (s.writeTentative_hub k).trans (.of_eq rfl rfl rfl rfl rfl rfl rfl)) _ _

theorem State.conflictStore_hub (s : State) (ls : List Nat) : HubStays s (s.conflictStore ls) :=
  .foldl (fun s k => s.abortRegion_hub k 0x1E) _ _

theorem State.storeMem_hub (s : State) (pa : Nat) (bs : List Byte) : HubStays s (s.storeMem pa bs) :=
  let ls := linesOf pa bs.length
  let t := (s.unlockLines ls).conflictStore ls
  have written : HubStays t (t.wrMem pa bs) := .of_eq rfl rfl rfl rfl rfl rfl rfl
  (((s.unlockLines_hub ls).trans (State.conflictStore_hub _ ls)).trans written).trans (State.loseResv_hub _ ls.contains)

theorem State.putNum_hub (s : State) (pa v : Nat) : HubStays s (s.putNum pa v) := s.storeMem_hub pa _

theorem State.syncBlock_hub (s : State) (k : Nat) : HubStays s (s.syncBlock k) := by
  unfold State.syncBlock
  split
  · exact .foldl (f := fun (s : State) ((o, v) : Nat × Nat) => s.putNum (k + o) v) (fun s p => s.putNum_hub (k + p.1) p.2) _ s
  · exact .refl s

/-- The bytes written are what memory holds at their place, whatever a commit that was let through wrote. -/
theorem State.storeMem_mem (s : State) (pa : Nat) (bs : List Byte) : ∃ m : Mem, (s.storeMem pa bs).mem = m.wrN pa bs :=
  ⟨((s.unlockLines (linesOf pa bs.length)).conflictStore (linesOf pa bs.length)).mem, rfl⟩

/-! #### Writes that meet no locked region -/

theorem State.abortRegion_mem (s : State) (k cause : Nat) : (s.abortRegion k cause).mem = s.mem := by
  unfold State.abortRegion
  split
  · split <;> rfl
  · rfl

/-- An abort locks nothing: the region is ABORTING. -/
theorem State.unlocked_abortRegion {s : State} (h : s.unlocked) (k cause : Nat) : (s.abortRegion k cause).unlocked := by
  unfold State.abortRegion
  split
  · split
    · intro p hp
      rcases Tab.mem_upd hp with hp | ⟨x, -, rfl⟩
      · exact h p hp
      · simp [RSlot.locked]
    · exact h
  · exact h

theorem State.unlockLines_of_unlocked {s : State} (h : s.unlocked) (ls : List Nat) : s.unlockLines ls = s := by
  have noSlot : s.slotsWith (fun r => r.locked && ls.any r.writes) = [] := by
    simp only [State.slotsWith, List.map_eq_nil_iff, List.filter_eq_nil_iff]
    intro p hp
    simp [h p hp]
  rw [State.unlockLines, noSlot, List.foldl_nil]

/-- A write that meets no locked region writes its bytes and no others, and locks none. -/
theorem State.storeMem_of_unlocked {s : State} (h : s.unlocked) (pa : Nat) (bs : List Byte) :
    (s.storeMem pa bs).mem = s.mem.wrN pa bs ∧ (s.storeMem pa bs).unlocked := by
  have keeps : (s.conflictStore (linesOf pa bs.length)).mem = s.mem ∧ (s.conflictStore (linesOf pa bs.length)).unlocked :=
    List.foldlRecOn _ _ (motive := fun t : State => t.mem = s.mem ∧ t.unlocked) ⟨rfl, h⟩
      (fun t ht k _ => ⟨(t.abortRegion_mem k 0x1E).trans ht.1, State.unlocked_abortRegion ht.2 k 0x1E⟩)
  have e : s.storeMem pa bs = ((s.conflictStore (linesOf pa bs.length)).wrMem pa bs).loseResv (linesOf pa bs.length).contains := by
    rw [State.storeMem, State.unlockLines_of_unlocked h]
  rw [e]
  exact ⟨congrArg (fun m : Mem => m.wrN pa bs) keeps.1, keeps.2⟩

/-! #### Numbers in memory (R2) -/

theorem ofBytesLE_toBytesLE (k n : Nat) : ofBytesLE (toBytesLE k n) = n % 2 ^ (8 * k) := by
  induction k generalizing n with
  | zero => simp [toBytesLE, ofBytesLE, Nat.mod_one]
  | succ k ih =>
    have e : 2 ^ (8 * (k + 1)) = 256 * 2 ^ (8 * k) := by rw [Nat.mul_succ, Nat.pow_add]; omega
    rw [toBytesLE, ofBytesLE, ih, e, Nat.mod_mul]
    simp

@[simp] theorem length_toBytesLE (k n : Nat) : (toBytesLE k n).length = k := by
  induction k generalizing n with
  | zero => rfl
  | succ k ih => simp [toBytesLE, ih]

theorem Mem.rdN_wrN (m : Mem) (a : Nat) (bs : List Byte) : (m.wrN a bs).rdN a bs.length = bs := by
  induction bs generalizing m a with
  | nil => rfl
  | cons b t ih =>
    rw [Mem.wrN, List.length_cons, Mem.rdN, ih, Mem.rd_wrN_other _ _ _ _ (by omega), Mem.rd_wr_same]

theorem Mem.num_wrN (m : Mem) (a k n : Nat) : (m.wrN a (toBytesLE k n)).num a k = n % 2 ^ (8 * k) := by
  have := m.rdN_wrN a (toBytesLE k n)
  rw [length_toBytesLE] at this
  rw [Mem.num, this, ofBytesLE_toBytesLE]

/-- A word that the engine writes reads back. -/
theorem State.num_putNum (s : State) (pa v : Nat) : (s.putNum pa v).mem.num pa 8 = v % 2 ^ 64 := by
  obtain ⟨m, e⟩ := s.storeMem_mem pa (toBytesLE 8 v)
  rw [State.putNum, e, Mem.num_wrN]

/-! #### A continuation that changes and is written back (R75, R76) -/

theorem State.setCont_hub (s : State) (k : Nat) (f : Cont → Cont) : HubStays (s.modCont k f) (s.setCont k f) := State.syncBlock_hub _ k

@[simp] theorem State.setCont_conts (s : State) (k : Nat) (f : Cont → Cont) : (s.setCont k f).conts = s.conts.upd k f := (s.setCont_hub k f).conts
@[simp] theorem State.setCont_cyc (s : State) (k : Nat) (f : Cont → Cont) : (s.setCont k f).cyc = s.cyc := (s.setCont_hub k f).cyc
@[simp] theorem State.setCont_mod (s : State) (k : Nat) (f : Cont → Cont) : (s.setCont k f).mod = s.mod := (s.setCont_hub k f).mod
@[simp] theorem State.setCont_launches (s : State) (k : Nat) (f : Cont → Cont) : (s.setCont k f).launches = s.launches := (s.setCont_hub k f).launches
@[simp] theorem State.setCont_cores (s : State) (k : Nat) (f : Cont → Cont) : (s.setCont k f).cores = s.cores := (s.setCont_hub k f).cores
theorem State.setCont_harts (s : State) (k : Nat) (f : Cont → Cont) : HartsStay s (s.setCont k f) := ⟨(s.setCont_hub k f).keys, (s.setCont_hub k f).hart⟩

/-! #### Harts that wait inside an instruction (R94, R96) -/

@[simp] theorem State.hartDone_conts (s : State) (h rd : Nat) (v : Word) : (s.hartDone h rd v).conts = s.conts := rfl

theorem State.hart_hartDone_other (s : State) {h j : Nat} (rd : Nat) (v : Word) (e : h ≠ j) : (s.hartDone h rd v).hart j = s.hart j :=
  State.hart_setHart_other s _ e

theorem Hart.rd_wr (x : Hart) (r : Nat) (v : Word) (h0 : 0 < r) (h : r < 32) : (x.wr r v).rd r = v := by
  have : r ≠ 0 := by omega
  simp only [Hart.wr, Hart.rd, this, if_false]
  exact rget_rset_same _ _ _ _ h

/-- Register x0 aside, the instruction of hart `h`, read as `x`, has ended with value `v` in `rd`. -/
def State.HartEnded (t : State) (h : Nat) (x : Hart) (rd : Nat) (v : Word) : Prop :=
  (t.hart h).pc = x.pc + 4 ∧ (t.hart h).wait = .none ∧ (0 < rd → rd < 32 → (t.hart h).rd rd = v)

theorem State.hartDone_ended (s : State) (h rd : Nat) (v : Word) : (s.hartDone h rd v).HartEnded h (s.hart h) rd v := by
  simp only [State.HartEnded, State.hartDone, State.hart_setHart, true_and]
  exact (s.hart h).rd_wr rd v

/-- A hart whose wait `sel` picks ends its instruction with the value that it says. -/
def State.endHart (s : State) (sel : Module → HWait → Option (Nat × Word)) (p : Nat × Hart) : State :=
  match sel s.mod p.2.wait with | some (rd, v) => s.hartDone p.1 rd v | none => s

/-- So do the harts of a list, one after the other. -/
def State.endHarts (s : State) (sel : Module → HWait → Option (Nat × Word)) (l : List (Nat × Hart)) : State :=
  l.foldl (fun (s : State) (p : Nat × Hart) => s.endHart sel p) s

section
variable {sel : Module → HWait → Option (Nat × Word)} {l : List (Nat × Hart)}

theorem State.endHarts_cons (s : State) (p : Nat × Hart) : s.endHarts sel (p :: l) = (s.endHart sel p).endHarts sel l := rfl

theorem State.hart_endHart_other (s : State) {p : Nat × Hart} {h : Nat} (e : p.1 ≠ h) : (s.endHart sel p).hart h = s.hart h := by
  unfold State.endHart
  split
  · exact State.hart_hartDone_other s _ _ e
  · rfl

theorem State.endHart_mod (s : State) (p : Nat × Hart) : (s.endHart sel p).mod = s.mod := by
  unfold State.endHart
  split <;> rfl

theorem State.endHart_ended (s : State) {h rd : Nat} {x : Hart} {v : Word} (hv : sel s.mod x.wait = some (rd, v)) :
    (s.endHart sel (h, x)).HartEnded h (s.hart h) rd v := by
  simp only [State.endHart, hv]
  exact s.hartDone_ended h rd v

/-- Ending the instructions of harts changes harts only. -/
theorem State.endHarts_same {α : Type} (p : State → α) (hp : ∀ s h rd v, p (s.hartDone h rd v) = p s) (s : State) : p (s.endHarts sel l) = p s :=
  List.foldlRecOn l _ (motive := fun t => p t = p s) rfl (fun t ht x _ => by
    unfold State.endHart
    split
    · exact (hp ..).trans ht
    · exact ht)

theorem State.endHarts_conts (s : State) : (s.endHarts sel l).conts = s.conts := s.endHarts_same State.conts fun _ _ _ _ => rfl
theorem State.endHarts_mod (s : State) : (s.endHarts sel l).mod = s.mod := s.endHarts_same State.mod fun _ _ _ _ => rfl

theorem State.hart_endHarts_other (s : State) {h : Nat} (hl : h ∉ l.map Prod.fst) : (s.endHarts sel l).hart h = s.hart h := by
  induction l generalizing s with
  | nil => rfl
  | cons p l ih =>
    simp only [List.map_cons, List.mem_cons, not_or] at hl
    rw [endHarts_cons, ih _ hl.2, State.hart_endHart_other _ (Ne.symm hl.1)]

/-- Where each hart stands once in the list, one whose wait is picked has ended its instruction. -/
theorem State.endHarts_ended (s : State) {h rd : Nat} {x : Hart} {v : Word} (nodup : (l.map Prod.fst).Nodup) (hx : (h, x) ∈ l)
    (hv : sel s.mod x.wait = some (rd, v)) : (s.endHarts sel l).HartEnded h (s.hart h) rd v := by
  induction l generalizing s with
  | nil => simp at hx
  | cons p l ih =>
    simp only [List.map_cons, List.nodup_cons] at nodup
    rw [endHarts_cons]
    rcases List.mem_cons.1 hx with rfl | hx
    · simp only [State.HartEnded, State.hart_endHarts_other _ nodup.1]
      exact s.endHart_ended hv
    · have ne : p.1 ≠ h := fun e => nodup.1 (e ▸ List.mem_map_of_mem hx)
      rw [← s.hart_endHart_other (sel := sel) ne]
      exact ih _ nodup.2 hx ((s.endHart_mod p).symm ▸ hv)

end

/-- A hart that waits stands in the table. -/
theorem State.hart_mem {s : State} {h : Nat} (w : (s.hart h).wait ≠ .none) : (h, s.hart h) ∈ s.harts := by
  cases e : s.harts.find? h with
  | none => simp [State.hart, Tab.getD, e] at w
  | some x =>
    have : s.hart h = x := by simp [State.hart, Tab.getD, e]
    rw [this]
    exact Tab.mem_of_find? e

/-- A hart that waits goes on waiting through a write-back. -/
theorem HartsStay.wait {s t : State} (st : HartsStay s t) (h : Nat) : (t.hart h).wait = (s.hart h).wait := by rw [st.hart h]

/-- What has ended counts from the pc before the write-back too. -/
theorem HartsStay.ended {s t u : State} (st : HartsStay s t) {h rd : Nat} {v : Word} (e : u.HartEnded h (t.hart h) rd v) : u.HartEnded h (s.hart h) rd v := by
  obtain ⟨hpc, rest⟩ := e
  refine ⟨hpc.trans ?_, rest⟩
  rw [st.hart h]

/-! #### Attention (R86, R161) -/

/-- An interrupt changes a hart and the agenda only. -/
theorem State.raiseAttention_same {α : Type} (p : State → α) (hs : ∀ s h x, p (s.setHart h x) = p s) (ha : ∀ s ts, p (s.soon ts) = p s) (s : State) (n : Nat) :
    p (s.raiseAttention n) = p s := by
  unfold State.raiseAttention
  simp only
  split
  · split
    · rw [ha, hs]
    · rw [hs]
  · rfl

theorem State.raiseAttention_conts (s : State) (p : Nat) : (s.raiseAttention p).conts = s.conts := State.raiseAttention_same State.conts (fun _ _ _ => rfl) (fun _ _ => rfl) s p
theorem State.raiseAttention_parts (s : State) (p : Nat) : (s.raiseAttention p).parts = s.parts := State.raiseAttention_same State.parts (fun _ _ _ => rfl) (fun _ _ => rfl) s p
theorem State.raiseAttention_mem (s : State) (p : Nat) : (s.raiseAttention p).mem = s.mem := State.raiseAttention_same State.mem (fun _ _ _ => rfl) (fun _ _ => rfl) s p

/-- Interrupt 20 is pending on a hart. -/
def State.attended (s : State) (h : Nat) : Prop := (s.hart h).sipBits.getLsbD 20 = true

/-- An interrupt is raised on the steering hart, where one is named; no other is taken away. -/
theorem State.attended_raiseAttention (s : State) (p h : Nat) (hh : s.attended h ∨ ((s.part p).hart = h ∧ h < 192)) : (s.raiseAttention p).attended h := by
  have other (w : State) (n : Nat) (hw : w.attended h) : (w.setHart n { (w.hart n) with sipBits := (w.hart n).sipBits ||| BitVec.ofNat 64 (2 ^ 20) }).attended h := by
    unfold State.attended at hw ⊢
    by_cases e : n = h
    · subst e; simp
    · rw [State.hart_setHart_other _ _ e]; exact hw
  unfold State.raiseAttention
  simp only
  split
  · next hlt =>
    have key : (s.setHart (s.part p).hart { (s.hart (s.part p).hart) with
        sipBits := (s.hart (s.part p).hart).sipBits ||| BitVec.ofNat 64 (2 ^ 20) }).attended h := by
      rcases hh with hh | ⟨rfl, -⟩
      · exact other s _ hh
      · simp [State.attended]
    split <;> exact key
  · next hge =>
    rcases hh with hh | ⟨rfl, hlt⟩
    · exact hh
    · exact absurd hlt hge

theorem State.hart_modPart (s : State) (p : Nat) (f : Part → Part) (h : Nat) : (s.modPart p f).hart h = s.hart h := rfl

/-- An attention entry `v` is written at `pa`, the next place of the ring; `rest` waits behind it. -/
def State.writeEntry (s : State) (p pa v : Nat) (rest : List (Nat × Nat)) : State :=
  ((s.putNum pa v).modPart p (fun x => { x with next := (x.next + 1) % 256, waiting := rest })).raiseAttention p

theorem State.writeEntry_conts (s : State) (p pa v : Nat) (rest : List (Nat × Nat)) : (s.writeEntry p pa v rest).conts = s.conts := by
  rw [State.writeEntry, State.raiseAttention_conts, State.modPart_conts, (s.putNum_hub pa v).conts]

theorem State.writeEntry_parts (s : State) (p pa v : Nat) (rest : List (Nat × Nat)) :
    (s.writeEntry p pa v rest).parts = setAt s.parts p { s.part p with next := ((s.part p).next + 1) % 256, waiting := rest } := by
  have e := (s.putNum_hub pa v).parts
  rw [State.writeEntry, State.raiseAttention_parts, State.modPart_parts]
  simp only [State.part, e]

theorem State.part_writeEntry (s : State) (p pa v : Nat) (rest : List (Nat × Nat)) (hp : p < s.parts.length) :
    (s.writeEntry p pa v rest).part p = { s.part p with next := ((s.part p).next + 1) % 256, waiting := rest } := by
  rw [State.part, State.writeEntry_parts, nth_setAt_same _ _ _ _ hp]

theorem State.writeEntry_mem (s : State) (p pa v : Nat) (rest : List (Nat × Nat)) : (s.writeEntry p pa v rest).mem.num pa 8 = v % 2 ^ 64 := by
  rw [State.writeEntry, State.raiseAttention_mem, State.modPart_mem, State.num_putNum]

theorem State.attended_writeEntry (s : State) (p pa v : Nat) (rest : List (Nat × Nat)) (h : Nat)
    (hh : s.attended h ∨ (p < s.parts.length ∧ (s.part p).hart = h ∧ h < 192)) : (s.writeEntry p pa v rest).attended h := by
  have e := s.putNum_hub pa v
  rw [State.writeEntry]
  apply State.attended_raiseAttention
  rcases hh with hh | ⟨hp, hh⟩
  · left
    rw [State.attended, State.hart_modPart, e.hart h]
    exact hh
  · right
    rw [State.part_modPart _ _ _ (by rw [e.parts]; exact hp)]
    simpa only [State.part, e.parts] using hh

theorem State.attend_nil (s : State) (p n : Nat) (h : (s.part p).waiting = []) : s.attend p n = s := by
  cases n with
  | zero => rfl
  | succ n => simp only [State.attend, h]

/-- The oldest entry that waits is written where the ring's next place is free. -/
theorem State.attend_cons (s : State) (p n : Nat) {k cause : Nat} {rest : List (Nat × Nat)} (h : (s.part p).waiting = (k, cause) :: rest) :
    s.attend p (n + 1) =
      if (s.part p).ring = 0 ∨ s.mem.num ((s.part p).ring + 8 * (s.part p).next) 8 / 2 ^ 7 % 2 = 1 then s
      else (s.writeEntry p ((s.part p).ring + 8 * (s.part p).next) (k / 256 * 256 % 2 ^ 56 + 2 ^ 7 + cause) rest).attend p n := by
  rw [State.attend]
  simp only [h]
  rfl

/-- What the writing of one entry keeps, the writing of all that wait keeps. -/
theorem State.attend_keeps {P : State → Prop} (p : Nat) (entry : ∀ s pa v rest, P s → P (s.writeEntry p pa v rest)) :
    ∀ (n : Nat) (s : State), P s → P (s.attend p n) := by
  intro n
  induction n with
  | zero => exact fun _ h => h
  | succ n ih =>
    intro s h
    rcases hw : (s.part p).waiting with _ | ⟨⟨k, cause⟩, rest⟩
    · rw [State.attend_nil _ _ _ hw]; exact h
    · rw [State.attend_cons _ _ _ hw]
      split
      · exact h
      · exact ih _ (entry _ _ _ _ h)

theorem State.attend_conts (s : State) (p n : Nat) : (s.attend p n).conts = s.conts :=
  State.attend_keeps (P := fun t => t.conts = s.conts) p (fun t pa v rest h => (t.writeEntry_conts p pa v rest).trans h) n s rfl

/-- A partition whose ring and steering hart are those that a register write named. -/
def State.steered (s : State) (p ring hart : Nat) : Prop := p < s.parts.length ∧ (s.part p).ring = ring ∧ (s.part p).hart = hart

/-- Of a partition only the place in the ring and the entries that wait change. -/
theorem State.attend_steered {s : State} {p ring hart : Nat} (h : s.steered p ring hart) (n : Nat) : (s.attend p n).steered p ring hart := by
  refine State.attend_keeps (P := fun t => t.steered p ring hart) p (fun t pa v rest ht => ?_) n s h
  obtain ⟨hp, hr, hh⟩ := ht
  refine ⟨?_, ?_, ?_⟩
  · rw [State.writeEntry_parts, length_setAt]; exact hp
  · rw [State.part_writeEntry _ _ _ _ _ hp]; exact hr
  · rw [State.part_writeEntry _ _ _ _ _ hp]; exact hh

theorem State.attend_attended {s : State} {h : Nat} (hh : s.attended h) (p n : Nat) : (s.attend p n).attended h :=
  State.attend_keeps (P := fun t => t.attended h) p (fun t pa v rest ht => t.attended_writeEntry p pa v rest h (.inl ht)) n s hh

/-- The one entry that waits is written where the ring's next place is free. -/
theorem State.attentionRetry_free (s : State) (p k cause : Nat) (hp : p < s.parts.length) (hw : (s.part p).waiting = [(k, cause)])
    (hr : (s.part p).ring ≠ 0) (hm : s.mem.num ((s.part p).ring + 8 * (s.part p).next) 8 / 2 ^ 7 % 2 = 0) :
    s.attentionRetry p = s.writeEntry p ((s.part p).ring + 8 * (s.part p).next) (k / 256 * 256 % 2 ^ 56 + 2 ^ 7 + cause) [] := by
  rw [State.attentionRetry, State.attend_cons _ _ _ hw, if_neg (by rw [hm]; simp [hr]), State.attend_nil]
  rw [State.part_writeEntry _ _ _ _ _ hp]

/-- Where that place is not free nothing happens. -/
theorem State.attentionRetry_full (s : State) (p k cause : Nat) (hw : (s.part p).waiting = [(k, cause)])
    (hm : s.mem.num ((s.part p).ring + 8 * (s.part p).next) 8 / 2 ^ 7 % 2 = 1) : s.attentionRetry p = s := by
  rw [State.attentionRetry, State.attend_cons _ _ _ hw, if_pos (.inr hm)]

/-! #### The states of a continuation (R77, R78, R118) -/

/-- The states in which a continuation is served. -/
def ContSt.served (c : ContSt) : Prop := c = .idle ∨ c = .running ∨ c = .waiting

theorem ContSt.served_of_not {c : ContSt} (h : ¬ (c ≠ .idle ∧ c ≠ .running ∧ c ≠ .waiting)) : c.served :=
  Classical.byContradiction fun n => h ⟨fun e => n (.inl e), fun e => n (.inr (.inl e)), fun e => n (.inr (.inr e))⟩

theorem State.streamState_served (s : State) (q : Cont) : (s.streamState q).2.served := by
  unfold State.streamState ContSt.served
  simp only
  split
  · simp
  · split
    · simp
    · split
      · simp
      · split
        · split <;> simp
        · simp

/-- Settling a stream changes, of its continuation, only the two states, and a continuation that is not served not at all. -/
theorem State.settleStream_cont (s : State) {k : Nat} {q : Cont} (h : s.conts.find? k = some q) :
    ∃ a b, (s.settleStream k).conts.find? k = some { q with st := b, stream := { q.stream with st := a } } ∧
      (q.st.served → b.served) ∧ (¬ q.st.served → b = q.st ∧ a = q.stream.st) := by
  have same (t : State) (ht : t.conts.find? k = some q) : ∃ a b, t.conts.find? k = some { q with st := b, stream := { q.stream with st := a } } ∧
      (q.st.served → b.served) ∧ (¬ q.st.served → b = q.st ∧ a = q.stream.st) := ⟨q.stream.st, q.st, ht, id, fun _ => ⟨rfl, rfl⟩⟩
  unfold State.settleStream
  simp only [h]
  split
  · exact same s h
  · next hs =>
    have served : q.st.served := ContSt.served_of_not hs
    split
    · exact same s h
    · have new := s.streamState_served q
      generalize s.streamState q = ab at new
      obtain ⟨a, b⟩ := ab
      have moved : (if q.stream.st = a then s else s.modStream k (fun t => { t with st := a })).conts.find? k = some { q with stream := { q.stream with st := a } } := by
        split
        · next e => rw [h, ← e]
        · simp [State.modStream, h]
      simp only
      split
      · next e => exact ⟨a, b, e ▸ moved, fun _ => new, fun n => absurd served n⟩
      · exact ⟨a, b, by rw [State.setCont_conts, Tab.find?_upd_same]; exact congrArg (Option.map (fun q => { q with st := b })) moved, fun _ => new, fun n => absurd served n⟩

theorem State.settleStream_cores (s : State) (k : Nat) : (s.settleStream k).cores = s.cores := by
  unfold State.settleStream
  split
  · rfl
  · split
    · rfl
    · split
      · rfl
      · simp only
        split <;> split <;> simp [State.modStream]

/-! #### Faults of a continuation (R78, R79) -/

theorem State.raiseXp_conts (s : State) (k : Nat) : (s.raiseXp k).conts = s.conts.upd k (fun q => { q with xp := true }) := by
  unfold State.raiseXp
  simp only [State.soon_conts]
  exact List.foldlRecOn _ _ (motive := fun t : State => t.conts = s.conts.upd k (fun q => { q with xp := true })) rfl (fun t ht _ _ => ht)

theorem State.attention_conts (s : State) (p k cause : Nat) : (s.attention p k cause).conts = s.conts := State.attend_conts _ p _

theorem State.faultTold_conts (s : State) (f : FRec) : (s.faultTold f).conts = s.conts := by
  unfold State.faultTold
  split <;> rfl

/-- A fault is recorded without a change of residence. -/
theorem State.holdFault_cont (s : State) {k : Nat} {q : Cont} (f : FRec) (h : s.conts.find? k = some q) :
    ∃ q', (s.holdFault k f).conts.find? k = some q' ∧ q'.resident = q.resident := by
  unfold State.holdFault
  simp only [h, State.faultTold_conts]
  split
  · simp [State.attention_conts, (State.syncBlock_hub _ k).conts, h]
  · simp [(State.syncBlock_hub _ k).conts, State.raiseXp_conts, h]

/-- The next of the faults that wait is recorded of a continuation that is served, and only if there is one. -/
theorem State.nextFault_cont (s : State) {k : Nat} {q : Cont} (h : s.conts.find? k = some q) :
    ∃ q', (s.nextFault k).conts.find? k = some q' ∧ q'.resident = q.resident ∧ (¬ q.st.served → q' = q) ∧ (q.later = [] → q'.st = q.st) := by
  unfold State.nextFault
  simp only [h]
  split
  · exact ⟨q, h, rfl, fun _ => rfl, fun _ => rfl⟩
  · next hs =>
    have served : q.st.served := by
      refine ContSt.served_of_not fun ⟨idle, running, waiting⟩ => hs (.inr ?_)
      simp only [beq_false_of_ne idle, beq_false_of_ne running, beq_false_of_ne waiting, Bool.or_self, Bool.not_false]
    split
    · exact ⟨{ q with later := [] }, by simp [h], rfl, fun n => absurd served n, fun _ => rfl⟩
    · next f rest e =>
      obtain ⟨q', hq', hr⟩ := (s.modCont k (fun q => { q with later := rest })).holdFault_cont (k := k) (q := { q with later := rest }) f (by simp [h])
      exact ⟨q', hq', hr, fun n => absurd served n, fun hl => by simp [hl] at e⟩

/-! #### Parking and unparking (R84, R85) -/

/-- A parking that waits for no launch is over at once. -/
theorem State.parkCheck_parked (s : State) {k : Nat} {q : Cont} (h : s.conts.find? k = some q) (hp : q.parking = true)
    (idle : ∀ p ∈ s.launches, p.2.block = k → p.2.holds = false) :
    ∃ q', (s.parkCheck k).conts.find? k = some q' ∧ q'.st = .parked ∧ q'.pst = q.pst ∧ q'.resident = false := by
  have noHolder : s.launches.any (fun p => decide (p.2.block = k) && p.2.holds) = false := by
    rw [List.any_eq_false]
    intro p hm
    by_cases e : p.2.block = k <;> simp [e, idle p hm]
  unfold State.parkCheck
  simp only [h]
  rw [if_pos ⟨hp, by simpa using noHolder⟩]
  refine ⟨{ q with st := .parked, parking := false, resident := false, stream := q.stream.park, fetch := (q.stream.level 0).next }, ?_, rfl, rfl, rfl⟩
  refine List.foldlRecOn _ _ (motive := fun t : State => t.conts.find? k = _) (by simp [h]) (fun t ht x _ => ?_)
  obtain ⟨n, x⟩ := x
  simp only
  split
  · split
    · exact ht
    · exact ht
  · exact ht

/-- A continuation none of whose launches holds cores is parked at once. -/
theorem State.beginPark_parked (s : State) {k : Nat} {q : Cont} (h : s.conts.find? k = some q) (hp : q.parking = false)
    (hs : q.st = .idle ∨ q.st = .running ∨ q.st = .waiting ∨ q.st = .faulted) (idle : ∀ p ∈ s.launches, p.2.block = k → p.2.holds = false) :
    ∃ t, s.beginPark k = some t ∧ ∃ q', t.conts.find? k = some q' ∧ q'.st = .parked ∧ q'.pst = q.st ∧ q'.resident = false := by
  have noHolder : s.launches.filter (fun p => decide (p.2.block = k) && p.2.holds) = [] := by
    rw [List.filter_eq_nil_iff]
    intro p hm
    by_cases e : p.2.block = k <;> simp [e, idle p hm]
  have may : ¬ (q.parking = true ∨ (q.st ≠ .idle ∧ q.st ≠ .running ∧ q.st ≠ .waiting ∧ q.st ≠ .faulted)) := by
    rw [hp]
    rcases hs with e | e | e | e <;> simp [e]
  refine ⟨(s.setCont k (fun q => { q with pst := q.st, parking := true, stream := q.stream.hold })).parkCheck k, ?_, ?_⟩
  · unfold State.beginPark
    simp only [h]
    rw [if_neg may, noHolder]
    rfl
  · exact State.parkCheck_parked _ (q := { q with pst := q.st, parking := true, stream := q.stream.hold }) (by simp [h]) rfl (by simpa using idle)

/-- An unparked continuation for which CRESUME has decided nothing is resident, and where it was when it was parked. -/
theorem State.unparkCont_cont (s : State) {k : Nat} {q : Cont} (h : s.conts.find? k = some q) (hf : q.fate = none) :
    ∃ q', (s.unparkCont k).conts.find? k = some q' ∧ q'.resident = true ∧ (q.pst = .faulted → q'.st = .faulted ∧ q'.fault = q.fault) ∧
      (q.pst.served → q.later = [] → q'.st.served) := by
  unfold State.unparkCont
  simp only [h, Option.bind_some, hf, Option.bind_none]
  obtain ⟨a, b, h1, served, still⟩ := State.settleStream_cont (k := k)
    (s.setCont k (fun q => { q with st := q.pst, resident := true, stream := if q.pst == .faulted then q.stream else q.stream.release }))
    (by rw [State.setCont_conts, Tab.find?_upd_same]; exact congrArg (Option.map _) h)
  obtain ⟨q', h2, hr, same, free⟩ := State.nextFault_cont _ h1
  refine ⟨q', h2, hr, fun e => ?_, fun e hl => ?_⟩
  · have ns : ¬ ContSt.served q.pst := by simp [ContSt.served, e]
    have hb := (still ns).1
    have hq := same (by simpa only [hb] using ns)
    rw [hq]
    exact ⟨hb.trans e, rfl⟩
  · have := free hl
    rw [this]
    exact served e

/-! #### Kills (R89) -/

/-- The waits that the end of a kill ends, each with PROGRESS. -/
def killSel (k : Nat) (v : Word) (_ : Module) (w : HWait) : Option (Nat × Word) :=
  match w with
  | .kill rd b => if b = k then some (rd, v) else none
  | _ => none

/-- A kill that is complete makes its continuation DEAD and ends the CKILLs that wait for it. -/
theorem State.killDone_eq (s : State) {k : Nat} {q : Cont} (h : s.conts.find? k = some q) (hs : q.st = .killing) (hk : s.killComplete k = true) :
    s.killDone k =
      let t := (s.setCont k (fun q => { q with st := .dead, ap := false, xp := false })).modPart q.part
        (fun p => { p with waiting := p.waiting.filter (fun (b, _) => decide (b ≠ k)) })
      t.endHarts (killSel k (BitVec.ofNat 64 q.progress)) t.harts := by
  unfold State.killDone
  simp only [h]
  rw [if_pos ⟨hs, hk⟩]
  refine congrArg (fun f => List.foldl f _ _) ?_
  funext t p
  obtain ⟨n, x⟩ := p
  simp only [State.endHart, killSel]
  cases x.wait with
  | kill rd b => by_cases e : b = k <;> simp [e]
  | _ => rfl

/-! #### The package's cycle and its module through a parking (R84, R171) -/

/-- An operation leaves the cycle and the module. -/
def SameClock (s t : State) : Prop := t.cyc = s.cyc ∧ t.mod = s.mod

theorem SameClock.refl (s : State) : SameClock s s := ⟨rfl, rfl⟩
theorem SameClock.trans {s t u : State} (a : SameClock s t) (b : SameClock t u) : SameClock s u := ⟨b.1.trans a.1, b.2.trans a.2⟩

theorem SameClock.foldl {α : Type} {f : State → α → State} (hf : ∀ s x, SameClock s (f s x)) (l : List α) (s : State) : SameClock s (l.foldl f s) :=
  List.foldlRecOn l f (motive := SameClock s) (.refl s) (fun t ht x _ => ht.trans (hf t x))

theorem State.setCont_clock (s : State) (k : Nat) (f : Cont → Cont) : SameClock s (s.setCont k f) := ⟨s.setCont_cyc k f, s.setCont_mod k f⟩

theorem State.callLantern_clock (s : State) (c : Nat) : SameClock s (s.callLantern c) := by
  unfold State.callLantern
  split
  · exact ⟨rfl, rfl⟩
  · exact .refl s

theorem State.stopCores_clock (s : State) (l : List (Nat × Option Nat)) (at' : Nat) : SameClock s (s.stopCores l at') := by
  unfold State.stopCores
  refine SameClock.foldl (fun t p => ?_) _ s
  obtain ⟨c, d⟩ := p
  exact (t.callLantern_clock c).trans ⟨rfl, rfl⟩

theorem State.storeImage_clock (s : State) (c : Nat) (dest at' : Option Nat) : SameClock s (s.storeImage c dest at') := by
  unfold State.storeImage
  split
  · exact .refl s
  · cases dest <;> exact ⟨rfl, rfl⟩

theorem State.unplace_clock (s : State) (k : Nat) (r : List (Nat × Option Nat)) : SameClock s (s.unplace k r) := by
  unfold State.unplace
  refine SameClock.trans (SameClock.foldl (fun t c => ?_) (s.coresOf k) s) ⟨rfl, rfl⟩
  split
  · exact t.storeImage_clock _ _ _
  · exact ⟨rfl, rfl⟩

theorem State.stopLaunch_clock {s t : State} {k : Nat} (h : s.stopLaunch k = some t) : SameClock s t := by
  unfold State.stopLaunch at h
  split at h
  · cases h; exact .refl s
  · split at h
    · cases h; exact .refl s
    · simp only at h
      split at h
      · split at h
        · obtain ⟨r, -, rfl⟩ := Option.map_eq_some_iff.1 h
          exact (s.unplace_clock k r).trans ⟨rfl, rfl⟩
        · cases h
          exact (s.unplace_clock k []).trans ⟨rfl, rfl⟩
      · cases h; exact ⟨rfl, rfl⟩
      · obtain ⟨r, -, rfl⟩ := Option.map_eq_some_iff.1 h
        exact (s.stopCores_clock r s.cyc).trans ⟨rfl, rfl⟩

theorem State.stopLaunches_clock {s t : State} {ks : List Nat} (h : s.stopLaunches ks = some t) : SameClock s t := by
  induction ks generalizing s with
  | nil => cases h; exact .refl _
  | cons k ks ih =>
    obtain ⟨u, hu, ht⟩ := Option.bind_eq_some_iff.1 h
    exact (State.stopLaunch_clock hu).trans (ih ht)

theorem State.parkCheck_clock (s : State) (k : Nat) : SameClock s (s.parkCheck k) := by
  unfold State.parkCheck
  split
  · exact .refl s
  · split
    · refine SameClock.trans (s.setCont_clock k _) (SameClock.foldl (fun t p => ?_) _ _)
      obtain ⟨n, x⟩ := p
      simp only
      split
      · split
        · exact ⟨rfl, rfl⟩
        · exact .refl t
      · exact .refl t
    · exact .refl s

theorem State.beginPark_clock {s t : State} {k : Nat} (h : s.beginPark k = some t) : SameClock s t := by
  unfold State.beginPark at h
  split at h
  · cases h; exact .refl s
  · split at h
    · cases h; exact .refl s
    · obtain ⟨u, hu, rfl⟩ := Option.map_eq_some_iff.1 h
      exact ((State.stopLaunches_clock hu).trans (u.setCont_clock k _)).trans (State.parkCheck_clock _ k)

/-! #### Checkpoints (R90, R453) -/

theorem State.ckptPark_one (s : State) (k : Nat) : s.ckptPark [k] = (s.beginPark k).map (fun t => t.modCont k (fun q => { q with ckpt := true })) := by
  simp only [State.ckptPark]
  cases s.beginPark k <;> rfl

/-- A checkpoint at the interval takes of the continuations that it is asked for those that can be parked, and nothing of the time. -/
theorem State.ckptAll_spec (s : State) (l acc : List Nat) :
    (∀ k ∈ (s.ckptAll l acc).1, k ∈ acc ∨ k ∈ l) ∧ SameClock s (s.ckptAll l acc).2 := by
  induction l generalizing s acc with
  | nil => exact ⟨fun k hk => .inl hk, .refl s⟩
  | cons k l ih =>
    rw [State.ckptAll]
    split
    · next t ht =>
      rw [State.ckptPark_one] at ht
      obtain ⟨u, hu, rfl⟩ := Option.map_eq_some_iff.1 ht
      obtain ⟨mem, clock⟩ := ih (u.modCont k (fun q => { q with ckpt := true })) (acc ++ [k])
      refine ⟨fun j hj => ?_, ((State.beginPark_clock hu).trans ⟨rfl, rfl⟩).trans clock⟩
      simpa [or_assoc] using mem j hj
    · obtain ⟨mem, clock⟩ := ih s acc
      exact ⟨fun j hj => (mem j hj).imp_right (List.mem_cons_of_mem k), clock⟩

/-- Of one continuation that can be parked a checkpoint takes that one. -/
theorem State.ckptAll_one (s : State) (k : Nat) (h : s.beginPark k ≠ none) : (s.ckptAll [k] []).1 = [k] := by
  obtain ⟨t, ht⟩ := Option.ne_none_iff_exists'.1 h
  simp [State.ckptAll, State.ckptPark_one, ht]

/-- The continuations that a checkpoint at the interval is asked for. -/
def State.saveables (s : State) : List Nat := (s.conts.filter (fun p => p.2.saveable)).map Prod.fst

theorem State.checkpointInterval_eq (s : State) {n : Nat} (hn : s.mod.ckNext = some n) (due : n ≤ s.cyc) (on : s.mod.interval ≠ 0) (free : s.mod.pending = none) :
    s.checkpointInterval =
      { (s.ckptAll s.saveables []).2 with mod := { s.mod with
          pending := some (s.ckptAll s.saveables []).1, ckNext := some (s.cyc + 1200000 * s.mod.interval) } } := by
  obtain ⟨hc, hm⟩ := (s.ckptAll_spec s.saveables []).2
  unfold State.checkpointInterval
  simp only [hn]
  rw [if_neg (by simp [on, free, due])]
  simp only [msCycles]
  rw [← hc, ← hm]
  rfl

/-- A list of continuations changes and is written back. -/
def State.setConts (s : State) (f : Cont → Cont) (l : List Nat) : State := l.foldl (fun (s : State) (k : Nat) => s.setCont k f) s

theorem State.setConts_conts (s : State) (f : Cont → Cont) (l : List Nat) : (s.setConts f l).conts = l.foldl (fun t k => Tab.upd t k f) s.conts := by
  induction l generalizing s with
  | nil => rfl
  | cons k l ih => rw [State.setConts, List.foldl_cons, ← State.setConts, ih, State.setCont_conts]; rfl

theorem State.setConts_mod (s : State) (f : Cont → Cont) (l : List Nat) : (s.setConts f l).mod = s.mod :=
  (SameClock.foldl (f := fun (s : State) (k : Nat) => s.setCont k f) (fun t k => t.setCont_clock k f) l s).2

/-- The same without their blocks. -/
def State.modConts (s : State) (f : Cont → Cont) (l : List Nat) : State := l.foldl (fun (s : State) (k : Nat) => s.modCont k f) s

theorem State.modConts_eq (s : State) (f : Cont → Cont) (l : List Nat) : s.modConts f l = { s with conts := l.foldl (fun t k => Tab.upd t k f) s.conts } := by
  induction l generalizing s with
  | nil => rfl
  | cons k l ih => rw [State.modConts, List.foldl_cons, ← State.modConts, ih]; rfl

theorem State.setConts_harts (s : State) (f : Cont → Cont) (l : List Nat) : HartsStay s (s.setConts f l) :=
  List.foldlRecOn l (fun (s : State) (k : Nat) => s.setCont k f) (motive := HartsStay s) (.refl s) (fun t ht k _ => ht.trans (t.setCont_harts k f))

/-- The waits that the end of a checkpoint ends: with E_FLASH where the checkpoint area is lost. -/
def ckptSel (m : Module) (w : HWait) : Option (Nat × Word) :=
  match w with
  | .ckpt rd => some (rd, if m.areaLost then eFLASH else 0)
  | _ => none

/-- The continuations of a list that a checkpoint finds at rest. -/
def State.atRestOf (s : State) (ks : List Nat) : List Nat :=
  ks.filter (fun k => (s.conts.find? k).any (fun q => q.st == .parked || q.st == .orphaned))

/-- A continuation with one more checkpoint. -/
def Cont.saved (q : Cont) : Cont := { q with ckgen := q.ckgen + 1 }
/-- A continuation that no checkpoint holds. -/
def Cont.unheld (q : Cont) : Cont := { q with ckpt := false }

/-- What a checkpoint keeps of the continuations of a list. -/
def State.ckptConts (s : State) (l : List Nat) : List CkptCont := l.filterMap (fun k => (s.conts.find? k).map s.ckptOf)

/-- The module after a checkpoint is written. -/
def Module.committed (m : Module) (cs : List CkptCont) : Module := { m with gen := m.gen + 1, ckpt := some { gen := m.gen + 1, conts := cs }, pending := none }

/-- What a complete checkpoint ends with: its continuations held no longer, its harts told. -/
def State.ckptEnd (s : State) (ks : List Nat) : State :=
  let t := s.modConts Cont.unheld ks
  t.endHarts ckptSel t.harts

theorem State.checkpointComplete_lost (s : State) {ks : List Nat} (hp : s.mod.pending = some ks) (hr : s.ckptReady = true) (lost : s.mod.areaLost = true) :
    s.checkpointComplete = (s.modMod (fun m => { m with pending := none })).ckptEnd ks := by
  unfold State.checkpointComplete
  simp only [hp, hr, lost, if_true, List.foldl_nil, State.modMod]
  refine congrFun (congrFun (congrArg List.foldl ?_) _) _
  funext t p
  obtain ⟨n, x⟩ := p
  simp only [State.endHart, ckptSel]
  cases x.wait <;> rfl

theorem State.checkpointComplete_kept (s : State) {ks : List Nat} (hp : s.mod.pending = some ks) (hr : s.ckptReady = true) (kept : s.mod.areaLost = false) :
    s.checkpointComplete =
      let t := s.setConts Cont.saved (s.atRestOf ks)
      (t.modMod (fun _ => s.mod.committed (t.ckptConts (s.atRestOf ks)))).ckptEnd ks := by
  have hm := s.setConts_mod Cont.saved (s.atRestOf ks)
  have live : (s.atRestOf ks).foldl (fun (s : State) (k : Nat) => s.setCont k (fun q => { q with ckgen := q.ckgen + 1 })) s = s.setConts Cont.saved (s.atRestOf ks) := rfl
  unfold State.checkpointComplete
  simp only [hp, hr, kept, Bool.false_eq_true, if_false, State.modMod, Module.committed, State.ckptConts]
  rw [List.filter_congr (l := ks) (q := fun k => (s.conts.find? k).any (fun q => q.st == .parked || q.st == .orphaned))
    (fun k _ => by cases s.conts.find? k <;> rfl), ← State.atRestOf, live]
  generalize s.setConts Cont.saved (s.atRestOf ks) = t at hm
  simp only [hm, kept, Bool.false_eq_true, if_false]
  refine congrFun (congrFun (congrArg List.foldl ?_) _) _
  funext t p
  obtain ⟨n, x⟩ := p
  simp only [State.endHart, ckptSel]
  cases x.wait <;> rfl

/-- An instruction's next state, as a lemma about its operation gives it. -/
theorem comes_of_next {i : Instr} {s t u : State} {p : State → Prop} (h : exec i s = .next t) (e : t = u) (hp : p u) : Comes i s p := ⟨t, h, e ▸ hp⟩

/-! #### Harts, parkings and kills -/

/-- A CJOIN whose limit has come ends with the join word. -/
theorem cjoinTimeout_comes (s : State) (h rd n : Nat) (target : Word) (q : Cont) (hw : (s.hart h).wait = .join rd target (some n)) (hn : n ≤ s.cyc)
    (hq : s.cont? (s.hart h).binding = some q) : Comes (.cjoinTimeout h) s (fun t => t.HartEnded h (s.hart h) rd (joinWord q target)) := by
  have e : s.cjoinTimeout h = s.hartDone h rd (joinWord q target) := by
    simp only [State.cjoinTimeout, hw, hq, if_neg (Nat.not_lt.2 hn)]
  exact comes_of_next rfl e (s.hartDone_ended h rd _)

/-- The continuation that is due to be parked, none of whose launches holds cores, is PARKED and leaves its slot (R84, R85). -/
theorem contPark_comes (s : State) (k : Nat) (q : Cont) (h : s.conts.find? k = some q) (idle : ∀ p ∈ s.launches, p.2.block = k → p.2.holds = false)
    (due : s.parkDue = some k) (hp : q.parking = false) (hs : q.st = .idle ∨ q.st = .running ∨ q.st = .waiting ∨ q.st = .faulted) :
    Comes (.contPark k) s (fun t => ∃ q', t.conts.find? k = some q' ∧ q'.st = .parked ∧ q'.pst = q.st ∧ q'.resident = false) := by
  obtain ⟨t, ht, parked⟩ := s.beginPark_parked h hp hs idle
  have e : s.contPark k = t := by rw [State.contPark, if_pos due, ht, Option.getD_some]
  exact comes_of_next rfl e parked

/-- The continuation that waits first goes into the free slot, to the state that it was parked in (R85). -/
theorem contUnpark_comes (s : State) (k : Nat) (q : Cont) (next : s.nextWaiting = some q) (hk : q.block = k) (h : s.conts.find? k = some q)
    (free : s.engineFree = true) (hf : q.fate = none) :
    Comes (.contUnpark k) s (fun t => ∃ q', t.conts.find? k = some q' ∧ q'.resident = true ∧ (q.pst = .faulted → q'.st = .faulted ∧ q'.fault = q.fault) ∧
      (q.pst.served → q.later = [] → q'.st.served)) := by
  have e : s.contUnpark k = s.unparkCont k := by simp only [State.contUnpark, next, hk, free, and_self, if_true]
  exact comes_of_next rfl e (s.unparkCont_cont h hf)

/-- A kill that is complete leaves its continuation DEAD, and every CKILL of it ends with PROGRESS (R89, R96). -/
theorem killDone_comes (s : State) (k : Nat) (q : Cont) (h : s.conts.find? k = some q) (hs : q.st = .killing) (hk : s.killComplete k = true)
    (nodup : (s.harts.map Prod.fst).Nodup) :
    Comes (.killDone k) s (fun t => (∃ q', t.conts.find? k = some q' ∧ q'.st = .dead ∧ q'.ap = false ∧ q'.xp = false) ∧
      ∀ h rd, (s.hart h).wait = .kill rd k → t.HartEnded h (s.hart h) rd (BitVec.ofNat 64 q.progress)) := by
  have stay := s.setCont_harts k (fun q => { q with st := .dead, ap := false, xp := false })
  refine comes_of_next rfl (s.killDone_eq h hs hk) ⟨⟨{ q with st := .dead, ap := false, xp := false }, ?_, rfl, rfl, rfl⟩, fun j rd hw => stay.ended ?_⟩
  · simp [State.endHarts_conts, h]
  · have wait := (stay.wait j).trans hw
    exact State.endHarts_ended _ (stay.keys ▸ nodup) (State.hart_mem (by simp [State.hart_modPart, wait])) (by simp [killSel, State.hart_modPart, wait])

/-! #### Checkpoints -/

/-- At the interval a checkpoint of what can be parked starts, and the next interval runs (R90, R453). -/
theorem checkpointInterval_comes (s : State) (n : Nat) (hn : s.mod.ckNext = some n) (due : n ≤ s.cyc) (on : s.mod.interval ≠ 0) (free : s.mod.pending = none) :
    Comes .checkpointInterval s (fun t =>
      t.mod.ckNext = some (s.cyc + 1200000 * s.mod.interval) ∧ (∃ ks, t.mod.pending = some ks ∧ ∀ k ∈ ks, k ∈ s.conts.map Prod.fst) ∧
      ∀ k q, s.conts = [(k, q)] → q.saveable = true → s.beginPark k ≠ none → t.mod.pending = some [k]) := by
  refine comes_of_next rfl (s.checkpointInterval_eq hn due on free) ⟨rfl, ⟨_, rfl, fun k hk => ?_⟩, fun k q hc hq hb => ?_⟩
  · rcases (s.ckptAll_spec s.saveables []).1 k hk with hk | hk
    · simp at hk
    · obtain ⟨p, hp, rfl⟩ := List.mem_map.1 hk
      exact List.mem_map_of_mem (List.mem_filter.1 hp).1
  · have one : s.saveables = [k] := by simp [State.saveables, hc, hq]
    rw [one, s.ckptAll_one k hb]

theorem State.ckptEnd_conts (s : State) {ks : List Nat} (nodup : ks.Nodup) {k : Nat} (hk : k ∈ ks) :
    (s.ckptEnd ks).conts.find? k = (s.conts.find? k).map Cont.unheld := by
  rw [State.ckptEnd, State.endHarts_conts, State.modConts_eq, Tab.find?_foldl_upd _ nodup, if_pos hk]

theorem State.ckptEnd_mod (s : State) (ks : List Nat) : (s.ckptEnd ks).mod = s.mod := by
  rw [State.ckptEnd, State.endHarts_mod, State.modConts_eq]

/-- Every hart that waits for the checkpoint is told how it ended. -/
theorem State.ckptEnd_ended (s : State) (ks : List Nat) (nodup : (s.harts.map Prod.fst).Nodup) {h rd : Nat} (hw : (s.hart h).wait = .ckpt rd)
    {b : Bool} (lost : s.mod.areaLost = b) : (s.ckptEnd ks).HartEnded h (s.hart h) rd (if b then eFLASH else 0) := by
  rw [State.ckptEnd, State.modConts_eq]
  exact State.endHarts_ended _ nodup (State.hart_mem (s := s) (by simp [hw])) (by simp [ckptSel, hw, lost])

/-- A checkpoint that finds its area lost commits nothing, and tells every CCKPT so (R92, log 62). -/
theorem checkpointComplete_lost_comes (s : State) (ks : List Nat) (hp : s.mod.pending = some ks) (hr : s.ckptReady = true) (nodup : (s.harts.map Prod.fst).Nodup)
    (lost : s.mod.areaLost = true) : Comes .checkpointComplete s (fun t =>
      t.mod.gen = s.mod.gen ∧ t.mod.ckpt = s.mod.ckpt ∧ t.mod.pending = none ∧ ∀ h rd, (s.hart h).wait = .ckpt rd → 0 < rd → rd < 32 → (t.hart h).rd rd = eFLASH) := by
  have mod := (s.modMod (fun m => { m with pending := none })).ckptEnd_mod ks
  refine comes_of_next rfl (s.checkpointComplete_lost hp hr lost) ⟨by rw [mod]; rfl, by rw [mod]; rfl, by rw [mod]; rfl, fun h rd hw => ?_⟩
  obtain ⟨-, -, value⟩ := (s.modMod (fun m => { m with pending := none })).ckptEnd_ended ks nodup (h := h) hw lost
  exact value

/-- A continuation at rest is among those that the checkpoint takes. -/
theorem State.mem_atRestOf {s : State} {ks : List Nat} {k : Nat} {q : Cont} (hk : k ∈ ks) (hq : s.conts.find? k = some q) (hs : q.st = .parked ∨ q.st = .orphaned) :
    k ∈ s.atRestOf ks := by
  rw [State.atRestOf, List.mem_filter]
  exact ⟨hk, by simpa [hq] using hs⟩

theorem State.find?_setConts (s : State) (f : Cont → Cont) {l : List Nat} (nodup : l.Nodup) {k : Nat} (hk : k ∈ l) :
    (s.setConts f l).conts.find? k = (s.conts.find? k).map f := by
  rw [State.setConts_conts, Tab.find?_foldl_upd _ nodup, if_pos hk]

/-- A checkpoint that is complete is the next generation, and every continuation at rest in it counts it (R90, R453). -/
theorem checkpointComplete_kept_comes (s : State) (ks : List Nat) (hp : s.mod.pending = some ks) (hr : s.ckptReady = true) (hks : ks.Nodup)
    (nodup : (s.harts.map Prod.fst).Nodup) (kept : s.mod.areaLost = false) : Comes .checkpointComplete s (fun t =>
      t.mod.gen = s.mod.gen + 1 ∧ t.mod.pending = none ∧ (∃ g, t.mod.ckpt = some g ∧ g.gen = s.mod.gen + 1 ∧
        ∀ k ∈ ks, ∀ q, s.conts.find? k = some q → q.st = .parked ∨ q.st = .orphaned → (∃ x ∈ g.conts, x.cont.block = q.block ∧ x.cont.ckgen = q.ckgen + 1) ∧
          ∃ q', t.conts.find? k = some q' ∧ q'.ckgen = q.ckgen + 1 ∧ q'.ckpt = false) ∧
      ∀ h rd, (s.hart h).wait = .ckpt rd → t.HartEnded h (s.hart h) rd 0) := by
  have stay := s.setConts_harts Cont.saved (s.atRestOf ks)
  have rest : (s.atRestOf ks).Nodup := hks.filter _
  have found {k : Nat} {q : Cont} (hk : k ∈ s.atRestOf ks) (hq : s.conts.find? k = some q) :
      (s.setConts Cont.saved (s.atRestOf ks)).conts.find? k = some q.saved := by
    rw [s.find?_setConts _ rest hk, hq, Option.map_some]
  have eq := s.checkpointComplete_kept hp hr kept
  generalize s.setConts Cont.saved (s.atRestOf ks) = u at stay found eq
  have mod := (u.modMod (fun _ => s.mod.committed (u.ckptConts (s.atRestOf ks)))).ckptEnd_mod ks
  refine comes_of_next rfl eq ⟨by rw [mod]; rfl, by rw [mod]; rfl, ⟨{ gen := s.mod.gen + 1, conts := u.ckptConts (s.atRestOf ks) }, by rw [mod]; rfl, rfl, fun k hk q hq hs => ?_⟩, fun h rd hw => stay.ended ?_⟩
  · have hu := found (State.mem_atRestOf hk hq hs) hq
    refine ⟨⟨u.ckptOf q.saved, List.mem_filterMap.2 ⟨k, State.mem_atRestOf hk hq hs, by simp [hu]⟩, rfl, rfl⟩, q.saved.unheld, ?_, rfl, rfl⟩
    rw [State.ckptEnd_conts _ hks hk]
    exact congrArg (Option.map Cont.unheld) hu
  · exact (u.modMod (fun _ => s.mod.committed (u.ckptConts (s.atRestOf ks)))).ckptEnd_ended ks (stay.keys ▸ nodup) ((stay.wait h).trans hw) kept

/-! #### Attention entries and steering -/

/-- The word of an attention entry fits 8 bytes. -/
theorem attentionWord_lt (k : Nat) {cause : Nat} (h : cause < 64) : k / 256 * 256 % 2 ^ 56 + 2 ^ 7 + cause < 2 ^ 64 := by
  have := Nat.mod_lt (k / 256 * 256) (show 0 < 2 ^ 56 by decide)
  omega

/-- The entry that waits is written, the ring's place moves on, and the steering hart is interrupted (R86, R161). -/
theorem attentionRetry_free_comes (s : State) (p k cause : Nat) (hp : p < s.parts.length) (hw : (s.part p).waiting = [(k, cause)])
    (hr : (s.part p).ring ≠ 0) (hc : cause < 64) (hm : s.mem.num ((s.part p).ring + 8 * (s.part p).next) 8 / 2 ^ 7 % 2 = 0) :
    Comes (.attentionRetry p) s (fun t => t.mem.num ((s.part p).ring + 8 * (s.part p).next) 8 = k / 256 * 256 % 2 ^ 56 + 2 ^ 7 + cause ∧
      (t.part p).next = ((s.part p).next + 1) % 256 ∧ (t.part p).waiting = [] ∧ ((s.part p).hart < 192 → t.attended (s.part p).hart)) := by
  refine comes_of_next rfl (s.attentionRetry_free p k cause hp hw hr hm) ⟨?_, ?_, ?_, fun hh => ?_⟩
  · rw [State.writeEntry_mem, Nat.mod_eq_of_lt (attentionWord_lt k hc)]
  · rw [State.part_writeEntry _ _ _ _ _ hp]
  · rw [State.part_writeEntry _ _ _ _ _ hp]
  · exact s.attended_writeEntry p _ _ _ _ (.inr ⟨hp, rfl, hh⟩)

theorem State.steered_raiseAttention {s : State} {p ring hart : Nat} (h : s.steered p ring hart) : (s.raiseAttention p).steered p ring hart := by
  simpa only [State.steered, State.part, State.raiseAttention_parts] using h

/-- The ring and the hart that a write of FAULTS names. -/
def Part.steer (x : Part) (v : Word) : Part := { x with ring := fld v.toNat 11 45 * 2 ^ 11, hart := v.toNat % 256 }

/-- Whether such a write raises an interrupt of its own: the partition had no hart, and its new ring holds an entry. -/
def State.steerDue (s : State) (p : Nat) (v : Word) : Bool :=
  decide (192 ≤ (s.part p).hart ∧ v.toNat % 256 < 192 ∧ fld v.toNat 11 45 * 2 ^ 11 ≠ 0) &&
    (upto 0 256).any (fun i => (s.mem.num (fld v.toNat 11 45 * 2 ^ 11 + 8 * i) 8).testBit 7)

/-- The partition steered, with the interrupt that the write raises. -/
def State.steer (s : State) (p : Nat) (v : Word) : State :=
  let t := s.modPart p (fun x => x.steer v)
  if s.steerDue p v then t.raiseAttention p else t

section
variable {s : State} {p : Nat} {v : Word} (hp : p < s.parts.length)
include hp

theorem State.part_steer : (s.modPart p (fun x => x.steer v)).part p = (s.part p).steer v := State.part_modPart _ _ _ hp

theorem State.faultSteeringWrite_eq (h16 : p < 16) : s.faultSteeringWrite p v = (s.steer p v).attentionRetry p := by
  have part := State.part_steer (v := v) hp
  simp only [Part.steer] at part
  rw [State.faultSteeringWrite, if_neg (by omega)]
  simp only [part, State.steer, State.steerDue, Part.steer, State.modPart_mem]
  rfl

theorem State.steer_steered : (s.steer p v).steered p (fld v.toNat 11 45 * 2 ^ 11) (v.toNat % 256) := by
  have steered : (s.modPart p (fun x => x.steer v)).steered p (fld v.toNat 11 45 * 2 ^ 11) (v.toNat % 256) :=
    ⟨by rw [State.modPart_parts, length_setAt]; exact hp, by rw [State.part_steer hp]; rfl, by rw [State.part_steer hp]; rfl⟩
  simp only [State.steer]
  split
  · exact State.steered_raiseAttention steered
  · exact steered

theorem State.steer_attended (due : s.steerDue p v = true) (hh : v.toNat % 256 < 192) : (s.steer p v).attended (v.toNat % 256) := by
  simp only [State.steer, due, if_true]
  exact State.attended_raiseAttention _ p _ (.inr ⟨by rw [State.part_steer hp]; rfl, hh⟩)

end

/-- A write of a partition's steering names its ring and hart, and interrupts a hart that is named anew for the entries there (R161). -/
theorem faultSteeringWrite_comes (s : State) (p : Nat) (v : Word) (hp : p < 16) (parts : s.parts.length = 16) :
    Comes (.faultSteeringWrite p v) s (fun t => (t.part p).ring = fld v.toNat 11 45 * 2 ^ 11 ∧ (t.part p).hart = v.toNat % 256 ∧
      (192 ≤ (s.part p).hart → v.toNat % 256 < 192 → fld v.toNat 11 45 ≠ 0 → (∃ i, i < 256 ∧ (s.mem.num (fld v.toNat 11 45 * 2 ^ 11 + 8 * i) 8).testBit 7 = true) →
        t.attended (v.toNat % 256))) := by
  have here : p < s.parts.length := by omega
  obtain ⟨-, ring, hart⟩ := State.attend_steered (State.steer_steered (v := v) here) (((s.steer p v).part p).waiting.length + 1)
  refine comes_of_next rfl (State.faultSteeringWrite_eq here hp) ⟨ring, hart, fun old new named entry => State.attend_attended ?_ p _⟩
  obtain ⟨i, hi, bit⟩ := entry
  have due : s.steerDue p v = true := by
    simp only [State.steerDue, Bool.and_eq_true, decide_eq_true_eq, List.any_eq_true]
    exact ⟨⟨old, new, by omega⟩, i, mem_upto.2 ⟨by omega, by omega⟩, bit⟩
  exact State.steer_attended here due new

/-! #### Calls (R121, R122) -/

/-- A walk of the hub reads memory alone, and which of its words are uncorrectable. -/
theorem State.walkFrom_congr {s t : State} (mem : t.mem = s.mem) (unc : t.unc = s.unc) (asid va : Nat) (hub store : Bool) (l tab : Nat) :
    t.walkFrom none asid va hub store l tab = s.walkFrom none asid va hub store l tab := by
  have line (n : Nat) : t.lineOk none n = s.lineOk none n := by simp only [State.lineOk, unc]
  have word (pa : Nat) : t.ptNum none pa = s.ptNum none pa := by simp only [State.ptNum, Option.bind_none, mem]
  have entry (l tab : Nat) : t.entry none asid va hub store l tab = s.entry none asid va hub store l tab := by
    simp only [State.entry, line, word]
  induction l generalizing tab with
  | zero => simp only [State.walkFrom, entry]
  | succ l ih => simp only [State.walkFrom, entry, ih]

theorem State.hubPhys_congr {s t : State} (mem : t.mem = s.mem) (unc : t.unc = s.unc) (atp : Word) (va : Nat) (store : Bool) :
    t.hubPhys atp va store = s.hubPhys atp va store := by
  simp only [State.hubPhys, State.walk, State.walkFrom_congr mem unc]

theorem State.ringRd_congr {s t : State} (mem : t.mem = s.mem) (unc : t.unc = s.unc) (q : Cont) (va : Nat) : t.ringRd q va = s.ringRd q va := by
  simp only [State.ringRd, State.hubPhys_congr mem unc, mem]

theorem State.callDone_congr {s t : State} (mem : t.mem = s.mem) (unc : t.unc = s.unc) (q : Cont) : t.callDone q = s.callDone q := by
  funext x
  simp only [State.callDone, State.ringRd_congr mem unc]

/-- An answer to an operation of a core that waits for it is on its way. -/
theorem State.answer_sent (s : State) {id c : Nat} (reg : Nat) (v : Word) (st : Status) (h : s.coreWaiting id = some c) :
    Sent (s.answer id reg v st) c false id reg (.sc v) st s.cyc := by
  simp [Sent, State.delivsOf, State.answer, h, State.send]

/-- An answer to a waiting core changes that core. -/
theorem State.answer_same {α : Type} (p : State → α) (hp : ∀ s c w, p (s.setCore c w) = p s) (s : State) {id c : Nat} (reg : Nat) (v : Word) (st : Status)
    (h : s.coreWaiting id = some c) : p (s.answer id reg v st) = p s := by
  simp only [State.answer, h, State.send, Bool.false_eq_true, if_false, State.modUsr, State.modCore, hp]

/-- The caller of a call is answered with the value and status of its slot. -/
def State.tellCall (s : State) (q : Cont) (x : SysCall) : State :=
  s.answer x.id x.reg (BitVec.ofNat 64 (s.ringRd q (q.slotAt x.n + 0x18))) (BitVec.ofNat 4 (s.ringRd q (q.slotAt x.n + 0x10)))

/-- A stream without the calls that meet a condition. -/
def Stream.dropCalls (f : SysCall → Bool) (t : Stream) : Stream := { t with calls := t.calls.filter (fun y => !f y) }

/-- The one call that is complete is told, and the stream goes on without it. -/
theorem State.sysCompletion_eq {s : State} {k c : Nat} {q : Cont} {x : SysCall} (h : s.conts.find? k = some q)
    (one : q.stream.calls.filter (s.callDone q) = [x]) (waits : s.coreWaiting x.id = some c) :
    s.sysCompletion k = ((s.tellCall q x).modStream k (Stream.dropCalls (s.callDone q))).settleStream k := by
  have mem : (s.tellCall q x).mem = s.mem := State.answer_same State.mem (fun _ _ _ => rfl) s _ _ _ waits
  have unc : (s.tellCall q x).unc = s.unc := State.answer_same State.unc (fun _ _ _ => rfl) s _ _ _ waits
  rw [← State.callDone_congr mem unc q]
  simp only [State.sysCompletion, h, one, List.foldl_cons, List.foldl_nil]
  rfl

/-- A call that is complete is delivered, and no call that is complete is in flight any more (R121, R122). -/
theorem sysCompletion_comes (s : State) (k c : Nat) (q : Cont) (x : SysCall) (h : s.conts.find? k = some q) (one : q.stream.calls.filter (s.callDone q) = [x])
    (waits : s.coreWaiting x.id = some c) :
    Comes (.sysCompletion k) s (fun t =>
      Sent t c false x.id x.reg (.sc (BitVec.ofNat 64 (s.ringRd q (q.slotAt x.n + 0x18)))) (BitVec.ofNat 4 (s.ringRd q (q.slotAt x.n + 0x10))) s.cyc ∧
      ∃ q', t.conts.find? k = some q' ∧ q'.stream.calls = q.stream.calls.filter (fun (y : SysCall) => !s.callDone q y)) := by
  have sent : Sent (s.tellCall q x) c false x.id x.reg _ _ s.cyc := s.answer_sent x.reg _ _ waits
  have conts : (s.tellCall q x).conts = s.conts := State.answer_same State.conts (fun _ _ _ => rfl) s _ _ _ waits
  obtain ⟨a, b, found, -, -⟩ := ((s.tellCall q x).modStream k (Stream.dropCalls (s.callDone q))).settleStream_cont (k := k)
    (q := { q with stream := q.stream.dropCalls (s.callDone q) }) (by simp [State.modStream, conts, h])
  refine comes_of_next rfl (State.sysCompletion_eq h one waits) ⟨?_, _, found, rfl⟩
  have cores := State.settleStream_cores ((s.tellCall q x).modStream k (Stream.dropCalls (s.callDone q))) k
  rw [State.modStream_cores] at cores
  simpa only [Sent, State.delivsOf, State.usr, State.core, cores] using sent

/-- A SYS that found the ring full is issued again once there is room: its trap is over, at the same bundle (R122). -/
theorem sysReissue_comes (s : State) (c : Nat) (q : Cont) (k : Task) (r : TrapRec) (hq : s.contOf? c = some q) (hk : s.task? c = some k) (trapped : k.st = .trapped)
    (trap : k.trap = some r) (full : r.cause = cSYS_RING_FULL) (room : s.ringFull q = false) :
    Comes (.sysReissue c) s (fun t => t.task? c = some { k with st := k.was, trap := none, posted := false } ∧ (t.ctx c false).pc = (s.ctx c false).pc) := by
  have held : s.held c = true := by simp [State.held, hk, trapped]
  have cause : (s.trapRec c).cause = cSYS_RING_FULL := by simp [State.trapRec, hk, trap, full]
  have e : s.sysReissue c = s.resumeTrap c (s.resumeAt c) := by
    simp only [State.sysReissue, hq, held, cause, room, Bool.not_false, and_self, if_true, State.eret, Bool.not_true, Bool.false_eq_true, if_false]
  refine comes_of_next rfl e ⟨?_, ?_⟩
  · have : ((s.usr c).task) = some k := hk
    simp [State.resumeTrap, State.task?, this]
  · simp [State.resumeTrap, State.resumeAt, State.ctx]

/-! #### Register writes (R5, R263) -/

theorem registerWrite_va (s : State) (v : Word) : Comes (.registerWrite 0x100 v) s (fun t => t.shoot.va = v ∧ t.shoot.go = s.shoot.go) :=
  comes_of_next (u := { s with shoot := { s.shoot with va := v } }) rfl rfl ⟨rfl, rfl⟩

theorem registerWrite_dbg (s : State) (v : Word) (p : Nat) (hp : p < s.parts.length) (h16 : p < 16) (hv : v.toNat / 2 ^ 16 = 0) :
    Comes (.registerWrite (0x408 + 0x40 * p) v) s (fun t => (t.part p).dbg = v.getLsbD 2 ∧ (t.part p).share = (s.part p).share) := by
  have e : s.registerWrite (0x408 + 0x40 * p) v = s.modPart p (fun x => { x with dbg := v.getLsbD 2 }) := by
    rw [State.registerWrite, if_neg (by omega), if_pos ⟨by omega, by omega, by omega, hv⟩, show (0x408 + 0x40 * p - 0x400) / 0x40 = p by omega]
  refine comes_of_next rfl e ?_
  simp [State.part_modPart _ _ _ hp]

theorem registerWrite_retry (s : State) (v : Word) (n : Nat) (hn : n < 96) :
    Comes (.registerWrite (0x2000 + 8 * n) v) s (fun t => (t.port' n).retry = Nat.land (s.port' n).retry (2 ^ 32 - 1 - v.toNat / 2 ^ 16 % 2 ^ 32)) := by
  have e : s.registerWrite (0x2000 + 8 * n) v = s.modPort n (fun p => { p with retry := Nat.land p.retry (2 ^ 32 - 1 - v.toNat / 2 ^ 16 % 2 ^ 32) }) := by
    rw [State.registerWrite, if_neg (by omega), if_neg (by omega), if_pos ⟨by omega, by omega, by omega⟩, show (0x2000 + 8 * n - 0x2000) / 8 = n by omega]
  refine comes_of_next rfl e ?_
  simp [State.port', State.modPort]

theorem registerWrite_interval (s : State) (v : Word) : Comes (.registerWrite 0x4000 v) s (fun t =>
    t.mod.interval = v.toNat % 2 ^ 32 ∧ t.mod.ckNext = if v.toNat % 2 ^ 32 = 0 then none else some (s.cyc + 1200000 * (v.toNat % 2 ^ 32))) := by
  have e : s.registerWrite 0x4000 v = { s with mod := { s.mod with
      interval := v.toNat % 2 ^ 32, ckNext := if v.toNat % 2 ^ 32 = 0 then none else some (s.cyc + 1200000 * (v.toNat % 2 ^ 32)) } } := by
    rw [State.registerWrite, if_neg (by omega), if_neg (by omega), if_neg (by omega), if_pos rfl]
    rfl
  exact comes_of_next rfl e ⟨rfl, rfl⟩

/-! #### Stores of the host (R260, R261, R263) -/

/-- The bytes of a host store that is performed, one after the other from `pa` on. -/
def State.hostBytes (s : State) (pa : Nat) (l : List (Byte × Nat)) : State :=
  l.foldl (fun (s : State) (p : Byte × Nat) => if s.postByte (pa + p.2) then s else s.storeMem (pa + p.2) [p.1]) s

/-- Where no byte is one of a live POST or PROGRESS and no region is locked, memory takes them all. -/
theorem State.hostBytes_mem {s : State} (h : s.unlocked) (pa : Nat) (free : ∀ i, s.postByte (pa + i) = false) (bytes : List Byte) (n : Nat) :
    (s.hostBytes pa (bytes.zipIdx n)).mem = s.mem.wrN (pa + n) bytes := by
  induction bytes generalizing s n with
  | nil => rfl
  | cons b t ih =>
    obtain ⟨mem, unlocked⟩ := State.storeMem_of_unlocked h (pa + n) [b]
    have conts := (s.storeMem_hub (pa + n) [b]).conts
    have still (i : Nat) : (s.storeMem (pa + n) [b]).postByte (pa + i) = false := by
      have := free i
      simpa only [State.postByte, State.cont?, conts] using this
    rw [List.zipIdx_cons, State.hostBytes, List.foldl_cons, ← State.hostBytes, if_neg (by simp [free n]), ih unlocked still, mem]
    rfl

theorem State.touch_mem (s : State) (p : Place) (pa : Nat) : (s.touch p pa).mem = s.mem := by
  unfold State.touch
  split <;> rfl

theorem State.hostPerform_mem {s : State} (h : s.unlocked) (pa : Nat) (free : ∀ i, s.postByte (pa + i) = false) (bytes : List Byte) :
    (s.hostPerform pa bytes).mem = s.mem.wrN pa bytes := by
  have e : (s.hostPerform pa bytes).mem = (s.hostBytes pa (bytes.zipIdx 0)).mem :=
    List.foldlRecOn _ _ (motive := fun t : State => t.mem = (s.hostBytes pa (bytes.zipIdx 0)).mem) rfl (fun t ht _ _ => (t.touch_mem _ _).trans ht)
  rw [e, State.hostBytes_mem h pa free bytes 0, Nat.add_zero]

/-- The harts that go on change nothing but themselves and the agenda. -/
theorem State.wakeHarts_same {α : Type} (p : State → α) (hs : ∀ s h x, p (s.setHart h x) = p s) (ha : ∀ s ts, p (s.soon ts) = p s) (s : State) :
    p s.wakeHarts = p s :=
  (ha _ _).trans (List.foldlRecOn _ _ (motive := fun t : State => p t = p s) rfl (fun _ ht _ _ => (hs _ _ _).trans ht))

theorem ctlPage_not_hbm {pa : Nat} (h : inHbm pa = true) : pa < ctlPage := by
  simp only [inHbm, Bool.and_eq_true, decide_eq_true_eq] at h
  unfold ctlPage
  omega

/-- A store to memory goes to the stores that wait, and on as far as the regions allow. -/
theorem State.hostStore_hbm (s : State) (pa : Nat) (bytes : List Byte) (hb : bytes ≠ []) (inFirst : inHbm pa = true) (inLast : inHbm (pa + bytes.length - 1) = true)
    (empty : s.hostq = []) : s.hostStore pa bytes = .next (s.hostGo [(pa, bytes)] []) := by
  have := ctlPage_not_hbm inFirst
  rw [State.hostStore, if_neg (by simpa using hb), if_neg (by omega), if_pos ⟨inFirst, inLast⟩, empty]
  rfl

/-- A store to regions of the processor is performed at once: its bytes and no others (R260, R263). -/
theorem hostStore_performed (s : State) (pa : Nat) (bytes : List Byte) (hb : bytes ≠ []) (inFirst : inHbm pa = true) (inLast : inHbm (pa + bytes.length - 1) = true)
    (empty : s.hostq = []) (unlocked : s.unlocked) (proc : ∀ r ∈ regionsOf pa bytes.length, (s.region (r * 2 ^ 21)).st = .proc) (free : ∀ i, s.postByte (pa + i) = false) :
    Comes (.hostStore pa bytes) s (fun t => t.mem.rdN pa bytes.length = bytes ∧ (∀ a, a < pa ∨ pa + bytes.length ≤ a → t.mem.rd a = s.mem.rd a) ∧ t.hostq = []) := by
  have e : s.hostGo [(pa, bytes)] [] = ({ s.hostPerform pa bytes with hostq := [] } : State).wakeHarts := by
    have all : (regionsOf pa bytes.length).all (fun r => (s.region (r * 2 ^ 21)).st == .proc) = true := by
      simpa [List.all_eq_true] using proc
    simp only [State.hostGo, all, List.any_nil, Bool.not_false, Bool.and_self, if_true]
  have mem : (s.hostGo [(pa, bytes)] []).mem = s.mem.wrN pa bytes := by
    rw [e, State.wakeHarts_same State.mem (fun _ _ _ => rfl) (fun _ _ => rfl)]
    exact State.hostPerform_mem unlocked pa free bytes
  refine ⟨_, s.hostStore_hbm pa bytes hb inFirst inLast empty, ?_, fun a ha => ?_, ?_⟩
  · rw [mem, Mem.rdN_wrN]
  · rw [mem, Mem.rd_wrN_other _ _ _ _ ha]
  · rw [e, State.wakeHarts_same State.hostq (fun _ _ _ => rfl) (fun _ _ => rfl)]

/-- The host asks for the transfer of a region. -/
def State.askRegion (s : State) (r : Nat) : State := { s with regions := s.regions.put r { s.region (r * 2 ^ 21) with wantP := true } }

/-- A store to a region that is not the processor's waits, and asks for it (R260, R261). -/
theorem hostStore_waits (s : State) (pa r : Nat) (bytes : List Byte) (hb : bytes ≠ []) (inFirst : inHbm pa = true) (inLast : inHbm (pa + bytes.length - 1) = true)
    (empty : s.hostq = []) (one : regionsOf pa bytes.length = [r]) (other : (s.region (r * 2 ^ 21)).st ≠ .proc) :
    Comes (.hostStore pa bytes) s (fun t => t.mem = s.mem ∧ t.hostq = [(pa, bytes)] ∧ (t.region (r * 2 ^ 21)).wantP = true) := by
  have e : s.hostGo [(pa, bytes)] [] = ({ s.askRegion r with hostq := [(pa, bytes)] } : State).wakeHarts := by
    have no : ((s.region (r * 2 ^ 21)).st == .proc) = false := by simpa using other
    simp only [State.hostGo, one, List.all_cons, no, Bool.false_and, Bool.and_false, Bool.false_eq_true, if_false, State.wantRegions, List.foldl_cons, List.foldl_nil,
      List.nil_append, State.askRegion]
  refine ⟨_, s.hostStore_hbm pa bytes hb inFirst inLast empty, ?_, ?_, ?_⟩
  · rw [e, State.wakeHarts_same State.mem (fun _ _ _ => rfl) (fun _ _ => rfl)]
    rfl
  · rw [e, State.wakeHarts_same State.hostq (fun _ _ _ => rfl) (fun _ _ => rfl)]
  · rw [e, State.wakeHarts_same (fun t => (t.region (r * 2 ^ 21)).wantP) (fun _ _ _ => rfl) (fun _ _ => rfl)]
    simp [State.region, State.askRegion]

/-- An aligned store of 8 bytes to the control page is the write of a register, in the next step (R5, log 64). -/
theorem hostStore_control (s : State) (pa : Nat) (bytes : List Byte) (hb : bytes ≠ []) (len : bytes.length = 8) (aligned : pa % 8 = 0)
    (lo : ctlPage ≤ pa) (hi : pa + 8 ≤ ctlPage + 2 ^ 16) :
    Comes (.hostStore pa bytes) s (fun t => t.agenda = .event (ctlWrite (pa - ctlPage) (BitVec.ofNat 64 (ofBytesLE bytes))) :: s.agenda ∧ t.mem = s.mem) := by
  refine ⟨s.soon [.event (ctlWrite (pa - ctlPage) (BitVec.ofNat 64 (ofBytesLE bytes)))], ?_, rfl, rfl⟩
  show s.hostStore pa bytes = _
  rw [State.hostStore, if_neg (by simpa using hb), if_pos ⟨lo, by omega⟩, if_pos ⟨len, aligned⟩]

/-- A store where no memory and no register is has no meaning (R258, log 64). -/
theorem hostStore_fault (s : State) (pa : Nat) (bytes : List Byte) (hb : bytes ≠ []) (out : inHbm pa = false ∨ inHbm (pa + bytes.length - 1) = false)
    (noCtl : ¬ (ctlPage ≤ pa ∧ pa + bytes.length ≤ ctlPage + 2 ^ 16)) : exec (.hostStore pa bytes) s = .fault (.noMemory pa) := by
  show s.hostStore pa bytes = _
  rw [State.hostStore, if_neg (by simpa using hb), if_neg noCtl, if_neg]
  rintro ⟨h1, h2⟩
  rcases out with out | out
  · simp [h1] at out
  · simp [h2] at out

/-! #### The obligation -/

/-- Settles O55: clause by clause, each from the rule of its event above. -/
theorem continuationEventResults : Obligations.ContinuationEventResults := by
  unfold Obligations.ContinuationEventResults
  refine ⟨cjoinTimeout_comes, contPark_comes, contUnpark_comes, killDone_comes, checkpointInterval_comes, fun s ks hp hr hks nodup => ⟨?_, ?_⟩,
    fun s p k cause hp hw hr hc => ⟨?_, ?_⟩, faultSteeringWrite_comes, sysCompletion_comes, sysReissue_comes, fun s v => ⟨?_, ?_, ?_, ?_⟩,
    fun s pa bytes hb => ⟨?_, ?_, ?_, ?_⟩⟩
  · exact checkpointComplete_lost_comes s ks hp hr nodup
  · exact checkpointComplete_kept_comes s ks hp hr hks nodup
  · exact fun _ => attentionRetry_free_comes s p k cause hp hw hr hc
  · exact fun hm => comes_of_next rfl (s.attentionRetry_full p k cause hw hm) ⟨rfl, rfl, rfl⟩
  · exact registerWrite_va s v
  · exact registerWrite_dbg s v
  · exact registerWrite_retry s v
  · exact registerWrite_interval s v
  · exact hostStore_performed s pa bytes hb
  · exact fun r inFirst inLast empty => hostStore_waits s pa r bytes hb inFirst inLast empty
  · exact hostStore_control s pa bytes hb
  · exact hostStore_fault s pa bytes hb

end Sys2Proof.Machine

/-! ### A step runs the decoded instruction

SUPPORT, and the proof of O4. First what a step takes from the agenda, then one rule for each agent's turn: the core's, the lantern context's,
the hart's and the porter's. The turns of a cycle and the place of the engine among them are the model's (log 48), as are the harts' published set (logs 50, 94)
and the instruction cache, which shows in no value (log 101). -/

namespace Sys2Proof.Machine

/-- A step takes the turn that is first on the agenda. -/
theorem step_of_agenda {s : State} {t : Turn} {rest : List Turn} (h : s.agenda = t :: rest) : step s = ({ s with agenda := rest } : State).take t := by
  simp [step, State.run, State.choose, h]

/-! #### The user context of a core (R24, R26) -/

/-- A context that issues passes its boundary. -/
theorem State.mayPass_of_mayRun {s : State} {c : Nat} (h : s.mayRun c = true) : s.mayPass c = true := (Bool.and_eq_true_iff.1 h).1

/-- With nothing landed and no abort noted no trap is due. -/
theorem State.takeDue_none {s : State} {c : Nat} (after : (s.usr c).after = []) (noted : (s.usr c).member.bind Member.noted = none) : s.takeDue c = none := by
  simp [State.takeDue, after, noted, lowestTrap]

/-- Past the boundary, a context that does not drain takes the bundle that it fetches. -/
theorem State.boundaryNow_bundle {s : State} {c : Nat} {b : Bundle} (drain : s.draining c = false) (fetch : s.fetch c false = .bundle b) :
    s.boundaryNow c = (some b, s.cacheCode c (s.codeAt c false (s.usr c).ctx.pc)) := by
  simp [State.boundaryNow, drain, fetch]

/-- A core has its turn: it acts, and its user context has been considered in this cycle. -/
def State.atCore (s : State) (c : Nat) : State := ({ s with actor := .core c } : State).modCtx c false (fun x => { x with cons := s.cyc + 1 })

theorem State.atCore_def (s : State) (c : Nat) : s.atCore c = ({ s with actor := .core c } : State).modCtx c false (fun x => { x with cons := s.cyc + 1 }) := rfl

theorem State.usr_atCore (s : State) (c : Nat) : (s.atCore c).usr c = { s.usr c with ctx := { (s.usr c).ctx with cons := s.cyc + 1 } } := State.usr_modCtx_user _ c _

/-- At a boundary with nothing due the core's turn is what lies past the boundary. -/
theorem State.coreTurn_boundaryNow {s : State} {c : Nat} (stop : (s.atCore c).stopsHere c = false) (run : (s.atCore c).mayRun c = true)
    (idle : ((s.atCore c).usr c).ctx.idle = 0) (kill : (((s.atCore c).task? c).map Task.killAt).getD false = false)
    (due : (s.atCore c).takeDue c = none) : s.coreTurn c = (s.atCore c).boundaryNow c := by
  simp only [State.coreTurn, ← State.atCore_def, stop, run, State.mayPass_of_mayRun run, idle, kill, due]
  simp

/-- At a boundary with nothing due, a core executes the instruction that the bundle at its pc decodes to. -/
theorem State.userTurn_decoded {s : State} {c : Nat} {b : Bundle} (stop : (s.atCore c).stopsHere c = false) (run : (s.atCore c).mayRun c = true)
    (idle : ((s.atCore c).usr c).ctx.idle = 0) (task : ∃ k, ((s.atCore c).usr c).task = some k ∧ k.killAt = false) (after : ((s.atCore c).usr c).after = [])
    (noted : ((s.atCore c).usr c).member.bind Member.noted = none) (drain : (s.atCore c).draining c = false) (fetch : (s.atCore c).fetch c false = .bundle b) :
    s.userTurn c = exec (decodeBundle b) ((s.atCore c).cacheCode c ((s.atCore c).codeAt c false (s.usr c).ctx.pc)) := by
  obtain ⟨k, task, alive⟩ := task
  have kill : (((s.atCore c).task? c).map Task.killAt).getD false = false := by simp [State.task?, task, alive]
  have pc : ((s.atCore c).usr c).ctx.pc = (s.usr c).ctx.pc := by rw [State.usr_atCore]
  rw [State.userTurn, State.coreTurn_boundaryNow stop run idle kill (State.takeDue_none after noted), State.boundaryNow_bundle drain fetch, exec_decodeBundle, pc]

/-! #### The lantern context (R16, R172) -/

/-- A lantern context has its turn. -/
def State.atLantern (s : State) (c : Nat) : State := { s with actor := .lantern c }

theorem State.atLantern_def (s : State) (c : Nat) : s.atLantern c = { s with actor := .lantern c } := rfl

/-- A lantern context that may issue and does not idle executes the bundle at its pc, in physical memory (log 18). -/
theorem State.lanternTurn_decoded {s : State} {c : Nat} (may : (s.atLantern c).lanternMay c = true)
    (awake : (s.core c).lan.idle = none) (idle : (s.core c).lan.ctx.idle = 0) :
    s.lanternTurn c = exec (decodeBundle (Bundle.ofNat (s.mem.num (s.core c).lan.ctx.pc.toNat 32))) ((s.atLantern c).cacheCode c (some (s.core c).lan.ctx.pc.toNat)) := by
  have core : (s.atLantern c).core c = s.core c := rfl
  have fetch : (s.atLantern c).fetch c true = .bundle (Bundle.ofNat (s.mem.num (s.core c).lan.ctx.pc.toNat 32)) := rfl
  have code (pc : Word) : (s.atLantern c).codeAt c true pc = some pc.toNat := rfl
  simp [State.lanternTurn, ← State.atLantern_def, exec_decodeBundle, may, core, awake, idle, fetch, code]

/-! #### A hart (R18, R78, R91) -/

/-- A word that holds an instruction of the manual is that instruction. -/
theorem State.hartWord_instr {n len : Nat} {i : Instr} (h : hartInstr n len = some i) (s : State) (k : Nat) : s.hartWord k n len = exec i s := by
  simp only [State.hartWord, h]

/-- A word that holds an instruction of RV64GC is that instruction. -/
theorem State.hartWord_rv {n len : Nat} {r : Rv64} (h : hartInstr n len = none) (hr : (if len = 4 then Rv64.decode n else Rv64.decodeC n) = some r)
    (s : State) (k : Nat) : s.hartWord k n len = .next (s.hartRv k len r) := by
  simp only [State.hartWord, h, hr]

/-- A word that holds neither is one of the V extension, or illegal. -/
theorem State.hartWord_other {n len : Nat} (h : hartInstr n len = none) (hr : (if len = 4 then Rv64.decode n else Rv64.decodeC n) = none)
    (s : State) (k : Nat) : s.hartWord k n len = .next (if len = 4 ∧ vectorWord n = true then s.hartVector k len n else s.hartIllegal k) := by
  simp only [State.hartWord, h, hr]

/-- A hart has its turn: it waits for the continuation engine no longer. -/
def State.atHart (s : State) (h : Nat) : State := { s with actor := .hart h, engine := s.engine.filter (fun n => decide (n ≠ h)) }

theorem State.atHart_def (s : State) (h : Nat) : s.atHart h = { s with actor := .hart h, engine := s.engine.filter (fun n => decide (n ≠ h)) } := rfl

section
variable {s : State} {h n len : Nat} {here : Bool} (wait : (s.hart h).wait = .none) (irq : (s.hart h).irq = none) (fetch : (s.atHart h).hartFetch h = .word n len)
include wait irq fetch

/-- A hart that neither waits nor is interrupted executes its word where it has no place in the engine's order of the cycle, or has come to it. -/
theorem State.hartTurn_now (now : here = true ∨ (hartInstr n len).bind enginePlace = none) : s.hartTurn h here = (s.atHart h).hartWord h n len := by
  have hart : (s.atHart h).hart h = s.hart h := rfl
  have passes : (!here && ((hartInstr n len).bind enginePlace).isSome) = false := by rcases now with now | now <;> simp [now]
  simp only [State.hartTurn, ← State.atHart_def, hart, wait, irq, fetch, passes]
  simp

/-- Where it has a place to which the engine has not come, it joins those that wait for the engine. -/
theorem State.hartTurn_early (early : here = false) (place : ((hartInstr n len).bind enginePlace).isSome = true) :
    s.hartTurn h here = .next { s.atHart h with engine := (s.atHart h).engine ++ [h] } := by
  have hart : (s.atHart h).hart h = s.hart h := rfl
  simp only [State.hartTurn, ← State.atHart_def, hart, wait, irq, fetch, early, place]
  rw [ite_self]
  rfl
end

/-- A hart's turn at either place of the cycle. -/
theorem State.take_hart (s : State) (h : Nat) (here : Bool) : s.take (if here then .engine h else .hart h) = s.hartTurn h here := by
  cases here <;> rfl

/-! #### A porter (R305) -/

/-- A porter has its turn: it acts, and has been considered in this cycle. -/
def State.atPorter (s : State) (c side : Nat) : State := ({ s with actor := .porter c side } : State).modPorter c side (fun p => { p with cons := s.cyc + 1 })

theorem State.atPorter_def (s : State) (c side : Nat) : s.atPorter c side = ({ s with actor := .porter c side } : State).modPorter c side (fun p => { p with cons := s.cyc + 1 }) := rfl

/-- A porter executes the instruction of its word. -/
theorem State.porterTurn_decoded {s : State} {c side : Nat} {w : BitVec 32} {i : Instr} (fetch : (s.atPorter c side).porterFetch c side = .inl w)
    (hi : decodePorter w = some i) : s.porterTurn c side = exec i (s.atPorter c side) := by
  simp only [State.porterTurn, ← State.atPorter_def, fetch, hi]

/-! #### The obligation -/

/-- Settles O4: agent by agent, each from the rule of its turn above. -/
theorem stepRunsTheDecodedInstruction : Obligations.StepRunsTheDecodedInstruction := by
  unfold Obligations.StepRunsTheDecodedInstruction
  refine ⟨fun s c rest b turn stop run idle task after noted drain fetch => ?_, fun s c rest turn may awake idle => ?_,
    fun s h rest here n len turn wait irq fetch => ?_, fun s c side rest w i turn fetch hi => ?_, fun s i rest turn => step_of_agenda turn⟩
  · rw [step_of_agenda turn]
    exact State.userTurn_decoded stop run idle task after noted drain fetch
  · rw [step_of_agenda turn]
    exact State.lanternTurn_decoded may awake idle
  · rw [step_of_agenda turn, State.take_hart]
    have now := State.hartTurn_now (s := { s with agenda := rest }) (here := here) wait irq fetch
    refine ⟨fun i hi free => ?_, fun i hi early place => ?_, fun r hi hr => ?_, fun hi hr => ?_⟩
    · exact (now (by simpa [hi] using free)).trans (State.hartWord_instr hi _ h)
    · exact State.hartTurn_early wait irq fetch early (by simpa [hi, Option.isSome_iff_ne_none] using place)
    · exact (now (.inr (by simp [hi]))).trans (State.hartWord_rv hi hr _ h)
    · exact (now (.inr (by simp [hi]))).trans (State.hartWord_other hi hr _ h)
  · rw [step_of_agenda turn]
    exact State.porterTurn_decoded fetch hi

end Sys2Proof.Machine

/-! ### The twelve host instructions: what a CSAVE leaves of its hart

The refutation of O54. A parking that is over at once ends every CSAVE that waits for it (R97), and the statement does not ask that the hart
which executes the CSAVE wait in no instruction. Where it already waits in a CSAVE of that block, the parking ends that wait, and the pc moves
on before the new wait begins. A hart's turn executes nothing while the hart waits (`State.hartTurn`), so what the statement lacks is the
hypothesis that `x.wait` is `.none`. -/

namespace Sys2Proof.Machine

/-- Hart 0, in S-mode with x1 = 0x1000, waits in a CSAVE of the running continuation whose block x1 names; no launch holds cores. -/
def savingHart : State :=
  { mem := {}, actor := .hart 0
    harts := [(0, { x := (Vector.replicate 32 0).set 1 0x1000, wait := .save 2 0x1000 })]
    conts := [(0x1000, { block := 0x1000, st := .running, resident := true })] }

/-- x1 names the block of the running continuation, which the hart may access, and no store of a hart waits. -/
theorem savingHart_block : (savingHart.hart 0).sup = true ∧ ((savingHart.hart 0).rd 1).toNat % 256 = 0 ∧
    savingHart.hartPhys 0 .load ((savingHart.hart 0).rd 1) = .inl 0x1000 ∧ inHbm 0x1000 = true ∧ savingHart.hostq = [] := by decide +kernel

/-- The continuation has begun no parking. -/
theorem savingHart_cont : savingHart.cont? 0x1000 = some { block := 0x1000, st := .running, resident := true } := rfl

/-- A second CSAVE there parks the continuation at once, which ends the first: the pc has moved on, and the hart waits again. -/
theorem savingHart_csave : (savingHart.hart 0).pc = 0 ∧ ((savingHart.csave 0 1 0).hart 0).pc = 4 ∧
    ((savingHart.csave 0 1 0).hart 0).wait = .save 0 0x1000 := by decide +kernel

/-- Refutes O54: of a CSAVE that parks a continuation it says that the hart waits with its pc unchanged, but in `savingHart`, where the hart
already waits in a CSAVE of the same block, the parking ends that wait and moves the pc. -/
theorem not_hostInstructionResults : ¬ Obligations.HostInstructionResults := by
  unfold Obligations.HostInstructionResults
  intro holds
  obtain ⟨sup, aligned, phys, hbm, noStores⟩ := savingHart_block
  obtain ⟨-, -, -, -, -, -, -, -, ofBlock⟩ := holds savingHart 0 1 0 0 rfl
  obtain ⟨-, -, ofCont, -⟩ := ofBlock 0x1000 sup aligned phys hbm noStores
  obtain ⟨-, -, -, -, csave, -⟩ := ofCont _ savingHart_cont
  have noLaunch : ∀ p ∈ savingHart.launches, p.2.block = 0x1000 → p.2.holds = false := fun _ hp => by cases hp
  obtain ⟨t, run, -, pcStays, -⟩ := (csave (.inr (.inl rfl))).2 noLaunch rfl
  have next : savingHart.csave 0 1 0 = t := Host.Outcome.next.inj run
  obtain ⟨before, moved, -⟩ := savingHart_csave
  rw [← next, moved, before] at pcStays
  exact absurd pcStays (by decide)

end Sys2Proof.Machine
